-- ==== Sys2Proof/Word.lean ====
section
/-! DEFINITION. The word types of the Aiska A9 model.  Every register, queue half-word and payload
word is a 32-bit little-endian word (R7, R164); queue data are 64-bit words (R219). -/

namespace Sys2Proof

/-- One 32-bit register or payload word (R7). -/
abbrev Word := BitVec 32

/-- One byte of a stored or transferred format (R7). -/
abbrev Byte := BitVec 8

/-- The data of one queue word or event word (R219, R286). -/
abbrev DWord := BitVec 64

end Sys2Proof
end

