-- ==== Sys2Proof/Syntax.lean ====
section
/-! DEFINITION. The commands the A9 block takes from outside: one constructor of `Instr` for each row of
spec/opcode_table.json, with the operands the row's event brings with it.  Rows that are mailbox commands carry a
`Cmd` (what Survo firmware has collected of the command, R318); rows that are register accesses carry the path, the
address and the data; rows that are events of the part's surroundings carry what those surroundings did. -/

namespace Sys2Proof

/-- The three access paths of the register window, coded as GLB_BUSERR.PATH (R179, R196, R200). -/
inductive Path where
  | survo | usb | twoWire
  deriving DecidableEq, Repr

/-- The two transports a session may be opened over (R30, R32, R279). -/
inductive Transport where
  | usb | twoWire
  deriving DecidableEq, Repr

/-- The command streams Survo firmware serves (R271, R272): one per bench, and the two admin streams. -/
inductive Stream where
  | bench (n : Fin 8)
  | adminUsb
  | adminTw
  deriving DecidableEq, Repr

/-- The rails of the fast domain that R59 monitors. -/
inductive Rail where
  | vcore | vio | vfe | vtw
  deriving DecidableEq, Repr

/-- The strap levels sampled at the release of reset (R51, R52). -/
structure Straps where
  openMode : Bool
  bootsel : Bool
  twa : BitVec 2
  deriving DecidableEq, Repr

/-- A mailbox command as Survo firmware has collected it (R263 to R266, R318).  The opcode is the constructor's. -/
structure Cmd where
  /-- The stream that fed the command to Survo firmware (R271). -/
  stream : Stream
  /-- The transport the frames arrived over (R279, R344). -/
  via : Transport
  /-- TAG, word 0 [23:16]. -/
  tag : BitVec 8
  /-- RESUME, word 0 [24]. -/
  resume : Bool
  /-- FENCE, word 0 [25]. -/
  fence : Bool
  /-- The reserved bits [31:26] of word 0 (R263, R270). -/
  rsvd : BitVec 6
  /-- BENCH, word 1 [3:0]. -/
  bench : BitVec 4
  /-- DEADLINE, word 1 [31:16], in ms; 0 selects the opcode's default. -/
  deadline : BitVec 16
  /-- The payload words, numbered from 2; LEN is their number (R266). -/
  payload : List Word
  /-- The frames came in sequence and repeated words 0 and 1 of the first frame (R267). -/
  seqOk : Bool
  deriving DecidableEq, Repr

/-- What the boot ROM finds in one firmware image (R134): the fields it reads and the outcome of its two cryptographic
checks and of the ECC. -/
structure ImageView where
  /-- A NAND ID was read on SLA CE0 (ERROR 0x10, R142). -/
  nandId : Bool
  /-- Every page read was corrected by the ECC. -/
  eccOk : Bool
  magic : Word
  version : Word
  length : Nat
  /-- The SHA-256 of PUBKEY equals the key hash in fuses. -/
  keyOk : Bool
  /-- The Ed25519 signature verifies. -/
  sigOk : Bool
  deriving DecidableEq, Repr

/-- The geometry a parameter page reports (R541, R543). -/
structure Geometry where
  /-- Page size in KiB. -/
  pageKib : Nat
  /-- Spare bytes per page. -/
  spare : Nat
  pagesPerBlock : Nat
  planes : Nat
  luns : Nat
  blocksPerLun : Nat
  /-- The data bus has 16 bits. -/
  wide : Bool
  deriving DecidableEq, Repr

/-- One redundant copy of a parameter page (R542): whether its CRC is valid, the geometry, and the fastest SDR and, where reported,
NV-DDR2 mode. -/
structure ParamCopy where
  crcOk : Bool
  geom : Geometry
  sdr : Nat
  ddr : Option Nat
  deriving DecidableEq, Repr

/-- One codeword as a NAND page read brings it (R553, R554): the zero bits across its data and parity, and its bit errors. -/
structure Codeword where
  zeros : Nat
  errors : Nat
  deriving DecidableEq, Repr

/-- One page as a NAND read brings it: its hank, its page number in the hank, and its codewords. -/
structure PageRead where
  hank : Nat
  page : Nat
  words : List Codeword
  deriving DecidableEq, Repr

/-- A bad-block table copy as read from a system hank (R557): its generation and its entries (BLOCK, ORIGIN). -/
structure TableCopy where
  gen : Nat
  entries : List (Nat × Nat)
  deriving DecidableEq, Repr

/-- What the A9 finds on one storage lane at start-up (R542 to R545, R551, R555, R559): the copies of each chip enable's parameter page,
the two stored table copies where valid, and the blocks whose spare bytes carry a bad mark. -/
structure LaneProbe where
  /-- The three copies of the parameter page of CE0 to CE3, in order; none where the chip enable is absent. -/
  ce : List (List ParamCopy)
  tableA : Option TableCopy
  tableB : Option TableCopy
  /-- Lane block numbers the scan of R555 finds marked. -/
  scan : List Nat
  deriving DecidableEq, Repr

/-- The outcome of one pod EEPROM access (R145, R146, R160, R399), after `losses` attempts that lost arbitration. -/
inductive PodRead where
  /-- The EEPROM's address was NACKed. -/
  | absent (losses : Nat)
  /-- Arbitration was lost four times in a row. -/
  | lost
  /-- The 32 bytes read from address 0x00. -/
  | bytes (losses : Nat) (b : List Byte)
  deriving DecidableEq, Repr

/-- The outcome of a two-wire transfer the A9 makes as controller (R701, R705, R709, R721). -/
inductive XferOut where
  /-- Every byte was acknowledged; `rd` are the bytes read. -/
  | done (rd : List Byte)
  /-- A NACK after `n` write bytes were acknowledged (address NACK: 0). -/
  | nack (n : Nat)
  /-- Arbitration was lost. -/
  | lost
  /-- A target held SCL low for 25 ms (R701). -/
  | timeout
  deriving DecidableEq, Repr

/-- The voltage at a ball over a window: `mv` in millivolts until the first step, then each step's time, in ps of the base-tick
count's own scale (tick t begins at 625 t), and the voltage from it on (R376, R387). -/
structure Ball where
  mv : Int
  steps : List (Int × Int)
  deriving DecidableEq, Repr

/-- One pod's balls over a window: D00 to D31, Pp_CLK, and whether the pod's summed clamp current is above 20 mA (R67). -/
structure PodInput where
  data : List Ball
  clk : Ball
  hot : Bool
  deriving DecidableEq, Repr

/-- How a USB link goes away (R30, R59, R741). -/
inductive LinkLoss where
  /-- The host detaches. -/
  | unplugged
  /-- The host resets the bus. -/
  | busReset
  /-- VUSB33 or VUSB08 falls below its falling threshold. -/
  | railsFall
  deriving DecidableEq, Repr

/-- A configuration register bit that has flipped (R202): the normal address, whether the in-effect copy is meant,
and the bit. -/
structure Upset where
  addr : Nat
  inEffect : Bool
  bit : Fin 32
  deriving DecidableEq, Repr

/-- A control request on endpoint 0 other than the register-window requests (R725, R736, R745). -/
inductive CtlReq where
  | getDescriptor
  | setAddress (a : BitVec 7)
  | setConfiguration
  | setRemoteWakeup (on : Bool)
  /-- Any other request. -/
  | unsupported
  deriving DecidableEq, Repr

/-- The kind of a NAND operation (R576). -/
inductive NandOp where
  | program | erase | read
  deriving DecidableEq, Repr

/-- Why a compression stream stops, coded as CMP_Sn_STATUS.CAUSE (R517). -/
inductive StopCause where
  | storageFull | laneRetired | noEngine
  deriving DecidableEq, Repr

/-- The rails whose rise ends a wait (R57, R59). -/
inductive RisingRail where
  | vaon
  /-- The last rail that the fast domain requires. -/
  | fast
  /-- VUSB33 and VUSB08 are both above their rising thresholds. -/
  | usb
  deriving DecidableEq, Repr

/-- CLEAR_FEATURE(ENDPOINT_HALT): the endpoint's address and, on an IN endpoint, the payload bytes already sent of a container that is
under way (R735, R750). -/
structure HaltClear where
  ep : BitVec 8
  gone : Option Nat
  deriving DecidableEq, Repr

/-- A program that ends with fail status: its lane, and for a program of the lane's system records the copy (R558, R576). -/
structure FailedProgram where
  lane : Fin 2
  system : Option (Fin 2)
  deriving DecidableEq, Repr

/-- A page of a block that has been read twice more, and the codewords it returns (R554, R576). -/
structure Reread where
  page : Nat
  words : List Codeword
  deriving DecidableEq, Repr

/-- HCLK cycles in a queue, and a stored bit that flips meanwhile: its stage and the bit (R220, R224). -/
structure QueueFall where
  cycles : Nat
  upset : Option (Nat × Fin 67)
  deriving DecidableEq, Repr

/-- The commands of the A9 block, one per row of spec/opcode_table.json. -/
inductive Instr where
  /-- COLD_RESET (R125): VAON falls below its falling threshold for longer than 2 µs and the whole A9 resets, calendar included. -/
  | coldReset
  /-- SUPPLY_MONITOR_RESET (R59): A fast-domain supply falls below its falling threshold for 2 µs or more and the fast domain resets with CAUSE 0x02. -/
  | supplyMonitorReset (rail : Rail)
  /-- JUNCTION_HOT (R59): The junction crosses 110 °C rising or 100 °C falling and GLB_SUPPLY.HOT changes. -/
  | junctionHot (tj : BitVec 8)
  /-- JUNCTION_TRIP (R59): The junction reaches 120 °C and the fast domain is held in reset until 110 °C. -/
  | junctionTrip
  /-- NRESET_LOW (R126): NRESET is held low for longer than 1 µs and the fast domain is held in reset with CAUSE 0x04. -/
  | nresetLow
  /-- NRESET_RELEASE (R126): The rising edge of NRESET starts the start-up timeline. -/
  | nresetRelease
  /-- SURVO_WATCHDOG (R125): Survo firmware fails to service the watchdog for 1 s and the fast domain resets with CAUSE 0x05. -/
  | survoWatchdog
  /-- FAST_DOMAIN_RESET_RELEASE (R129): At 2 ms the fast-domain reset is released, the straps are sampled and XO40 starts. -/
  | fastDomainResetRelease (straps : Straps)
  /-- BOOT_ROM_RUN (R132): The boot ROM loads and verifies copy A and then copy B, and starts the first copy that passes. -/
  | bootRomRun (a b : Option ImageView)
  /-- REC_WRITE (R136): The recovery vendor request writes image bytes to Survo SRAM. -/
  | recWrite (offset : Nat) (data : List Byte)
  /-- REC_BOOT (R137): The recovery vendor request verifies the image and starts it, or stalls its status stage. -/
  | recBoot
  /-- REC_STATUS (R136): The recovery vendor request returns the 8-byte boot-status block. -/
  | recStatus
  /-- BBT_LOADED (R559): Survo firmware loads each lane's bad-block table, rebuilding or rewriting copies where needed, and switches the lanes to their fastest mode. -/
  | bbtLoaded (a b : LaneProbe)
  /-- QUIET_PERIOD_END (R144): 200 ms plus UID[5:0] × 4 ms after t = 0, two-wire controller transfers become allowed. -/
  | quietPeriodEnd
  /-- POD_DISCOVERY (R145): Once both BBT and the quiet period have ended, Survo firmware reads each pod ID EEPROM in turn. -/
  | podDiscovery (reads : List PodRead)
  /-- READY (R129): At the later of 300 ms and the end of pod discovery, PHASE becomes READY and commands are executed. -/
  | ready
  /-- USB_PULLUP_ENABLE (R150): At 300 ms, or within 1 ms of VBUS appearing later, the A9 enables its USB pull-up. -/
  | usbPullupEnable
  /-- VBUS_CHANGE (R63): USB_VBUS crosses its detect threshold and GLB_SUPPLY.VBUS follows. -/
  | vbusChange (high : Bool)
  /-- USB_DETACH (R30): The USB link detaches or is reset, USB-opened benches become DETACHED, and their capture continues. -/
  | usbDetach (cause : LinkLoss)
  /-- HS_CHIRP_TIMEOUT (R724): The host does not complete the High-Speed chirp within 100 ms, so the pull-up is removed and FS_REJECT is set. -/
  | hsChirpTimeout
  /-- SUPERSPEED_FALLBACK (R723): SuperSpeed link training fails and the A9 falls back to High-Speed. -/
  | superspeedFallback
  /-- USB_SUSPEND (R742): The host suspends the link, and the A9's power state, captures and sessions stay unchanged. -/
  | usbSuspend
  /-- USB_RESUME (R743): The host resumes the link or resets the bus, which wakes the A9 when it is in SLEEP or DOZE. -/
  | usbResume (busReset : Bool)
  /-- REMOTE_WAKEUP (R745): After a wake other than a USB wake with the link suspended, the A9 signals remote wakeup within 1 ms. -/
  | remoteWakeup
  /-- BULK_OUT_FRAME (R727): 64 bytes on a bulk OUT endpoint are pushed as one frame into the bench's CMD queue or the admin stream. -/
  | bulkOutFrame (ep : BitVec 8) (words : List Word)
  /-- BULK_OUT_PARTIAL_FRAME (R728): A bulk OUT transfer ends with a frame incomplete, so the partial frame is discarded and BADOUT is counted. -/
  | bulkOutPartialFrame (ep : BitVec 8)
  /-- BULK_IN_CONTAINER (R730): The A9 sends a ready RSP, EVT or DATA container on a bulk IN endpoint. -/
  | bulkInContainer (ep : BitVec 8)
  /-- CLEAR_FEATURE_ENDPOINT_HALT (R735): The host clears an endpoint halt, which resets its sequence and discards a partial OUT frame;
  on an IN endpoint a container that is under way ends there. -/
  | clearFeatureEndpointHalt (halt : HaltClear)
  /-- USB_REG_READ (R738): The vendor request 0xA1 reads words through the register window on the USB path. -/
  | usbRegRead (wValue wIndex wLength : BitVec 16)
  /-- USB_REG_WRITE (R738): The vendor request 0xA2 writes words through the register window on the USB path. -/
  | usbRegWrite (wValue wIndex wLength : BitVec 16) (data : List Word)
  /-- TW_BOOT_STATUS_READ (R141): Before READY, a two-wire read transfer returns the latched 8-byte boot-status block. -/
  | twBootStatusRead (count : Nat)
  /-- TW_PRE_READY_WRITE (R140): Before READY, the first data byte of every two-wire write transfer is NACKed. -/
  | twPreReadyWrite
  /-- TW_POINTER_WRITE (R693): A two-wire transfer sets the 20-bit register pointer from P2, P1 and P0. -/
  | twPointerWrite (p2 p1 p0 : Byte)
  /-- TW_WORD_WRITE (R694): At the eighth bit of D3, one word is written at the pointer and the pointer advances by 4. -/
  | twWordWrite (data : Word)
  /-- TW_WORD_READ (R695): At the acknowledge of AR or of D3, one word is read at the pointer and the pointer advances by 4. -/
  | twWordRead
  /-- TW_STRETCH_TIMEOUT (R699): A stretch reaches TW_STRETCH_MAX, so the incomplete write is NACKed and left unperformed. -/
  | twStretchTimeout
  /-- TW_ADDRESS_WAKE (R88): In SLEEP or DOZE, the A9's two-wire address is NACKed and acts as a wake source. -/
  | twAddressWake
  /-- TW_ARBITRATION_LOSS (R704): The A9 loses arbitration as controller, stops driving and serves the winner as target if addressed. -/
  | twArbitrationLoss (winner : BitVec 8)
  /-- TW_CONTROLLER_TIMEOUT (R701): A target holds SCL low for 25 ms, so the A9 ends its controller transfer with a STOP and counts a NACK. -/
  | twControllerTimeout
  /-- TW_STUCK (R711): SDA or SCL stays low for 35 ms, so the A9 raises TW_STUCK and the pad loopback test runs. -/
  | twStuck
  /-- ALERT_SEND (R708): The A9 sends the most urgent pending alert as an 8-byte write to HOST_ADDR. -/
  | alertSend (out : XferOut)
  /-- ALERT_WAIT_EXPIRY (R709): 2 ms after a failed alert transfer, the state machine returns to SENDING. -/
  | alertWaitExpiry
  /-- BACKOFF_EXPIRY (R709): TW_BACKOFF expires and one LAST attempt is made for the oldest priority-0 alert. -/
  | backoffExpiry (out : XferOut)
  /-- POD_PRESENCE_POLL (R399): Once per second, Survo firmware addresses each pod EEPROM and updates pod presence and identity. -/
  | podPresencePoll (p : Fin 8) (read : PodRead)
  /-- OVERDRIVE_ONSET (R392): A channel's clamp current exceeds the overdrive threshold, which sets its FE_OVD bit and counts the onset. -/
  | overdriveOnset (p : Fin 8) (d : Fin 32)
  /-- STUCK_WINDOW_EXPIRY (R394): A sampled channel has held one value for STUCK_WIN seconds, which sets its FE_STUCK bit. -/
  | stuckWindowExpiry (n p : Fin 8) (d : Fin 32)
  /-- CLK_IDLE_TIMEOUT (R385): After 1 ms without a selected state-mode clock edge on an armed or capturing bench, CLK_IDLE is set. -/
  | clkIdleTimeout (n : Fin 8)
  /-- SAMPLE_VECTOR (R413): The sequencer evaluates the bench's samples of one 8-tick window in tick order and stores them under store qualification. -/
  | sampleVector (n : Fin 8) (window : Nat) (pods : List PodInput)
  /-- OVERRUN_RESUME (R479): Once a quarter of the bobbin is free, storing resumes with a STAMP and a snapshot. -/
  | overrunResume (n : Fin 8)
  /-- SKEIN_BOUNDARY (R429): At an arm or a re-arm, the pending staged values apply and the sequencer restarts at level 0. -/
  | skeinBoundary (n : Fin 8)
  /-- SEGMENTED_REARM (R462): At START(k+1) = END(k) − SKN_PRE × 8 ticks, the A9 re-arms skein k+1 and a shared range begins. -/
  | segmentedRearm (n : Fin 8)
  /-- SKEIN_END (R461): A skein ends at its post-trigger limit, stop or full bobbin, and its header and descriptor are written. -/
  | skeinEnd (n : Fin 8)
  /-- PARITY_SCRUB (R203): At most every 1 ms, the scrubber checks every configuration register's hidden parity. -/
  | parityScrub (upsets : List Upset)
  /-- REGISTER_WRITE (R172): A normal-address write to a register that has no row of its own updates fields by class. -/
  | registerWrite (path : Path) (addr : BitVec 16) (data : Word)
  /-- CROSS_DOMAIN_ACCESS (R191): An access in 0x0_1000 to 0x0_1FFF stalls the register bus for up to 122 µs while it crosses domains. -/
  | crossDomainAccess (path : Path) (addr : BitVec 20) (data : Option Word)
  /-- SET_ALIAS_WRITE (R167): A write at the set view sets the field bits whose data bits are 1. -/
  | setAliasWrite (path : Path) (addr : BitVec 16) (data : Word)
  /-- CLEAR_ALIAS_WRITE (R167): A write at the clear view clears the field bits whose data bits are 1. -/
  | clearAliasWrite (path : Path) (addr : BitVec 16) (data : Word)
  /-- TOGGLE_ALIAS_WRITE (R167): A write at the toggle view inverts the field bits whose data bits are 1. -/
  | toggleAliasWrite (path : Path) (addr : BitVec 16) (data : Word)
  /-- ACCUMULATOR_LO_READ (R179): A read of a 64-bit LO word latches the HI word into a shadow for the reading path. -/
  | accumulatorLoRead (path : Path) (addr : BitVec 16)
  /-- ACCUMULATOR_LO_WRITE (R180): A write to a 64-bit LO word is held until the next HI write on the same path. -/
  | accumulatorLoWrite (path : Path) (addr : BitVec 16) (data : Word)
  /-- ACCUMULATOR_HI_WRITE (R180): A HI write applies any held LO write together with it in one cycle. -/
  | accumulatorHiWrite (path : Path) (addr : BitVec 16) (data : Word)
  /-- Q_WR_LO (R239): A write to Q_WR_LO holds the low half of a queue word per path. -/
  | qWrLo (path : Path) (q : Fin 66) (data : Word)
  /-- Q_WR_HI (R239): A write to Q_WR_HI pushes the word tagged DATA, or waits while stage 15 is occupied. -/
  | qWrHi (path : Path) (q : Fin 66) (data : Word)
  /-- Q_WR_HIM (R242): A write to Q_WR_HIM pushes the word tagged MARK and reserves a CMD queue's write side for the frame. -/
  | qWrHim (path : Path) (q : Fin 66) (data : Word)
  /-- QUEUE_PUSH_COMPLETE (R239): A push that waited for back-pressure completes when stage 15 empties. -/
  | queuePushComplete (q : Fin 68)
  /-- WLOCK_TIMEOUT (R242): After 50 ms without a push from the reserving path, the CMD write reservation is released. -/
  | wlockTimeout (q : Fin 66)
  /-- Q_RD_LO (R221): A read of Q_RD_LO delivers the word from stage 0, or the empty-behaviour word, and latches its shadows. -/
  | qRdLo (path : Path) (q : Fin 66)
  /-- QUEUE_FLUSH (R243): A write of FLUSH_KEY 0xF1 to Q_CTL discards every word and releases WLOCK. -/
  | queueFlush (path : Path) (q : Fin 66)
  /-- COMMAND_FRAME_TIMEOUT (R268): A later frame of a command does not arrive within 50 ms, so the command is discarded with TIMEOUT. -/
  | commandFrameTimeout (st : Stream)
  /-- CMD_DISCARDED (R309): Survo firmware discards a command frame that holds a POISON word and posts CMD_DISCARDED. -/
  | cmdDiscarded (st : Stream)
  /-- COMMAND_DEADLINE (R294): A command's deadline expires and it is stopped at its next indivisible step with TIMEOUT. -/
  | commandDeadline (st : Stream) (tag : BitVec 8) (elapsed : Nat)
  /-- RESPONSE_BACKLOG_WRITE (R280): A held response is written once the RSP queue has room, and the stream resumes. -/
  | responseBacklogWrite (st : Stream)
  /-- BENCH_OPEN (R322): Opens a bench session, or resumes a detached one with RESUME. -/
  | benchOpen (c : Cmd)
  /-- BENCH_CLOSE (R28): Closes a bench as a bench reset followed by release of the session. -/
  | benchClose (c : Cmd)
  /-- BENCH_RESET (R630): Starts a bench reset: the state becomes RESETTING, queues are flushed, jobs are ended and the skein in progress is discarded. -/
  | benchReset (c : Cmd)
  /-- BENCH_RESET_COMPLETE (R630): After issued programs complete, the account closes, fields are restored, the items of R297 are posted and the state becomes IDLE or CLOSED. -/
  | benchResetComplete (n : Fin 8)
  /-- BENCH_STATUS (R326): Returns BN_STATUS, BN_EVT_LOST, BN_OWN, BN_STAGE, BN_CTRL and the session counters. -/
  | benchStatus (c : Cmd)
  /-- CAPS_QUERY (R327): Returns the firmware version, the parameter registers, the UID, the limits and the opcode list. -/
  | capsQuery (c : Cmd)
  /-- ACCOUNTS_QUERY (R329): Returns a bench's account record, optionally final or restarted. -/
  | accountsQuery (c : Cmd)
  /-- BENCH_CONTROL_ENABLE (R335): BENCH_CONTROL ACTION 0b00 writes BN_CTRL.ENABLED of the target bench. -/
  | benchControlEnable (c : Cmd)
  /-- BENCH_CONTROL_RESET (R334): BENCH_CONTROL ACTION 0b01 performs a bench reset of the target bench. -/
  | benchControlReset (c : Cmd)
  /-- BENCH_CONTROL_CLOSE (R334): BENCH_CONTROL ACTION 0b10 closes the target bench. -/
  | benchControlClose (c : Cmd)
  /-- POD_ASSIGN (R338): Writes new pod ownership for every bench, removals first. -/
  | podAssign (c : Cmd)
  /-- PLY_MEMBERSHIP (R341): Stages a complete new bench and engine ply membership to apply at one rally boundary. -/
  | plyMembership (c : Cmd)
  /-- FE_SET_POD (R376): Stages a pod's threshold and hysteresis. -/
  | feSetPod (c : Cmd)
  /-- FE_SET_MODE (R378): Stages the bench's sampling rate, state mode, clock pod and edge. -/
  | feSetMode (c : Cmd)
  /-- FE_QUERY (R408): Returns FE_MODE, the pod settings and the valid masks. -/
  | feQuery (c : Cmd)
  /-- FE_HEALTH (R408): Returns a pod's overdrive, stuck, valid and retired channel bits. -/
  | feHealth (c : Cmd)
  /-- FE_HEALTH_TEST (R409): FE_HEALTH with TEST runs the loopback test on each of the pod's 32 channels before answering. -/
  | feHealthTest (c : Cmd) (fails : Word)
  /-- FE_DESKEW (R388): Stages a pod's per-pair deskew offsets. -/
  | feDeskew (c : Cmd)
  /-- TRG_SET_LEVEL (R452): Stages the conditions and control words of a range of trigger levels. -/
  | trgSetLevel (c : Cmd)
  /-- TRG_SET_RESOURCE (R452): Stages a word comparator, edge detector, counter limit, timer limit or TRG_CFG. -/
  | trgSetResource (c : Cmd)
  /-- TRG_QUERY (R453): Returns the sequencer state from one evaluated vector. -/
  | trgQuery (c : Cmd)
  /-- TRG_FORCE (R435): Forces a trigger at the first sample of the next evaluated vector. -/
  | trgForce (c : Cmd)
  /-- RELAY_ENABLE (R438): Stages a bench's relay DRIVE and OBSERVE enables. -/
  | relayEnable (c : Cmd)
  /-- CAP_ARM (R462): Arms a single or segmented capture on an IDLE bench. -/
  | capArm (c : Cmd)
  /-- CAP_STOP (R436): Stops the sequencer and ends the capture at the stop tick. -/
  | capStop (c : Cmd)
  /-- CAP_CONFIG (R463): Stages SKN_CFG, SKN_PRE and SKN_POST. -/
  | capConfig (c : Cmd)
  /-- SKN_LIST (R490): Returns descriptors of the bench's skeins from FIRST. -/
  | sknList (c : Cmd)
  /-- SKN_READ (R493): Sends a skein's bytes from the bobbin as DATA containers and completes later. -/
  | sknRead (c : Cmd)
  /-- SKN_DELETE (R494): Frees the bench's oldest skeins. -/
  | sknDelete (c : Cmd)
  /-- BOBBIN_LEND (R456): Sets the number of pool granules lent to a bench. -/
  | bobbinLend (c : Cmd)
  /-- CMP_CONFIG (R538): Stages the bench's compression method, stride, Rice parameter and autoflush. -/
  | cmpConfig (c : Cmd)
  /-- CMP_EXPORT (R522): Compresses one bobbin skein into staging and sends it on bulk IN. -/
  | cmpExport (c : Cmd)
  /-- CMP_VERIFY (R525): Decompresses every block of a streamed skein and checks it. -/
  | cmpVerify (c : Cmd)
  /-- CMP_FLUSH (R520): Ends the bench's stream block in progress. -/
  | cmpFlush (c : Cmd)
  /-- CMP_QUERY (R538): Returns the bench's compression configuration, state and counters. -/
  | cmpQuery (c : Cmd)
  /-- CMP_SN_FLUSH_WRITE (R520): A write of KEY 0xF5 to CMP_Sn_FLUSH ends the bench's block in progress. -/
  | cmpSnFlushWrite (path : Path) (n : Fin 8) (data : Word)
  /-- AUTOFLUSH_EXPIRY (R521): AUTOFLUSH ms after a block's first input byte, the block is flushed. -/
  | autoflushExpiry (n : Fin 8)
  /-- BLOCK_END (R499): An engine ends a compressed block at 64 KiB, the skein's last record, a flush or a stream stop. -/
  | blockEnd (e : Fin 4) (checkOk : Bool)
  /-- CMP_STREAM_STOP (R517): The lane writer cannot accept output, so the stream stops and undurable blocks are discarded. -/
  | cmpStreamStop (n : Fin 8) (cause : StopCause)
  /-- CMP_STREAM_RESUME (R519): Once its cause has gone, a stopped stream resumes after the last durable block. -/
  | cmpStreamResume (n : Fin 8)
  /-- SL_QUERY (R590): Returns the lane state, the bench's stream configuration and catalogue entries. -/
  | slQuery (c : Cmd)
  /-- SL_STREAM (R564): Sets the bench's lanes, ring mode and quota. -/
  | slStream (c : Cmd)
  /-- SL_READ (R590): Sends a streamed skein's header and blocks from NAND on bulk IN. -/
  | slRead (c : Cmd)
  /-- SL_FORMAT (R592): Erases every data and system hank of the named lanes, keeping the tables. -/
  | slFormat (c : Cmd)
  /-- SL_SCRUB (R590): Checks every in-use hank of the named lanes regardless of age. -/
  | slScrub (c : Cmd)
  /-- SL_BBT_READ (R590): Returns bad-block table entries of a lane. -/
  | slBbtRead (c : Cmd)
  /-- PAGE_PROGRAM_DONE (R563): A page program completes with pass status and is reported programmed, making blocks durable. -/
  | pageProgramDone (lane : Fin 2)
  /-- PROGRAM_STATUS_FAIL (R576): A program fails, so the hank is closed and the page is programmed into a new hank;
  or the next program of a copy of the lane's system records fails. -/
  | programStatusFail (fail : FailedProgram)
  /-- ERASE_STATUS_FAIL (R576): An erase fails, so the hank is not allocated and erase-and-verify follows. -/
  | eraseStatusFail (lane : Fin 2) (block : Nat)
  /-- UNCORRECTABLE_READ (R576): A page is still uncorrectable after two more reads, so the page is lost and the skein is marked DAMAGED. -/
  | uncorrectableRead (lane : Fin 2) (block : Nat) (read : Reread)
  /-- NAND_BUSY_TIMEOUT (R576): R/B# stays busy beyond its limit, so the operation is abandoned and a lane test runs. -/
  | nandBusyTimeout (lane : Fin 2) (op : NandOp) (block : Nat)
  /-- RETENTION_SCRUB (R572): After each entry to AWAKE and at READY, aged in-use hanks are read and relocated when weak;
  `pages` is what pages of the lane return by now. -/
  | retentionScrub (lane : Fin 2) (pages : List PageRead)
  /-- WEAR_LEVEL_RELOCATION (R569): Erase counts differ by more than WL_DELTA, so the least-worn in-use hank is relocated. -/
  | wearLevelRelocation (lane : Fin 2)
  /-- READ_DISTURB_RELOCATION (R570): A block's read count reaches RD_LIMIT × 1,000, so its hank is relocated. -/
  | readDisturbRelocation (lane : Fin 2) (block : Nat)
  /-- RELOCATION_COMPLETE (R573): Once every page of the new hank is programmed, the catalogue is updated and the old hank is freed. -/
  | relocationComplete (lane : Fin 2)
  /-- SEARCH_JOB (R624): Starts a pattern or sequence search over stored samples of the selected skeins. -/
  | searchJob (c : Cmd)
  /-- DECODE_JOB (R625): Starts a protocol decode of UART, SPI, I²C-bus or single-wire slot bus. -/
  | decodeJob (c : Cmd)
  /-- JOB_CANCEL (R644): Stops an engine job at the end of its current step so that it completes PARTIAL. -/
  | jobCancel (c : Cmd)
  /-- ENG_QUERY (R641): Returns engine status and the ply's configuration, levels and rates. -/
  | engQuery (c : Cmd)
  /-- PLY_CONFIG (R646): Stages a ply's rally length and the engines' rally or interleave modes. -/
  | plyConfig (c : Cmd)
  /-- REGULATOR_SET (R638): Stages a ply regulator's RATE and BURST. -/
  | regulatorSet (c : Cmd)
  /-- UMPIRE_CHOICE (R604): At the prefetch point, or when an engine is idle or its rally ended early, the Umpire chooses the engine's next job. -/
  | umpireChoice (e : Fin 9)
  /-- RALLY_EXPIRY (R603): A rally's time expires and the job is preempted at the end of the instruction in progress. -/
  | rallyExpiry (e : Fin 9) (contextOk : Bool)
  /-- JOB_BLOCKED_TIMEOUT (R602): A job has been blocked for 1 µs and its rally ends early. -/
  | jobBlockedTimeout (e : Fin 9)
  /-- JOB_STEP_END (R598): A job finishes a step, releases its results and, in interleave mode, reaches a rally boundary. -/
  | jobStepEnd (e : Fin 9)
  /-- REGULATOR_REFILL (R617): Every 1 µs, each regulator level rises by RATE up to BURST × 1,024. -/
  | regulatorRefill
  /-- IU_CONFIG (R656): Stores the bench's interval measurement configuration. -/
  | iuConfig (c : Cmd)
  /-- IU_MEASURE (R674): Starts REPEAT interval measurements for the bench. -/
  | iuMeasure (c : Cmd)
  /-- IU_CALIBRATE (R659): Runs a code-density calibration of all nine interpolators. -/
  | iuCalibrate (c : Cmd)
  /-- IU_QUERY (R686): Returns interval status and records, or a calibration table. -/
  | iuQuery (c : Cmd)
  /-- IU_SET_AGE (R666): Sets the crystal ageing rate and recomputes IU_CORR. -/
  | iuSetAge (c : Cmd)
  /-- IU_CTRL_GO (R651): Setting IU_CTRL.GO arms a measurement and starts the coarse count. -/
  | iuCtrlGo (path : Path)
  /-- IU_CTRL_CAL_GO (R664): Setting IU_CTRL.CAL_GO starts a calibration when no measurement is armed. -/
  | iuCtrlCalGo (path : Path)
  /-- IU_START_EDGE (R652): The first edge of START_SRC after the arm is time-stamped as START. -/
  | iuStartEdge (src : Fin 5) (falling : Bool) (coarse : Nat) (code : BitVec 10)
  /-- IU_STOP_EDGE (R652): An edge of a STOP source after START is recorded as a STOP, or counted LOST. -/
  | iuStopEdge (src : Fin 5) (falling : Bool) (coarse : Nat) (code : BitVec 10)
  /-- IU_MEASUREMENT_END (R655): NSTOP STOPs or the timeout end a measurement, which fills results, counts IU_MEAS and clears GO. -/
  | iuMeasurementEnd
  /-- IU_CALIBRATION_END (R660): An interpolator's calibration ends and its new table is accepted or rejected. -/
  | iuCalibrationEnd (hits : List Nat)
  /-- IU_TEMP_UPDATE (R665): Every 1 ms, IU_TEMP.TEMP is updated, and a 5 °C change sets CAL_DUE. -/
  | iuTempUpdate (temp : BitVec 8)
  /-- TW_CONFIG (R715): Stages the two-wire configuration, stretch limit, retry limit and back-off. -/
  | twConfig (c : Cmd)
  /-- TW_ALERT_READ (R720): Returns pending alerts of the target bench and removes them. -/
  | twAlertRead (c : Cmd)
  /-- TW_XFER (R721): Performs a two-wire controller write and read transfer. -/
  | twXfer (c : Cmd) (outs : List XferOut)
  /-- TW_QUERY (R719): Returns the two-wire configuration, status and counters. -/
  | twQuery (c : Cmd)
  /-- TW_ALERT_RD_LO_READ (R712): A read of TW_ALERT_RD_LO removes the next alert and returns its first bytes. -/
  | twAlertRdLoRead (path : Path)
  /-- CAL_SET (R813): Stages and commits a calendar value, answering after the commit takes effect. -/
  | calSet (c : Cmd)
  /-- CAL_GET (R814): Returns the calendar values latched from one AON tick. -/
  | calGet (c : Cmd)
  /-- CAL_COMMIT (R797): A write of KEY 0xCA commits the staged calendar values at the next AON tick if they are valid. -/
  | calCommit (path : Path) (data : Word)
  /-- CALENDAR_READ_LATCH (R802): A read of CAL_DATE or CAL_LIN_LO latches all calendar registers of one tick for the path. -/
  | calendarReadLatch (path : Path) (lin : Bool)
  /-- CALENDAR_DATE_CHANGE (R791): The calendar carries into a new date on an AON tick. -/
  | calendarDateChange
  /-- FLT_LIST (R787): Returns Referee log entries. -/
  | fltList (c : Cmd)
  /-- REF_INSERVICE (R786): Returns the retired-resource maps. -/
  | refInservice (c : Cmd)
  /-- REF_TEST (R759): Runs the Referee test of a named resource. -/
  | refTest (c : Cmd)
  /-- REF_RETURN (R771): Places a retired resource on probation and re-tests it. -/
  | refReturn (c : Cmd)
  /-- REF_TEST_CTL_GO (R786): Setting REF_TEST_CTL.GO is treated as REF_TEST of REF_TEST_RES. -/
  | refTestCtlGo (path : Path)
  /-- REFEREE_TEST_START (R754): The Referee starts the test of a waiting resource of a type that is free. -/
  | refereeTestStart (type : Fin 8)
  /-- REFEREE_VERDICT (R753): A Referee test ends with a let or a retire. -/
  | refereeVerdict (type : Fin 8) (pass : Bool)
  /-- SRAM_ECC (R762): A capture SRAM double-bit error raises SRAM_ECC, and a single-bit error is corrected. -/
  | sramEcc (bank : Fin 96) (double : Bool)
  /-- ENG_HANG (R752): An engine instruction does not end within 10 µs and is ended by force. -/
  | engHang (e : Fin 9)
  /-- RESOURCE_REJOIN (R771): A resource that passed its re-test rejoins at the boundary of its type. -/
  | resourceRejoin (res : Word)
  /-- RPL_RECORD (R819): Starts recording the named benches with a START mark and a snapshot. -/
  | rplRecord (c : Cmd)
  /-- RPL_RECORD_DELETE (R846): RPL_RECORD with DELETE set deletes a stored log. -/
  | rplRecordDelete (c : Cmd)
  /-- RPL_RUN (R826): Replays a log through the datapath and compares outputs. -/
  | rplRun (c : Cmd)
  /-- RPL_STATUS (R846): Returns the recorder or replay status and the first divergence. -/
  | rplStatus (c : Cmd)
  /-- RPL_STOP (R842): Stops recording, draining and ending the log, or stops a replay. -/
  | rplStop (c : Cmd)
  /-- REPLAY_LOG_PROGRAM (R822): The lane writer merges the RPL queues in TICK order and programs log pages. -/
  | replayLogProgram
  /-- RECORDER_GAP (R823): Once room returns after discarded entries, Mboron writes a GAP mark with the count. -/
  | recorderGap
  /-- REPLAY_INJECT (R839): At each replay tick, the injector applies the log entries of that tick in log order. -/
  | replayInject
  /-- REPLAY_MISSING (R836): Replay time passes a CHK entry's TICK by SLACK ms without its item, which is reported as MISSING. -/
  | replayMissing (source : Byte)
  /-- REPLAY_END (R838): The replay ends, registers and retired resources are restored, and RPL_RUN completes. -/
  | replayEnd
  /-- POWER_ENTER (R82): Accepts or refuses an entry to SLEEP or DOZE. -/
  | powerEnter (c : Cmd)
  /-- PWR_ENTER_WRITE (R81): In Open Bench mode, a write of KEY 0x5D to PWR_ENTER acts as POWER_ENTER. -/
  | pwrEnterWrite (path : Path) (data : Word)
  /-- POWER_ENTRY_START (R84): After the response is read or 5 ms pass, fast-domain state is saved and clocks and power are removed. -/
  | powerEntryStart
  /-- POWER_QUERY (R122): Returns the cached PWR_STATUS and wake values. -/
  | powerQuery (c : Cmd)
  /-- DST_SET_RULES (R122): Writes a range of Distaff rule words. -/
  | dstSetRules (c : Cmd)
  /-- DST_SET_INPUTS (R122): Writes DST_CTRL, thresholds, filters and limits. -/
  | dstSetInputs (c : Cmd)
  /-- DST_READ_LOG (R123): Returns up to six Distaff log entries from a start index. -/
  | dstReadLog (c : Cmd)
  /-- DST_READ_LOG_CONSUME (R124): DST_READ_LOG with CONSUME sets DST_LOG_RPTR to the returned next index. -/
  | dstReadLogConsume (c : Cmd)
  /-- DST_COUNTERS (R122): Writes masked Distaff counters and returns all four. -/
  | dstCounters (c : Cmd)
  /-- DST_LOG_RPTR_WRITE (R107): A software write to DST_LOG_RPTR is accepted only within the entries the ring holds. -/
  | dstLogRptrWrite (path : Path) (data : Word)
  /-- DISTAFF_EDGE_LATCH (R94): An edge on a watched channel sets its asynchronous rising or falling latch. -/
  | distaffEdgeLatch (w : Fin 16) (falling : Bool)
  /-- DISTAFF_TICK (R97): On each AON tick, Distaff forms tick values, filters them and evaluates every rule. -/
  | distaffTick (mv : List Int)
  /-- WAKE_TIMER_MATCH (R87): PWR_ATICK[31:0] reaches PWR_WAKE_AT with TIMER_EN set and the A9 wakes. -/
  | wakeTimerMatch
  /-- WAKE_COMPLETE (R90): The wake timeline reaches AWAKE, or DOZE for a DOZE-only wake, with state restored. -/
  | wakeComplete
  /-- ADMIN_OPEN (R342): Opens an administrator session, checking the credential when one is set. -/
  | adminOpen (c : Cmd)
  /-- ADMIN_CLOSE (R345): Ends the administrator session. -/
  | adminClose (c : Cmd)
  /-- ADMIN_SESSION_TIMEOUT (R345): 600 s without an administrator command ends the administrator session. -/
  | adminSessionTimeout
  /-- SET_CREDENTIAL (R348): Stores the hash of a new lab credential in the registers and the configuration record. -/
  | setCredential (c : Cmd)
  /-- SET_CREDENTIAL_CLEAR (R347): SET_CREDENTIAL with CLEAR set removes the credential and clears CRED_SET. -/
  | setCredentialClear (c : Cmd)
  /-- OPEN_BENCH_ENTER (R37): Enters Open Bench mode and posts OPEN_BENCH_CHANGED. -/
  | openBenchEnter (c : Cmd)
  /-- OPEN_BENCH_LEAVE (R350): Leaves Open Bench mode unless the strap holds it. -/
  | openBenchLeave (c : Cmd)
  /-- REG_LOG_READ (R355): Returns entries of the register-write ring. -/
  | regLogRead (c : Cmd)
  /-- REG_READ (R351): Reads up to 16 words on the Survo firmware path. -/
  | regRead (c : Cmd)
  /-- REG_WRITE (R354): Writes one word on the Survo firmware path and logs it. -/
  | regWrite (c : Cmd)
  /-- FW_LOAD_BEGIN (R358): Opens firmware staging for one boot copy in the bobbin pool. -/
  | fwLoadBegin (c : Cmd)
  /-- FW_LOAD_DATA (R360): Writes image bytes into staging at an offset. -/
  | fwLoadData (c : Cmd)
  /-- FW_LOAD_COMMIT (R361): Checks the staged image and programs and verifies it in its boot hank. -/
  | fwLoadCommit (c : Cmd) (programOk verifyOk : Bool)
  /-- PART_RESET (R366): After the response is read or 5 ms pass, causes a fast-domain reset with CAUSE 0x06. -/
  | partReset (c : Cmd)
  /-- SUPPLY_RISE (R57): The last required rail, VAON included, crosses its rising threshold and the start-up timeline begins at t = 0;
  or the USB rails are back. -/
  | supplyRise (rail : RisingRail)
  /-- JUNCTION_TRIP_RELEASE (R59): The junction falls below 110 °C and the TRIP reset ends, so the start-up timeline begins. -/
  | junctionTripRelease
  /-- QUEUE_WORD_FALL (R220): A written word falls through the chain and reaches stage 0, so EMPTY clears and stage 15 frees 75 ns after a read. -/
  | queueWordFall (q : Fin 68) (fall : QueueFall)
  /-- TW_BUS_STOP (R694): A STOP on the two-wire bus ends a transfer, turns an incomplete word into a narrow access and applies pending two-wire G fields. -/
  | twBusStop (partialBytes : List Byte)
  /-- USB_ENUMERATION (R725): The host issues standard or unsupported requests on endpoint 0, gets the descriptors, sets the address and configuration and may enable remote wakeup. -/
  | usbEnumeration (superSpeed : Bool) (req : CtlReq)
  /-- OVERDRIVE_END (R392): A channel's clamp current falls below the overdrive threshold and its FE_OVD bit clears. -/
  | overdriveEnd (p : Fin 8) (d : Fin 32)
  /-- EVENT_BACKLOG_WRITE (R281): Survo firmware writes event words held in the bench's backlog into the EVT queue once it has room. -/
  | eventBacklogWrite (n : Fin 8)
  /-- BAD_OPCODE_COMMAND (R269): A command frame with opcode 0x0000 or an opcode the capability report does not list is answered BAD_OPCODE. -/
  | badOpcodeCommand (opcode : BitVec 16) (c : Cmd)
  deriving DecidableEq, Repr

end Sys2Proof
end

