-- ==== Sys2Proof/Decode.lean ====
section
/-! DEFINITION. The command that a word of the opcode table's bits spells.  The A9's opcode table gives none of its rows
bits (the commands reach the A9 as events, register accesses and mailbox frames), so no word spells a command. -/

namespace Sys2Proof

/-- The command spelt by the `nbits` low bits `w`: none, since no row of the opcode table gives bits. -/
def decodeTableWord (_nbits _w : Nat) : Option Instr := none

end Sys2Proof
end

