-- ==== Sys2Proof/Config.lean ====
section
/-! DEFINITION. What the spec leaves open and what it takes from standards it does not restate: constants without a body,
so that no proof can lean on a value of them. -/

namespace Sys2Proof.Config

/-- The free value drawn at count `k`: a value the spec leaves open, one fresh value for each count.
The field `State.free` of the model is the count.  DESIGN CHOICE (log entry 2). -/
opaque freeValue : Nat → Nat

/-- Ed25519 verification: public key, signature, signed bytes (R134).  PRESUMED (log entry 3). -/
opaque ed25519Verify : List Byte → List Byte → List Byte → Bool

/-- The BCH parity bytes of one 1,024-byte codeword (R549): the spec gives the code's strength and size and not its
generator.  DESIGN CHOICE (log entry 4). -/
opaque bchParity : List Byte → List Byte

/-- The stride that a CMP_Sn_CFG.STRIDE of 9 to 15 selects, from 1 to 8: the register description gives 0 and 1 to 8 only.
DESIGN CHOICE (log entry 5). -/
opaque oddStride : Nat → Nat

/-- Whether a calibration value that is no whole number of 1/256 ps is rounded up: R661 gives the unit and no rounding.
DESIGN CHOICE (log entry 6). -/
opaque roundsUp : Nat → Nat → Bool

end Sys2Proof.Config
end

