-- ==== Sys2Proof/Machine/Bits.lean ====
section
/-! DEFINITION. Bit fields, little-endian byte and word conversions, and the CRC-32C of the A9's formats. -/

namespace Sys2Proof.Machine

/-- A word from a number, keeping its low 32 bits. -/
def W (n : Nat) : Word := BitVec.ofNat 32 n

/-- The number in bits [hi:lo] of a word (R8). -/
def fld (w : Word) (hi lo : Nat) : Nat := w.toNat / 2 ^ lo % 2 ^ (hi + 1 - lo)

/-- Bit `b` of a word. -/
def bitB (w : Word) (b : Nat) : Bool := w.toNat.testBit b

/-- A word with ones in bits [hi:lo]. -/
def maskW (hi lo : Nat) : Word := W ((2 ^ (hi + 1 - lo) - 1) * 2 ^ lo)

/-- The word with `v` in bits [hi:lo]. -/
def setFld (w : Word) (hi lo v : Nat) : Word :=
  (w &&& ~~~ maskW hi lo) ||| (W (v * 2 ^ lo) &&& maskW hi lo)

/-- 1 for true, 0 for false. -/
def bN (b : Bool) : Nat := if b then 1 else 0

/-- A word made of (value, lowest bit) parts that do not overlap. -/
def pack (ps : List (Nat × Nat)) : Word := W (ps.foldr (fun p acc => p.1 * 2 ^ p.2 + acc) 0)

/-- `v + n`, held at `m` (a saturating counter). -/
def satAdd (m v n : Nat) : Nat := min m (v + n)

/-- The low and the high word of a number, low word first (R178). -/
def lohi (n : Nat) : List Word := [W n, W (n / 2 ^ 32)]

/-- A 64-bit number from its low and high words. -/
def ofLoHi (lo hi : Word) : Nat := lo.toNat + hi.toNat * 2 ^ 32

/-- The bits of a number set at the positions in a list. -/
def bitsOf (l : List Nat) : Nat := l.foldr (fun b acc => acc ||| 2 ^ b) 0

/-- The positions of the ones among the low `n` bits of a number, lowest first. -/
def onesBelow (n v : Nat) : List Nat := (List.range n).filter fun b => v.testBit b

/-- The number of ones of a word. -/
def popcount (w : Word) : Nat := (onesBelow 32 w.toNat).length

/-- The value of the low `n` bits read as two's complement. -/
def signed (n v : Nat) : Int :=
  let m := v % 2 ^ n
  if m < 2 ^ (n - 1) then (m : Int) else (m : Int) - (2 ^ n : Nat)

/-- The low `n` bits of an integer in two's complement. -/
def unsigned (n : Nat) (i : Int) : Nat := (i % (2 ^ n : Nat)).toNat

/-! ### Bytes and words -/

/-- The `k` bytes of a number, low byte first (R7). -/
def leBytes : Nat → Nat → List Byte
  | 0, _ => []
  | k + 1, v => BitVec.ofNat 8 v :: leBytes k (v / 256)

/-- The number that bytes spell, low byte first (R7). -/
def leNat : List Byte → Nat
  | [] => 0
  | b :: t => b.toNat + 256 * leNat t

/-- The bytes of words, low byte first (R7). -/
def bytesOfWords (ws : List Word) : List Byte := ws.flatMap fun w => leBytes 4 w.toNat

/-- Words from bytes, the last one filled with zero bytes (R7). -/
def wordsOfBytes : List Byte → List Word
  | [] => []
  | [a] => [W (leNat [a])]
  | [a, b] => [W (leNat [a, b])]
  | [a, b, c] => [W (leNat [a, b, c])]
  | a :: b :: c :: d :: t => W (leNat [a, b, c, d]) :: wordsOfBytes t

/-- The bytes of a queue word (R224). -/
def bytesOfDWord (d : DWord) : List Byte := leBytes 8 d.toNat

/-- A queue word from its low and high halves (R224). -/
def dword (lo hi : Word) : DWord := hi ++ lo

/-- The low half of a queue word. -/
def DWord.lo (d : DWord) : Word := W d.toNat

/-- The high half of a queue word. -/
def DWord.hi (d : DWord) : Word := W (d.toNat / 2 ^ 32)

/-- Pad a list with `v` up to length `n`. -/
def padTo {α : Type} (n : Nat) (v : α) (l : List α) : List α := l ++ List.replicate (n - l.length) v

/-- The `i`-th word of a list, 0 past its end. -/
def wordAt (ws : List Word) (i : Nat) : Word := ws.getD i 0

/-- The XOR of bytes (R142, R708). -/
def xorBytes (bs : List Byte) : Byte := bs.foldl (· ^^^ ·) 0

/-! ### CRC-32C -/

/-- One bit of the reflected CRC-32C division (polynomial 0x1EDC6F41, R502). -/
def crcBit (c : BitVec 32) : BitVec 32 :=
  if c.getLsbD 0 then (c >>> 1) ^^^ 0x82F63B78 else c >>> 1

/-- One byte of the CRC-32C division. -/
def crcByte (c : BitVec 32) (b : Byte) : BitVec 32 :=
  crcBit <| crcBit <| crcBit <| crcBit <| crcBit <| crcBit <| crcBit <| crcBit (c ^^^ b.zeroExtend 32)

/-- CRC-32C of bytes: initial value and final XOR all ones (R502). -/
def crc32c (bs : List Byte) : Word := ~~~ (bs.foldl crcByte 0xFFFFFFFF)

/-- Insert into a list kept in increasing order of a key, after its equals. -/
def insertBy {α : Type} (key : α → Nat) (x : α) : List α → List α
  | [] => [x]
  | y :: t => if key x < key y then x :: y :: t else y :: insertBy key x t

/-- Stable sort by a key, smallest first. -/
def sortBy {α : Type} (key : α → Nat) (l : List α) : List α := l.foldl (fun acc x => insertBy key x acc) []

end Sys2Proof.Machine
end

