-- ==== Sys2Proof/Machine/Store.lean ====
section
/-! DEFINITION. The sparse store: a list of (key, value) pairs in one canonical form (keys strictly rising, no entry
equal to what an unlisted key reads as), with one read and one write.  Every array of the A9 (the registers, the
benches, the queues, the log rings, the NAND pages) is such a store, so that equal contents are equal data. -/

namespace Sys2Proof.Machine

/-- A sparse array: the entries that differ from the default, in rising key order. -/
abbrev Store (α : Type) := List (Nat × α)

/-- The value at key `k`: the listed one, else the default. -/
def Store.get {α : Type} (d : Nat → α) : Store α → Nat → α
  | [], k => d k
  | e :: t, k => if e.1 = k then e.2 else Store.get d t k

/-- The store without key `k`. -/
def Store.erase {α : Type} (m : Store α) (k : Nat) : Store α :=
  m.filter fun e => decide (e.1 ≠ k)

/-- The store with an entry for `k` before the first larger key. -/
def Store.ins {α : Type} : Store α → Nat → α → Store α
  | [], k, v => [(k, v)]
  | e :: t, k, v => if k < e.1 then (k, v) :: e :: t else e :: Store.ins t k v

/-- Write `v` at `k`; writing the default removes the entry. -/
def Store.put {α : Type} [DecidableEq α] (d : Nat → α) (m : Store α) (k : Nat) (v : α) : Store α :=
  if v = d k then Store.erase m k else Store.ins (Store.erase m k) k v

/-- The canonical form: keys strictly rising, no entry equal to the default. -/
def Store.wf {α : Type} [DecidableEq α] (d : Nat → α) (m : Store α) : Bool :=
  decide ((m.map Prod.fst).Pairwise (· < ·)) && m.all fun e => decide (e.2 ≠ d e.1)

/-- The store with every key for which `p` fails taken out (its default is then read). -/
def Store.keep {α : Type} (p : Nat → Bool) (m : Store α) : Store α :=
  m.filter fun e => p e.1

/-- Write `f k (old k)` at every listed key `k`. -/
def Store.update {α : Type} [DecidableEq α] (d : Nat → α) (f : Nat → α → α) (m : Store α) : Store α :=
  m.foldr (fun e acc => let v := f e.1 e.2; if v = d e.1 then acc else (e.1, v) :: acc) []

end Sys2Proof.Machine
end

