-- ==== Sys2Proof/Machine/State.lean ====
section
/-! DEFINITION. The state of the A9: every register, queue, buffer, counter, mode and pin the spec gives it, as plain
data, and the first-in first-out queue of waiting commands.

Registers are held in two sparse stores keyed by normal address: `regs` (the stored C, A and pending G fields, R172) and
`act` (the G values in effect, R171).  S and H fields are read from the typed parts below. -/

namespace Sys2Proof.Machine

/-! ### The part -/

/-- The family member (R2, R857). -/
inductive Member where
  | a1 | a3 | a5 | a7 | a9
  deriving DecidableEq, Repr

/-- What is fixed at manufacture: the member, the stepping and the fuses.  No command changes it (R10). -/
structure Part where
  /-- GLB_PARAM2.MEMBER (R2). -/
  member : Member := .a9
  /-- GLB_PARAM2.STEP. -/
  step : BitVec 8 := 1
  /-- The board supplies VUSB33 and VUSB08 (R54). -/
  usbSupplied : Bool := true
  /-- GLB_UID (R144). -/
  uid : BitVec 64 := 0
  /-- USB_ID.VID (R725). -/
  vid : BitVec 16 := 0
  /-- The firmware key hash in fuses (R134). -/
  keyHash : List Byte := []
  /-- IU_TRIM, signed ppb (R666). -/
  iuTrim : Word := 0
  /-- IU_TRIM_DAY (R666). -/
  iuTrimDay : Nat := 0
  /-- IU_AGE_DEF, signed ppb per year (R668). -/
  iuAgeDef : Word := 0
  /-- ACC_COEFe as (OPA, OPB), e = 0 to 8 (R621). -/
  coefEng : List (Nat × Nat) :=
    [(700, 520), (700, 520), (700, 520), (700, 520), (600, 650), (600, 650), (450, 480), (450, 480), (900, 900)]
  /-- ACC_COEF_PATHk, k = 0 to 3 (R621). -/
  coefPath : List Nat := [4, 30, 22, 55]
  deriving DecidableEq, Repr

/-! ### Queues -/

/-- The two-bit tag of a queue word (R224). -/
inductive Tag where
  | data | idle | poison | mark
  deriving DecidableEq, Repr

/-- One stored queue word: data, tag and the stored parity bit (R219, R224). -/
structure QWord where
  data : DWord
  tag : Tag
  par : Bool
  deriving DecidableEq, Repr

/-- The idle word 0x1D1E_0000_0000_0000 with tag IDLE (R235, R238); the stored parity bit of a word that is delivered and
never stored is taken as 0. -/
def QWord.idle : QWord := ⟨0x1D1E000000000000, .idle, false⟩

/-- Who pushes a word into a queue (R218, R239). -/
inductive Producer where
  | path (p : Path)
  | bulkOut
  | unit
  deriving DecidableEq, Repr

/-- One fall-through chain (R219 to R242). -/
structure Queue where
  /-- The occupied stages from stage 0 up: the number of each and its word (R219, R220). -/
  stages : List (Nat × QWord) := []
  /-- Pushes that met an occupied stage 15, oldest first (R239). -/
  waiting : List (Producer × QWord) := []
  /-- The word HOLD mode repeats (R236, R238). -/
  held : QWord := QWord.idle
  /-- Q_STATUS.UNDERRUN (R237). -/
  underrun : Bool := false
  /-- Q_STATUS.TESTING (R229). -/
  testing : Bool := false
  /-- The words saved for the march test (R229). -/
  saved : List QWord := []
  /-- Q_STATUS.RETIRED (R230). -/
  retired : Bool := false
  /-- WLOCK: the reserving path and how many further words it may still push (R242). -/
  wlock : Option (Path × Nat) := none
  deriving DecidableEq, Repr

/-! ### The register window -/

/-- What the register window keeps for one access path. -/
structure PathState where
  /-- Values latched by the path's latest LO read, by address (R179, R224, R802). -/
  shadow : List (Nat × Word) := []
  /-- LO words held for the next HI write, by LO address (R180, R239). -/
  heldLo : List (Nat × Word) := []
  /-- The words the path's latest access returned. -/
  data : List Word := []
  /-- The path's latest access was reported as a bus error (R195). -/
  error : Bool := false
  deriving DecidableEq, Repr

/-- One entry of the register-write ring (R303, R354). -/
structure WriteEntry where
  addr : Nat
  path : Path
  data : Word
  tick : Nat
  deriving DecidableEq, Repr

/-! ### Power, clocks and start-up -/

/-- The power states (R80). -/
inductive PState where
  | off | sleep | doze | awake
  deriving DecidableEq, Repr

/-- Sources of a wake, coded as PWR_STATUS.LAST_WAKE (R87, R111). -/
inductive WakeSource where
  | powerOn | distaff | timer | twoWire | usb
  deriving DecidableEq, Repr

/-- Clocks, power states and supply monitors. -/
structure Power where
  state : PState := .awake
  /-- The fast domain is held in reset (R57, R126, R129). -/
  fastReset : Bool := false
  /-- NRESET is low (R126). -/
  nresetLow : Bool := false
  /-- The junction TRIP reset holds until 110 °C (R59). -/
  trip : Bool := false
  /-- PWR_ATICK, 48 bits (R78). -/
  atick : Nat := 0
  /-- The base-tick counter, 56 bits (R79, R804). -/
  baseTick : Nat := 0
  /-- Eighths of a base tick carried to the next return to AWAKE (R79). -/
  eighths : Nat := 0
  /-- AON ticks counted since the fast clocks stopped (R79). -/
  elapsed : Nat := 0
  /-- PWR_WAKE_BT (R79). -/
  wakeBt : Nat := 0
  /-- PWR_WAKE_ATICK (R79). -/
  wakeAtick : Nat := 0
  /-- PWR_STATUS.LAST_WAKE (R89). -/
  lastWake : WakeSource := .powerOn
  /-- PWR_STATUS.PREV_STATE; `awake` stands for no wake yet (R89). -/
  prevState : PState := .awake
  /-- PWR_STATUS.WAKE_RULE (R89). -/
  wakeRule : Nat := 0
  /-- PWR_STATUS.REFUSED (R86). -/
  refused : Bool := false
  /-- An accepted entry that has not started yet: its target (R83). -/
  entry : Option PState := none
  /-- A K write to PWR_ENTER held one deep until the entry under way has ended (R176). -/
  entryHeld : Option PState := none
  /-- A wake under way and the state it leads to (R90, R112). -/
  waking : Option PState := none
  /-- PWR_ATICK of the wake decision (R111). -/
  wakeTick : Nat := 0
  /-- ARM actions that take effect at AWAKE: bench and rule (R101). -/
  arms : List (Nat × Nat) := []
  /-- BOBBIN_RET as it stood when SLEEP was entered (R92). -/
  bobbinRet : Bool := false
  /-- GLB_SUPPLY.TJ (R59). -/
  tj : BitVec 8 := 0
  /-- GLB_SUPPLY.HOT (R59, R73). -/
  hot : Bool := false
  /-- GLB_SUPPLY.VBUS (R63). -/
  vbus : Bool := false
  /-- GLB_SUPPLY.USB_RAILS (R59). -/
  usbRails : Bool := false
  /-- VUSB33 or VUSB08 has fallen below its falling threshold and not risen since (R59). -/
  usbLow : Bool := false
  /-- SLA_WP_N and SLB_WP_N low, every chip enable high (R60). -/
  writeProtect : Bool := false
  deriving DecidableEq, Repr

/-- PHASE of the boot-status block (R131, R142); `none` before the boot ROM runs. -/
inductive Phase where
  | none | rom | fwStart | bbt | pods | ready | recovery | failed
  deriving DecidableEq, Repr

/-- A firmware image that passes every check of R134: the magic, version 3.0 and the shortest body. -/
def ImageView.shipped : ImageView := ⟨true, true, 0x4F525653, 0x00030000, 4, true, true⟩

/-- Start-up: the boot-status block, the boot copies and the recovery image. -/
structure Boot where
  phase : Phase := .none
  /-- PWR_BOOT0.CAUSE (R125). -/
  cause : BitVec 8 := 1
  /-- PWR_BOOT0.FLAGS (R142). -/
  flags : BitVec 8 := 0
  /-- PWR_BOOT0.ERROR (R143). -/
  error : BitVec 8 := 0
  /-- PWR_BOOT1.FW_MAJOR, FW_MINOR and MEMBER (R142). -/
  fwMajor : BitVec 8 := 0
  fwMinor : BitVec 8 := 0
  memberByte : BitVec 8 := 0
  /-- GLB_STRAPS, sampled at the release of reset (R51). -/
  straps : Straps := ⟨false, false, 0⟩
  /-- The images in boot hanks 0 and 1 of SLA (R132). -/
  copyA : ImageView := ImageView.shipped
  copyB : ImageView := ImageView.shipped
  /-- The running copy is B (FLAGS bit 2). -/
  runningB : Bool := false
  /-- The failed copy has been rewritten since the last start (R359). -/
  rewritten : Bool := false
  /-- VERSION and BUILD of the running firmware (R134, R327). -/
  version : Word := 0
  build : Word := 0
  /-- The quiet period has ended (R144). -/
  quietOver : Bool := false
  /-- The BBT step has ended (R131). -/
  bbtDone : Bool := false
  /-- Pod discovery has ended (R145). -/
  podsDone : Bool := false
  /-- Recovery image bytes in Survo SRAM (R136). -/
  recovery : Store Byte := []
  /-- The boot-status bytes latched for the latest transfer (R141). -/
  statusOut : List Byte := []
  deriving DecidableEq, Repr

/-- The Distaff watcher (R93 to R109). -/
structure Distaff where
  /-- Comparator levels at the previous tick (R94). -/
  level : BitVec 16 := 0
  /-- Asynchronous rising and falling latches (R94). -/
  rise : BitVec 16 := 0
  fall : BitVec 16 := 0
  /-- The last eight tick values of channel w, bit 0 the newest (R95). -/
  history : Store (BitVec 8) := []
  /-- DST_LVL.LEVEL (R95). -/
  filtered : BitVec 16 := 0
  /-- Counters that software has written since the last tick: the writes fall on the next one (R113). -/
  written : List Nat := []
  /-- DST_LOG_WPTR, 13 bits (R105). -/
  wptr : Nat := 0
  /-- SEQ of the next log entry (R104). -/
  seq : BitVec 8 := 0
  /-- The log ring of 4,096 entries in AON SRAM (R104, R107). -/
  log : Store DWord := []
  deriving DecidableEq, Repr

/-- The calendar clock (R791 to R814). -/
structure Calendar where
  /-- Year − 2000, 0 to 199. -/
  year : Nat := 0
  month : Nat := 1
  day : Nat := 1
  hour : Nat := 0
  minute : Nat := 0
  second : Nat := 0
  /-- Sub-second in 1/32,768 s. -/
  sub : Nat := 0
  /-- CAL_STATUS.SET, BADDATE and WRAP (R799, R800). -/
  set : Bool := false
  badDate : Bool := false
  wrap : Bool := false
  /-- CAL_BT (R803), and the eighths of a base tick beyond it. -/
  bt : Nat := 0
  btFrac : Nat := 0
  /-- A commit that is checked on the next AON tick (R797). -/
  commit : Bool := false
  /-- The staged date, time and sub-second as the commit under way found them (R807). -/
  staged : Option (Word × Word × Word) := none
  /-- A second commit held one deep (R176, R808). -/
  commitHeld : Bool := false
  /-- The CAL_SET that is answered once the commit has taken effect (R813). -/
  answer : Option Cmd := none
  /-- A date change Survo firmware has not yet acted on (R809). -/
  dateChanged : Bool := false
  deriving DecidableEq, Repr

/-! ### Benches -/

/-- Bench states, coded as BN_STATUS.STATE (R25). -/
inductive BenchState where
  | closed | idle | armed | capturing | resetting | halted
  deriving DecidableEq, Repr

/-- The bench reset or close in progress (R297, R630). -/
structure ResetJob where
  /-- The reset ends in CLOSED. -/
  close : Bool
  /-- The command that asked for it, with its opcode. -/
  by_ : Option (BitVec 16 × Cmd)
  /-- ACCEPTED commands the reset ends (R298). -/
  ended : Nat
  /-- A command of the stream that had been taken and waited for its fence: the reset interrupts it (R297). -/
  fenced : Option (BitVec 16 × Cmd)
  deriving DecidableEq, Repr

/-- The session of one bench (R25 to R32, R281, R287). -/
structure Session where
  state : BenchState := .closed
  /-- BN_STATUS.DETACHED (R30). -/
  detached : Bool := false
  /-- BN_STATUS.TRANSPORT (R322). -/
  transport : Transport := .usb
  /-- CLIENT (R321). -/
  client : BitVec 16 := 0
  /-- SEQ of the next event (R287). -/
  seq : BitVec 8 := 0
  /-- Event words in Survo SRAM, oldest first (R281). -/
  backlog : List DWord := []
  /-- SESSION, kept in the AON SRAM retention image (R581). -/
  session : Nat := 0
  reset : Option ResetJob := none
  /-- Commands that arrived while RESETTING, answered after it (R246, R297). -/
  late : List (BitVec 16 × Cmd) := []
  /-- BN_STAGE.PARITY (R206). -/
  parity : Bool := false
  /-- The window awaits the restoration of R210. -/
  restoreDue : Bool := false
  deriving DecidableEq, Repr

/-- The trigger sequencer of one bench (R411 to R441). -/
structure Sequencer where
  /-- TRG_STATUS.LEVEL, SEEN, STORE, RUNNING, TRIGGERED. -/
  level : Nat := 0
  seen : Bool := false
  store : Bool := false
  running : Bool := false
  triggered : Bool := false
  /-- TRG_CNT0 to TRG_CNT3. -/
  counts : List Nat := [0, 0, 0, 0]
  /-- Start tick of each running timer (R427). -/
  timers : List (Option Nat) := [none, none]
  /-- TRG_TMR0 and TRG_TMR1: elapsed at the last evaluated sample. -/
  elapsed : List Nat := [0, 0]
  /-- TRG_TRIG (R431). -/
  trig : Nat := 0
  /-- TRG_FORCE asked for a trigger (R435); the asking command is answered with the tick. -/
  force : Option Cmd := none
  /-- The bench's previous sample as stored values (R420, R421). -/
  prev : Option (List Word) := none
  /-- Relay raises the bench has still to observe: line and window (R439). -/
  relay : List (Nat × Nat) := []
  deriving DecidableEq, Repr

/-! ### Skeins -/

/-- What a skein holds, in storing order: its stored samples, as the words of the eight pods, and its markers.  The record
formats of R471 and R474 are encodings of this list. -/
inductive Item where
  | sample (tick : Nat) (words : List Word) (shared : Bool)
  | marker (type tick arg : Nat) (shared : Bool)
  deriving DecidableEq, Repr

/-- END codes of a skein (R470). -/
inductive EndCode where
  | complete | stopped | trunc | full
  deriving DecidableEq, Repr

/-- One skein: what its header, its descriptor and its records hold (R470, R481). -/
structure Skein where
  num : Nat := 0
  start : Nat := 0
  endTick : Nat := 0
  trig : Option Nat := none
  trigLevel : Nat := 0
  forced : Bool := false
  code : EndCode := .complete
  headShared : Bool := false
  tailShared : Bool := false
  /-- OVLP in windows of 8 ticks. -/
  ovlp : Nat := 0
  /-- CAL and CAL_VALID. -/
  cal : Nat := 0
  calValid : Bool := false
  /-- The channel-valid mask of each pod (R391). -/
  mask : List Word := []
  rate : Nat := 0
  stateMode : Bool := false
  transition : Bool := false
  /-- CMP_Sn_CFG in effect at the skein boundary (R496, R534). -/
  cmpCfg : Word := 0
  streamed : Bool := false
  /-- OFFSET in the bobbin, in 64-byte units (R481). -/
  offset : Nat := 0
  items : List Item := []
  /-- 64-bit words of its records that read as 8 zero bytes (R764). -/
  holes : List Nat := []
  /-- A copy of the shared head, which lies in the data of the skein before, and its bytes as they are stored there (R464, R493). -/
  head : List Item := []
  headData : List Byte := []
  /-- The planned END, once the trigger has fixed it (R461, R462). -/
  due : Option Nat := none
  /-- Bytes of records that have left the bobbin in durable stream blocks (R515). -/
  released : Nat := 0
  /-- The host has read it to its end: SKN_READ or CMP_EXPORT has sent its last byte (R82). -/
  hostRead : Bool := false
  deriving DecidableEq, Repr

/-- The capture of one bench (R455 to R494). -/
structure Capture where
  /-- The skein in progress. -/
  cur : Option Skein := none
  /-- The next skein, re-armed inside the shared range (R462). -/
  next : Option Skein := none
  /-- Completed skeins held in the bobbin, oldest first. -/
  kept : List Skein := []
  /-- Number of the next skein (R459). -/
  nextNum : Nat := 0
  /-- Skeins completed in the running segmented capture (R462). -/
  completed : Nat := 0
  /-- A skein boundary that is due: its tick, and whether it is a re-arm (R184). -/
  boundary : Option (Nat × Bool) := none
  /-- SKN_STATUS.OVR (R479). -/
  ovr : Bool := false
  /-- Inside a gap: storage is off or suspended since its marker (R477). -/
  inGap : Bool := false
  /-- Channel markers to be written at the next sample: type and ARG (R477). -/
  marks : List (Nat × Nat) := []
  /-- TEST markers not yet written: the start of the test, and ARG, which gets its duration with the verdict (R397, R477). -/
  tests : List (Nat × Nat) := []
  /-- Lent granules (SKN_BOB.LENT) and banks of the bobbin retired (R765). -/
  lent : Nat := 0
  lostBanks : Nat := 0
  /-- Bytes reserved in the bobbin for export staging (R522). -/
  staging : Nat := 0
  /-- Bytes held while a bank of the bobbin is under test (R763); `none` while none is. -/
  bankTest : Option Nat := none
  /-- FE_STATUS.CLK_OVER and CLK_IDLE (R384, R385). -/
  clkOver : Bool := false
  clkIdle : Bool := false
  /-- State mode waits for the first selected edge after the boundary at which CLKPOD names an owned pod (R386). -/
  clkLost : Bool := false
  /-- The last selected clock edge in state mode, in ps (R384). -/
  lastEdge : Option Int := none
  /-- Tick of the last sample evaluated, and the channels, by pod, that changed value in its window (R404). -/
  lastTick : Nat := 0
  changed : List Word := []
  /-- The next sample is recorded with one SMP entry for every owned pod (R821). -/
  smpAll : Bool := false
  deriving DecidableEq, Repr

/-- A released block (R497), or the header that follows a skein's LAST block (R562), on its way to NAND. -/
structure Block where
  skein : Nat
  index : Nat
  inOff : Nat
  inLen : Nat
  last : Bool
  /-- The 64-byte header of the skein. -/
  isHeader : Bool
  bytes : Nat
  /-- Where its bytes lie: page SEQ, first byte and length, in order. -/
  parts : List (Nat × Nat × Nat)
  /-- SEQs of its pages that are not programmed yet (R516). -/
  wait : List Nat
  deriving DecidableEq, Repr

/-- A place in a bench's stream: skein, bytes of its records before it, BLOCK of the next block. -/
structure StreamPos where
  skein : Nat := 0
  inOff : Nat := 0
  index : Nat := 0
  deriving DecidableEq, Repr

/-- States of a compression stream (R517). -/
inductive StreamState where
  | idle | running | stopped
  deriving DecidableEq, Repr

/-- The compression stream of one bench and its lane writer (R515 to R521, R561 to R566). -/
structure CmpStream where
  state : StreamState := .idle
  cause : Option StopCause := none
  /-- ENGINE: engine of the latest block. -/
  engine : Nat := 0
  /-- Where the next block starts, and where the durable blocks end (R516, R519). -/
  pos : StreamPos := {}
  dur : StreamPos := {}
  /-- The next block is the first after a resumption. -/
  resumed : Bool := false
  /-- Ends of blocks that a flush has fixed, in bytes of the skein's records (R520). -/
  cuts : List Nat := []
  /-- Blocks and headers that are released and not durable yet, oldest first (R516). -/
  released : List Block := []
  /-- The lane writer's page buffer (R561), its place (lane and key) once it has one, and the SEQ of its page (R552). -/
  page : List Byte := []
  slot : Option (Nat × Nat) := none
  pageSeq : Nat := 0
  /-- Full pages that wait for the regulator, oldest first: lane, key, SEQ and bytes. -/
  queued : List (Nat × Nat × Nat × List Byte) := []
  /-- The open hank: lane and hank. -/
  openHank : Option (Nat × Nat) := none
  /-- The lane of the latest hank (R564). -/
  lastLane : Option Nat := none
  /-- Parts of the durable blocks of the skein being streamed, and their bytes. -/
  parts : List (Nat × Nat × Nat) := []
  bytes : Nat := 0
  /-- Those of the blocks that hold bytes of its shared tail (R464, R494). -/
  tail : List (Nat × Nat × Nat) := []
  deriving DecidableEq, Repr

/-- A DATA container waiting on a bulk IN endpoint (R730, R732). -/
structure DataItem where
  tag : BitVec 8
  bytes : List Byte
  last : Bool
  /-- The completion to post once the LAST container has been sent: opcode, status code and ARG (R732). -/
  done : Option (BitVec 16 × BitVec 8 × Nat)
  /-- Export staging bytes freed with it (R522). -/
  staging : Nat
  /-- The skein that the host has read to its end once this LAST container is sent (R82). -/
  read : Option Nat
  /-- It is what is left of a container that CLEAR_FEATURE has cut short (R750). -/
  rest : Bool := false
  deriving DecidableEq, Repr

/-- A container as sent to the host (R730). -/
structure Container where
  kind : Nat
  tag : BitVec 8
  poison : Bool
  last : Bool
  payload : List Byte
  deriving DecidableEq, Repr

/-- One endpoint pair of the USB unit (R726 to R735). -/
structure Endpoint where
  /-- The words of an OUT frame that is not complete yet (R727, R728). -/
  partialOut : List Word := []
  /-- DATA containers not yet sent. -/
  data : List DataItem := []
  /-- The RSP frames (1) and EVT words (2) in the endpoint's queues, in the order they entered them (R733). -/
  order : List Nat := []
  /-- The container sent last. -/
  sent : Option Container := none
  /-- What is left of a RSP or EVT container that CLEAR_FEATURE has cut short (R750). -/
  rest : Option Container := none
  deriving DecidableEq, Repr

/-! ### Streams, jobs and engines -/

/-- An ACCEPTED command without a completion event (R275, R276). -/
structure Accepted where
  op : BitVec 16
  tag : BitVec 8
  /-- Bytes of DATA sent so far (R741). -/
  sent : Nat
  /-- The command was taken from a replay log (R827). -/
  replayed : Bool
  deriving DecidableEq, Repr

/-- What Survo firmware keeps for one command stream (R271 to R284). -/
structure CmdStream where
  /-- Words collected from the CMD queue. -/
  rx : List QWord := []
  /-- Response words not yet written (R280). -/
  held : List QWord := []
  outstanding : List Accepted := []
  /-- A FENCE command that waits (R278). -/
  fence : Option (BitVec 16 × Cmd) := none
  /-- The TAGs outstanding when word 0 of the command at the head of `rx` was taken (R307). -/
  tags : List (BitVec 8) := []
  /-- An ACCEPTED command whose response is not wholly written yet, with its completion, status code and ARG, once it has ended (R306). -/
  acking : Option (BitVec 16 × BitVec 8 × Option (BitVec 8 × Nat)) := none
  /-- Commands taken from the stream (R816). -/
  taken : Nat := 0
  /-- Queue words of whole frames that had arrived at READY and have not been answered yet (R148, R159). -/
  early : Nat := 0
  /-- Completion events of an admin stream not yet sent (R249, R250). -/
  events : List DWord := []
  /-- SEQ of the admin stream's next event (R287). -/
  seq : BitVec 8 := 0
  deriving DecidableEq, Repr

/-- The kinds of engine work (R594). -/
inductive JobKind where
  | stream
  | exportJob (skein : Nat) (cfg : Word) (outMax : Nat)
  /-- CMP_VERIFY: the first failing block found so far (R525). -/
  | verify (session skein : Nat) (fail : Option Nat)
  | search (payload : List Word)
  | decode (payload : List Word)
  | measure (left done : Nat)
  | calibrate
  deriving DecidableEq, Repr

/-- Where a job stands (R603). -/
inductive JobState where
  | ready | running (e : Nat)
  deriving DecidableEq, Repr

/-- One engine job (R594 to R612). -/
structure Job where
  id : Nat
  bench : Nat
  stream : Stream
  tag : BitVec 8
  kind : JobKind
  state : JobState
  /-- Its context is saved in Survo SRAM, by this engine (R613). -/
  saved : Option Nat := none
  /-- The job waits for the verdict of a test of this resource (R513, R762, "Engines and register banks"). -/
  await : Option Word := none
  /-- The input of a search or decode job, in order: skein, record bytes and item. -/
  input : List (Nat × Nat × Item) := []
  /-- Progress: steps done. -/
  step : Nat := 0
  /-- Bytes of results staged. -/
  out : List Byte := []
  /-- Result records or bytes sent. -/
  sent : Nat := 0
  /-- Bytes of the skein's records that the engine had taken when the stream job was preempted last (R520). -/
  taken : Nat := 0
  /-- Stop at the end of the current step: JOB_CANCEL or a deadline (R294, R644). -/
  stop : Option (BitVec 8 × Nat) := none
  deriving DecidableEq, Repr

/-- One shared engine (R594, R613). -/
structure Engine where
  job : Option Nat := none
  bank : Bool := false
  /-- The Umpire's choice for the next rally, once made: a job number, or to idle (R604). -/
  chosen : Option (Option Nat) := none
  /-- UMP choices since the engine's last UMP entry that kept its job (R817). -/
  keep : Nat := 0
  deriving DecidableEq, Repr

/-- The Umpire (R604 to R608) and the regulators' levels (R617). -/
structure Umpire where
  jobs : List Job := []
  nextJob : Nat := 0
  /-- Rotation pointer of ply y and kind k at key 4 × y + k (R604). -/
  ptr : Store Nat := []
  /-- L of ply y, path k at key 3 × y + k, signed (R617). -/
  levels : Store Int := []
  /-- The energy of each bench below one µJ, in pJ (R622). -/
  energy : Store Nat := []
  /-- The final account record of each bench, as the words 2 to 18 of R329. -/
  final : Store (List Word) := []
  deriving DecidableEq, Repr

/-! ### Storage lanes -/

/-- States of a lane, coded as SL_Lx_STATUS.STATE. -/
inductive LaneState where
  | absent | initialising | ready | retired | probation | unfit
  deriving DecidableEq, Repr

/-- What a hank holds (R546, R548). -/
inductive HankOwner where
  | free | bench (n : Nat) | log (l : Nat)
  deriving DecidableEq, Repr

/-- One data hank (R548, R567 to R572). -/
structure Hank where
  owner : HankOwner := .free
  erases : Nat := 0
  /-- Pages handed out since its erase, in page order across its good blocks (R547). -/
  pages : Nat := 0
  closed : Bool := false
  /-- Day of the last retention check, counted from 2000-01-01. -/
  checkDay : Nat := 0
  /-- Blocks to be tested before the hank is next allocated, with their fault codes (R576). -/
  suspects : List (Nat × Nat) := []
  deriving DecidableEq, Repr

/-- One programmed page: its tag (R552) and its valid main-area bytes. -/
structure NandPage where
  type : Nat
  bench : Nat
  fill : Nat
  seq : Nat
  session : Nat
  data : List Byte
  /-- Its bytes are wrong as read: the page is lost (R576). -/
  lost : Bool := false
  /-- What its codewords return when they are read; empty while every one is sound (R553, R554). -/
  words : List Codeword := []
  deriving DecidableEq, Repr

/-- A page program that has been issued (R563): its place, hank × 4,096 + page number within the hank, its page, and whether it is part
of the multi-plane program of the one issued before it (R547). -/
structure Issued where
  key : Nat
  page : NandPage
  joined : Bool := false
  deriving DecidableEq, Repr

/-- One storage lane (R541 to R580). -/
structure Lane where
  state : LaneState := .absent
  geom : Geometry := ⟨0, 0, 0, 0, 0, 0, false⟩
  ceUsed : BitVec 4 := 0
  nvddr2 : Bool := false
  mode : Nat := 0
  /-- The fastest SDR and NV-DDR2 modes that every chip enable in use reports (R544, R551). -/
  fastSdr : Nat := 0
  fastDdr : Option Nat := none
  hanks : Store Hank := []
  /-- The bad-block table: (BLOCK, ORIGIN) in increasing BLOCK order, and GEN (R557). -/
  bad : List (Nat × Nat) := []
  gen : Nat := 0
  /-- The two stored copies of the table, in system hanks 2 and 3; `none` where a copy is not valid (R546, R557 to R559). -/
  tableA : Option TableCopy := none
  tableB : Option TableCopy := none
  /-- The copies of the system records whose next program fails, as a mask. -/
  sysFail : Nat := 0
  /-- Pages by hank × 4,096 + page number within the hank. -/
  pages : Store NandPage := []
  issued : List Issued := []
  /-- Hanks queued for relocation, and the relocation under way: (old, new). -/
  relocate : List Nat := []
  moving : Option (Nat × Nat) := none
  /-- Block page-read counts since the last erase (R570). -/
  reads : Store Nat := []
  deriving DecidableEq, Repr

/-- A skein catalogue entry (R562, R581). -/
structure CatEntry where
  bench : Nat
  session : Nat
  skein : Nat
  /-- Where the blocks lie, in BLOCK order, and then the header: page SEQ, first byte and length. -/
  parts : List (Nat × Nat × Nat)
  bytes : Nat
  damaged : Bool
  header : List Byte
  /-- The descriptor of its END, for SKN_LIST (R481, R490). -/
  desc : List DWord
  /-- The parts that hold its shared tail; none where it has no TAIL_SHARED (R464, R494). -/
  tail : List (Nat × Nat × Nat)
  deriving DecidableEq, Repr

/-- The shared tail of a deleted skein, kept with the skein whose head it is (R494). -/
structure KeptTail where
  bench : Nat
  session : Nat
  /-- The number of the skein it is kept for. -/
  keeper : Nat
  parts : List (Nat × Nat × Nat)
  deriving DecidableEq, Repr

/-- An SL_READ whose pages wait for the tokens of the NAND path (R590, R617). -/
structure LaneRead where
  bench : Nat
  tag : BitVec 8
  session : Nat
  skein : Nat
  /-- The parts still to be read: page SEQ, first byte and length. -/
  left : List (Nat × Nat × Nat)
  bytes : List Byte := []
  /-- No page so far was uncorrectable. -/
  good : Bool := true
  deriving DecidableEq, Repr

/-- A configuration record ("Bad-block tables", R348, R581). -/
structure ConfRecord where
  gen : Nat := 0
  /-- The hash of the credential; `none` while CRED_SET is 0. -/
  hash : Option (List Byte) := none
  sessions : Store Nat := []
  deriving DecidableEq, Repr

/-- What both lanes share: the catalogue, the scrub, the configuration record. -/
structure Storage where
  catalogue : List CatEntry := []
  /-- Tails of deleted skeins that a kept skein shares (R494). -/
  tails : List KeptTail := []
  /-- Lanes whose retention scrub is due, as a mask (R572). -/
  scrubDue : Nat := 0
  /-- An SL_SCRUB that runs: its stream and tag, the lanes left, the hanks relocated (R590). -/
  scrubBy : Option (Stream × BitVec 8 × Nat × Nat) := none
  /-- The scrub and the relocations are suspended for a power entry (R585). -/
  suspended : Bool := false
  /-- The SL_READs in progress, oldest first. -/
  reads : List LaneRead := []
  /-- The two copies of the configuration record on SLA; `none` where a copy is not valid (R348, R546, R558). -/
  recordA : Option ConfRecord := none
  recordB : Option ConfRecord := none
  deriving DecidableEq, Repr

/-! ### Interval unit -/

/-- One recorded event of a measurement (R657). -/
structure IuEvent where
  src : Nat
  falling : Bool
  interp : Nat
  code : Nat
  coarse : Nat
  deriving DecidableEq, Repr

/-- States of the interval unit, coded as IU_STATUS.STATE; reporting takes no time of its own in the model. -/
inductive IuState where
  | idle | waitStart | collecting | calibrating
  deriving DecidableEq, Repr

/-- The interval unit (R648 to R689). -/
structure Interval where
  state : IuState := .idle
  /-- Bench of the measurement; `none` when none. -/
  bench : Option Nat := none
  /-- A GO, and a calibration, that wait for R664. -/
  goPending : Bool := false
  calPending : Bool := false
  /-- Calibration tables: entry 1,024 × interpolator + code (R661). -/
  tables : Store Word := []
  /-- Interpolators calibrated since the tables were lost. -/
  done : List Nat := []
  calFail : Bool := false
  calDue : Bool := false
  ageStale : Bool := false
  /-- IU_TEMP.TEMP and CAL_TEMP. -/
  temp : BitVec 8 := 0
  calTemp : BitVec 8 := 0
  /-- Base tick at the arm, and CORR in effect at the arm (R651, R658). -/
  armTick : Nat := 0
  corr : Int := 0
  start : Option IuEvent := none
  /-- Recorded STOPs, in the order of their edges. -/
  stops : List IuEvent := []
  late : Nat := 0
  lost : Nat := 0
  chLost : Bool := false
  stale : Bool := false
  /-- Records of the last completed measurement, 4 words each (R669), and the last ones of each bench. -/
  results : List (List Word) := []
  byBench : Store (List (List Word)) := []
  /-- The interpolator being calibrated, and the first one rejected. -/
  calNext : Nat := 0
  calRejected : Option Nat := none
  /-- Bench configurations: IU_CFG, IU_TMO_LO, IU_TMO_HI (R656). -/
  configs : Store (Word × Word × Word) := []
  deriving DecidableEq, Repr

/-! ### Two-wire, USB, Referee, replay, firmware -/

/-- A pending alert (R706, R708). -/
structure Alert where
  pri : Nat
  src : Nat
  bench : Nat
  id : BitVec 8
  code : Nat
  arg : BitVec 8
  deriving DecidableEq, Repr

/-- States of the alert state machine, coded as TW_STATUS.CSTATE (R709). -/
inductive CState where
  | idle | sending | wait | backoff | last | parked
  deriving DecidableEq, Repr

/-- The two-wire bus interface (R690 to R721). -/
structure TwoWire where
  /-- The 20-bit register pointer (R693, R697). -/
  pointer : Nat := 0
  cstate : CState := .idle
  retries : Nat := 0
  alerts : List Alert := []
  nextId : BitVec 8 := 0
  /-- The alert being sent. -/
  sending : Option Alert := none
  /-- The A9 is controller of the current transfer (TW_STATUS.CTRL). -/
  ctrl : Bool := false
  /-- The bus is between START and STOP (TW_STATUS.BUSY). -/
  busy : Bool := false
  /-- The bytes of the latest alert message (R708). -/
  message : List Byte := []
  stuck : Bool := false
  retired : Bool := false
  /-- A word write stretched and not yet performed (R698, R699). -/
  stretched : Option (Nat × Word) := none
  /-- Every later byte of the transfer is NACKed (R696). -/
  nacking : Bool := false
  /-- The latest byte was acknowledged. -/
  ack : Bool := false
  /-- A word of the present read transfer has been read (R696). -/
  reading : Bool := false
  /-- TW_XFERs that wait for the back-off to end (R716), and the bytes the last one read (R719). -/
  xfers : List (Cmd × List XferOut) := []
  xferRead : List Byte := []
  deriving DecidableEq, Repr

/-- Link states, coded as USB_STATUS.LINK. -/
inductive Link where
  | detached | highSpeed | superSpeed | suspended
  deriving DecidableEq, Repr

/-- The USB host link (R722 to R750). -/
structure Usb where
  link : Link := .detached
  /-- The speed to return to after suspend. -/
  speed : Link := .highSpeed
  addr : BitVec 7 := 0
  fsReject : Bool := false
  pullup : Bool := false
  /-- SS_DIS as it stood at the attach, or a failed SuperSpeed training (R723). -/
  hsOnly : Bool := false
  enumerated : Bool := false
  remoteWakeup : Bool := false
  /-- The A9 is signalling remote wakeup (R745). -/
  signalling : Bool := false
  /-- The latest request on endpoint 0 was stalled. -/
  stall : Bool := false
  /-- The data stage last sent on endpoint 0. -/
  ctlData : List Byte := []
  /-- A REG_WRITE NAKed because a push of its waits: the address and the data of its next words (R239, R739). -/
  request : Option (Nat × List Word) := none
  endpoints : Store Endpoint := []
  deriving DecidableEq, Repr

/-- Referee verdicts (R774). -/
inductive Verdict where
  | let_ | retire | rejoined
  deriving DecidableEq, Repr

/-- One test that waits or runs (R754): the resource, the fault code, whether a command asked for it, whether it is
the re-test of a return, and the command to complete. -/
structure RefTest where
  res : Word
  code : Nat
  /-- Base tick at which the test started; 0 while it waits. -/
  started : Nat := 0
  requested : Bool
  retest : Bool
  by_ : Option (BitVec 16 × Stream × BitVec 8)
  /-- DETAIL of the TIMEOUT with which the command completes: its deadline has expired during the test (R294, R790). -/
  late : Option Nat
  deriving DecidableEq, Repr

/-- The Referee (R751 to R790). -/
structure Referee where
  /-- Waiting tests, in order of detection. -/
  waiting : List RefTest := []
  /-- Running tests, at most one per type. -/
  running : List RefTest := []
  /-- Retired resources, with the fault code of the retire. -/
  retired : List (Word × Nat) := []
  probation : List Word := []
  /-- Retired resources that have passed their re-test and wait for their boundary (R771). -/
  rejoining : List Word := []
  /-- Let times by resource, latest first (R757, R758). -/
  lets : List (Word × List Nat) := []
  /-- The ring of 256 entries, and the count of entries written. -/
  log : Store (List Word) := []
  written : Nat := 0
  /-- REF_STATUS.FAULTED and the fault code (R767). -/
  faulted : Option Nat := none
  /-- REF_TEST_CTL: GO and RESULT (R786). -/
  go : Bool := false
  result : Nat := 0
  /-- Channels held at a value by a loopback test: channel and value (R397). -/
  held : List (Nat × Bool) := []
  /-- Channels whose last test ended in a let and whose value has not changed since (R396). -/
  quiet : List Nat := []
  /-- Channels for which the stuck-at monitor has asked for a test that still waits, each with the base tick (R404). -/
  asked : List (Nat × Nat) := []
  /-- Benches whose job has failed its self-check on an engine under test (R512). -/
  selfchecks : List (Word × Nat) := []
  deriving DecidableEq, Repr

/-- One Mboron log entry (R815). -/
structure LogEntry where
  tick : Nat
  type : Nat
  nib : Nat
  body : DWord
  deriving DecidableEq, Repr

/-- A stored replay log (R847); its entries lie in its pages on the lanes. -/
structure RplLog where
  num : Nat
  benches : BitVec 8
  deriving DecidableEq, Repr

/-- States of Mboron, coded as RPL_STATUS.STATE. -/
inductive RplState where
  | idle | recording | replaying | stopping
  deriving DecidableEq, Repr

/-- What RPL_RUN saves and the end of the replay restores (R826, R833): registers outside the bench windows, the set of retired
resources, and the skein catalogue, to which a replay adds nothing that lies in NAND. -/
structure RplSaved where
  regs : List (Nat × Word) := []
  act : List (Nat × Word) := []
  retired : List (Word × Nat) := []
  retained : List (Word × Nat) := []
  catalogue : List CatEntry := []
  deriving DecidableEq, Repr

/-- Mboron (R815 to R849). -/
structure Mboron where
  state : RplState := .idle
  logs : List RplLog := []
  /-- LOG of the recording or replay. -/
  log : Nat := 0
  nextLog : Nat := 0
  /-- Entries staged for the lane writer, and the 4 KiB recorder buffer with the bench of the RPL queue each entry goes to (R822,
  R823). -/
  staged : List LogEntry := []
  buffer : List (Nat × LogEntry) := []
  /-- Pages of the log programmed so far, and its open hank: lane and hank (R822). -/
  pages : Nat := 0
  openHank : Option (Nat × Nat) := none
  /-- Entries discarded since the last GAP mark. -/
  gapCount : Nat := 0
  gapSeen : Bool := false
  diverged : Bool := false
  tick : Nat := 0
  divTick : Nat := 0
  divKind : Nat := 0
  divSource : Nat := 0
  divWord : Nat := 0
  /-- Replay: entries still to be injected, and CHK entries still unmatched. -/
  todo : List LogEntry := []
  checks : List LogEntry := []
  /-- The log breaks off at an uncorrectable page (R836); the replay has reached END or UNTIL. -/
  logBad : Bool := false
  ended : Bool := false
  /-- Words of the items of each SOURCE so far (R836). -/
  words : Store Nat := []
  /-- Items produced while the entries of one tick are applied: SOURCE, COUNT and CRC (R839). -/
  injecting : Bool := false
  items : List (Nat × Nat × Word) := []
  /-- The RPL_RUN to complete. -/
  by_ : Option (Stream × BitVec 8) := none
  /-- CMD words handed to Survo firmware, by stream, and the commands it is told to take (R816). -/
  rx : Store (List QWord) := []
  takes : List (Nat × BitVec 16 × BitVec 8) := []
  /-- Umpire choices to make: engine, bench and job; and the recorded number of each job of the replay (R816). -/
  choices : List (Nat × Nat × Nat) := []
  jobMap : List (Nat × Nat) := []
  /-- Resources that REF entries of the present tick name, and those on which an error has arisen (R834, R835). -/
  refsNow : List Word := []
  seen : List Word := []
  /-- Words of interval records from the log, by bench (R675). -/
  iur : Store (List Word) := []
  /-- The register whose pending snapshot value was the last entry (R819). -/
  snap : Option Nat := none
  saved : RplSaved := {}
  /-- The status with which the replay ends (R838). -/
  outcome : Option (BitVec 8) := none
  deriving DecidableEq, Repr

/-- Firmware staging for FW_LOAD (R357 to R364). -/
structure Staging where
  copyB : Bool
  size : Nat
  bytes : Store Byte
  deriving DecidableEq, Repr

/-- A FW_LOAD_COMMIT in progress (R361 to R364). -/
structure CommitJob where
  stream : Stream
  tag : BitVec 8
  crc : Word
  /-- What the NAND does in steps 3 and 4. -/
  programOk : Bool
  verifyOk : Bool
  /-- Steps 1 and 2 have passed: step 3 has begun (R362). -/
  writing : Bool := false
  deriving DecidableEq, Repr

/-- Survo firmware: administration, caches and records. -/
structure Firmware where
  /-- The administrator session's transport (R344). -/
  admin : Option Transport := none
  /-- The hash of the lab credential; `none` while CRED_SET is 0 (R342, R348). -/
  credHash : Option (List Byte) := none
  /-- The base tick until which every ADMIN_OPEN is refused (R343). -/
  lockUntil : Nat := 0
  /-- Open Bench mode is in effect (R36, R37). -/
  openMode : Bool := false
  staging : Option Staging := none
  /-- The commit that takes its steps on the staged image (R361, R371). -/
  commit : Option CommitJob := none
  /-- The streams that have had their turn in the present round of the rotation (R272). -/
  served : List Nat := []
  /-- An OPEN_BENCH_CHANGED that follows the responses of the commands already taken (R310). -/
  openPost : Option Bool := none
  /-- A POD_ASSIGN that is answered once every value is in effect (R338). -/
  assign : Option Cmd := none
  /-- The register-write ring, oldest first, and the writes entered (R303, R355). -/
  writes : List WriteEntry := []
  writesEntered : Nat := 0
  /-- PART_RESET has been answered (R366): its stream, and the base tick at which 5 ms have passed. -/
  partReset : Option (Stream × Nat) := none
  /-- IU_SET_AGE value in the AON SRAM retention image (R668). -/
  age : Option Word := none
  /-- The set of retired resources in the retention image (R768). -/
  retained : List (Word × Nat) := []
  /-- Base tick of the last OVERDRIVE event of each pod (R393). -/
  ovdTick : Store Nat := []
  /-- Channels with an overdrive onset since the last OVERDRIVE event. -/
  ovdNew : List Nat := []
  deriving DecidableEq, Repr

/-- One pod (R399, R400): presence, identity and EEPROM trim. -/
structure Pod where
  present : Bool := false
  ident : Bool := false
  /-- The identity read: type and serial bytes. -/
  id : List Byte := []
  /-- Deskew trim per channel pair, signed, 10 ps units. -/
  trim : List Byte := []
  /-- What the 32 data comparators and that of Pp_CLK last gave (R376, R377). -/
  comp : Word := 0
  clkComp : Bool := false
  /-- A trim read since the last skein boundary of the owning bench, to be used from the next one (R400). -/
  nextTrim : Option (List Byte) := none
  /-- FE_OVD: clamp current above the threshold (R392). -/
  ovd : Word := 0
  /-- FE_STUCK (R394). -/
  stuck : Word := 0
  deriving DecidableEq, Repr

/-! ### The whole state -/

/-- A register copy in which stored bits have flipped since it was last written (R202). -/
structure Corrupt where
  addr : Nat
  /-- The in-effect copy of the register's G fields, not its stored word. -/
  inEffect : Bool
  /-- The word as it was written, which is Survo firmware's record of it (R207, R210). -/
  word : Word
  /-- Flips so far: the hidden parity bit disagrees while their number is odd. -/
  flips : Nat
  /-- The mismatch has been found and raised. -/
  found : Bool
  deriving DecidableEq, Repr

/-- The state of the A9. -/
structure State where
  part : Part := {}
  /-- Stored register fields by normal address: C, A and pending G (R172). -/
  regs : Store Word := []
  /-- G values in effect (R171). -/
  act : Store Word := []
  /-- Register copies with flipped bits (R202). -/
  badParity : List Corrupt := []
  /-- GLB_PARITY.ADDR and GLB_BUSERR (R205, R196). -/
  parityAddr : Nat := 0
  busErr : Word := 0
  paths : Store PathState := []
  queues : Store Queue := []
  power : Power := {}
  boot : Boot := {}
  distaff : Distaff := {}
  cal : Calendar := {}
  sessions : Store Session := []
  seqs : Store Sequencer := []
  caps : Store Capture := []
  cmps : Store CmpStream := []
  pods : Store Pod := []
  streams : Store CmdStream := []
  engines : Store Engine := []
  umpire : Umpire := {}
  lanes : Store Lane := []
  storage : Storage := {}
  iu : Interval := {}
  tw : TwoWire := {}
  usb : Usb := {}
  ref : Referee := {}
  rpl : Mboron := {}
  fw : Firmware := {}
  /-- The MODEL's own field, not the spec's: how many free values have been drawn. -/
  free : Nat := 0
  /-- Commands that wait, first in first out. -/
  pending : List Instr := []
  deriving DecidableEq, Repr

/-- The machine right after reset: a cold reset of an A9 whose fast-domain reset has just been released, the straps
sampled low, no bench open and nothing pending (R852).  Every field stands at the default written beside it above. -/
def State.reset : State := {}

/-! ### The reasons a step can stop -/

/-- The model stops with no fault: the spec names no event of the A9 that ends the machine.  Every error the spec describes
is an effect on `State` (a bus error, a status code, an error flag, a Referee test). -/
inductive Fault where
  deriving DecidableEq, Repr

/-- Why a command has no meaning in the model. -/
inductive Refusal where
  /-- Raised by an arm of `exec` whose command has no meaning yet; safe: a refused command changes nothing and no claim
  about its effect can be proved. -/
  | notModelled (mnemonic : String)
  deriving DecidableEq, Repr

end Sys2Proof.Machine
end

