-- ==== Sys2Proof/Machine/RegTable.lean ====
section
/-! DEFINITION. The register index: every register of the A9 with its normal address, its instances, its fields and their
classes, and the reset value of its stored fields (R851, R852, R854 and the "Registers" sections of the chapters).  The
rows of this file name the 2,607 registers that GLB_PARAM3.REG_COUNT counts. -/

namespace Sys2Proof.Machine

/-- The class of a field (R172). -/
inductive Cls where
  | c | g | s | a | h | k
  deriving DecidableEq, Repr

/-- A field: its class and its bits [hi:lo]. -/
structure RField where
  cls : Cls
  hi : Nat
  lo : Nat
  deriving DecidableEq, Repr

/-- One row of the register index: the normal address of its first register, the (count, stride) of its index letters,
and its fields.  Bits in no field are reserved (R9). -/
structure RegRow where
  base : Nat
  dims : List (Nat × Nat)
  fields : List RField
  deriving DecidableEq, Repr

/-- The registers by name, one constructor per row of the register index.  A row's index letters are the two numbers of
`Reg`; the third letter of FE_DSKp_j is folded in (j = 4 × p + j) and GLB_AQC_ and GLB_AQR_ are indices 0 and 1 of one row. -/
inductive RegName where
  /-- GLB_PARAM0 (R2, R857). -/
  | glbParam0
  /-- GLB_PARAM1 (R2, R857). -/
  | glbParam1
  /-- GLB_PARAM2 (R2, R857). -/
  | glbParam2
  /-- GLB_PARAM3 (R2, R857). -/
  | glbParam3
  /-- GLB_MODE (R17, R36). -/
  | glbMode
  /-- GLB_STRAPS (R51, R852). -/
  | glbStraps
  /-- GLB_SUPPLY (R59). -/
  | glbSupply
  /-- GLB_UID_LO (R144, R852). -/
  | glbUidLo
  /-- GLB_UID_HI (R144, R852). -/
  | glbUidHi
  /-- GLB_REGCTL (R193). -/
  | glbRegctl
  /-- GLB_BUSERR (R196, R197). -/
  | glbBuserr
  /-- GLB_BUSERR_CNT (R196). -/
  | glbBuserrCnt
  /-- GLB_PARITY (R205). -/
  | glbParity
  /-- GLB_STAGE (R188). -/
  | glbStage
  /-- GLB_POOL (R455, R457). -/
  | glbPool
  /-- GLB_AQ_CTL (R247, R243). -/
  | glbAqCtl
  /-- GLB_AQ_STATUS (R247, R222). -/
  | glbAqStatus
  /-- GLB_AQ_WR_LO (R247, R239). -/
  | glbAqWrLo
  /-- GLB_AQ_WR_HI (R247, R239). -/
  | glbAqWrHi
  /-- GLB_AQ_WR_HIM (R247, R239). -/
  | glbAqWrHim
  /-- GLB_AQ_RD_LO (R247, R221). -/
  | glbAqRdLo
  /-- GLB_AQ_RD_HI (R247, R224). -/
  | glbAqRdHi
  /-- GLB_AQ_RD_TAG (R247, R224). -/
  | glbAqRdTag
  /-- GLB_AQ_CNT (R247, R260). -/
  | glbAqCnt
  /-- CAL_DATE (R791). -/
  | calDate
  /-- CAL_TIME (R791). -/
  | calTime
  /-- CAL_SUB (R791). -/
  | calSub
  /-- CAL_LIN_LO (R796). -/
  | calLinLo
  /-- CAL_LIN_HI (R796). -/
  | calLinHi
  /-- CAL_BT_LO (R803). -/
  | calBtLo
  /-- CAL_BT_HI (R803). -/
  | calBtHi
  /-- CAL_SET_DATE (R797, R183). -/
  | calSetDate
  /-- CAL_SET_TIME (R797, R183). -/
  | calSetTime
  /-- CAL_SET_SUB (R797, R183). -/
  | calSetSub
  /-- CAL_COMMIT (R797). -/
  | calCommit
  /-- CAL_STATUS (R795, R799, R800). -/
  | calStatus
  /-- PWR_CTRL (R80, R87). -/
  | pwrCtrl
  /-- PWR_ENTER (R81). -/
  | pwrEnter
  /-- PWR_STATUS (R86, R89). -/
  | pwrStatus
  /-- PWR_WAKE_AT (R87). -/
  | pwrWakeAt
  /-- PWR_ATICK_LO (R78, R121). -/
  | pwrAtickLo
  /-- PWR_ATICK_HI (R78, R121). -/
  | pwrAtickHi
  /-- PWR_WAKE_BT_LO (R79, R121). -/
  | pwrWakeBtLo
  /-- PWR_WAKE_BT_HI (R79, R121). -/
  | pwrWakeBtHi
  /-- PWR_WAKE_ATICK (R79). -/
  | pwrWakeAtick
  /-- PWR_BOOT0 (R125, R142). -/
  | pwrBoot0
  /-- PWR_BOOT1 (R142). -/
  | pwrBoot1
  /-- DST_CTRL (R105, R106). -/
  | dstCtrl
  /-- DST_THR (R93). -/
  | dstThr
  /-- DST_FILT (R95, R96). -/
  | dstFilt
  /-- DST_RULE (R97, R98). -/
  | dstRule
  /-- DST_CNT (R100). -/
  | dstCnt
  /-- DST_LIM (R97). -/
  | dstLim
  /-- DST_LVL (R95). -/
  | dstLvl
  /-- DST_LOG_WPTR (R105). -/
  | dstLogWptr
  /-- DST_LOG_RPTR (R107). -/
  | dstLogRptr
  /-- DST_LOG_LOST (R105, R106). -/
  | dstLogLost
  /-- DST_LOG_RIDX (R107). -/
  | dstLogRidx
  /-- DST_LOG_RD_LO (R107, R116). -/
  | dstLogRdLo
  /-- DST_LOG_RD_HI (R107, R116). -/
  | dstLogRdHi
  /-- BN_CTRL (R27, R193). -/
  | bnCtrl
  /-- BN_STATUS (R25, R30). -/
  | bnStatus
  /-- BN_EVT_LOST (R31). -/
  | bnEvtLost
  /-- BN_OWN (R12, R20). -/
  | bnOwn
  /-- BN_STAGE (R187, R206). -/
  | bnStage
  /-- FE_MODE (R378, R381). -/
  | feMode
  /-- FE_CTRL (R394, R395). -/
  | feCtrl
  /-- FE_STATUS (R384, R385, R386, R400). -/
  | feStatus
  /-- FE_POD (R376, R377). -/
  | fePod
  /-- FE_DSK (R388). -/
  | feDsk
  /-- FE_VALID (R390). -/
  | feValid
  /-- FE_OVD (R392). -/
  | feOvd
  /-- FE_STUCK (R394). -/
  | feStuck
  /-- FE_OVDCNT (R392). -/
  | feOvdcnt
  /-- TRG_CFG (R429). -/
  | trgCfg
  /-- TRG_STATUS (R430, R431). -/
  | trgStatus
  /-- TRG_RELAY_EN (R438, R439). -/
  | trgRelayEn
  /-- TRG_TRIG_LO (R431, R450). -/
  | trgTrigLo
  /-- TRG_TRIG_HI (R431, R450). -/
  | trgTrigHi
  /-- TRG_CNT_LIM (R417). -/
  | trgCntLim
  /-- TRG_CNT (R424). -/
  | trgCnt
  /-- TRG_TMR_LIM_LO (R417). -/
  | trgTmrLimLo
  /-- TRG_TMR_LIM_HI (R417). -/
  | trgTmrLimHi
  /-- TRG_TMR_LO (R427, R450). -/
  | trgTmrLo
  /-- TRG_TMR_HI (R427, R450). -/
  | trgTmrHi
  /-- TRG_EDGE (R420). -/
  | trgEdge
  /-- TRG_WC_CFG (R418). -/
  | trgWcCfg
  /-- TRG_WC_MASK (R418). -/
  | trgWcMask
  /-- TRG_WC_A (R418, R419). -/
  | trgWcA
  /-- TRG_WC_B (R419). -/
  | trgWcB
  /-- TRG_L_COND0 (R417). -/
  | trgLCond0
  /-- TRG_L_COND1 (R417). -/
  | trgLCond1
  /-- TRG_L_CTRL (R423, R424, R426). -/
  | trgLCtrl
  /-- SKN_CFG (R461, R462). -/
  | sknCfg
  /-- SKN_PRE (R460). -/
  | sknPre
  /-- SKN_POST (R461). -/
  | sknPost
  /-- SKN_STATUS (R479). -/
  | sknStatus
  /-- SKN_NUM (R459). -/
  | sknNum
  /-- SKN_BOB (R455, R456). -/
  | sknBob
  /-- SKN_FREE (R479). -/
  | sknFree
  /-- SKN_OVR_CNT (R479). -/
  | sknOvrCnt
  /-- Q_CTL (R234, R243). -/
  | qCtl
  /-- Q_STATUS (R222). -/
  | qStatus
  /-- Q_WR_LO (R239). -/
  | qWrLo
  /-- Q_WR_HI (R239). -/
  | qWrHi
  /-- Q_WR_HIM (R239). -/
  | qWrHim
  /-- Q_RD_LO (R221, R235). -/
  | qRdLo
  /-- Q_RD_HI (R224). -/
  | qRdHi
  /-- Q_RD_TAG (R224). -/
  | qRdTag
  /-- Q_CNT (R228, R236, R230). -/
  | qCnt
  /-- ENG_CFG (R599, R609). -/
  | engCfg
  /-- ENG_STATUS (R595). -/
  | engStatus
  /-- ENG_SWITCH (R613). -/
  | engSwitch
  /-- ENG_BUSY (R621). -/
  | engBusy
  /-- PLY_CFG (R602). -/
  | plyCfg
  /-- PLY_STATUS (R595). -/
  | plyStatus
  /-- PLY_RATE (R617). -/
  | plyRate
  /-- PLY_BURST (R617). -/
  | plyBurst
  /-- PLY_LEVEL (R617). -/
  | plyLevel
  /-- UMP_STATUS (R604). -/
  | umpStatus
  /-- UMP_DECISIONS (R608). -/
  | umpDecisions
  /-- UMP_CTX (R613). -/
  | umpCtx
  /-- ACC_TIME_LO (R621). -/
  | accTimeLo
  /-- ACC_TIME_HI (R621). -/
  | accTimeHi
  /-- ACC_SRAM_LO (R621). -/
  | accSramLo
  /-- ACC_SRAM_HI (R621). -/
  | accSramHi
  /-- ACC_NANDW_LO (R621). -/
  | accNandwLo
  /-- ACC_NANDW_HI (R621). -/
  | accNandwHi
  /-- ACC_NANDR_LO (R621). -/
  | accNandrLo
  /-- ACC_NANDR_HI (R621). -/
  | accNandrHi
  /-- ACC_USB_LO (R621). -/
  | accUsbLo
  /-- ACC_USB_HI (R621). -/
  | accUsbHi
  /-- ACC_ENERGY_LO (R621, R622). -/
  | accEnergyLo
  /-- ACC_ENERGY_HI (R621, R622). -/
  | accEnergyHi
  /-- ACC_START_LO (R620). -/
  | accStartLo
  /-- ACC_START_HI (R620). -/
  | accStartHi
  /-- ACC_COEF (R621, R623). -/
  | accCoef
  /-- ACC_COEF_PATH (R621, R623). -/
  | accCoefPath
  /-- CMP_STATUS (R512). -/
  | cmpStatus
  /-- CMP_ENG_BLK (R511). -/
  | cmpEngBlk
  /-- CMP_ENG_CHK (R512). -/
  | cmpEngChk
  /-- CMP_S_CFG (R496, R505, R508, R521). -/
  | cmpSCfg
  /-- CMP_S_STATUS (R517). -/
  | cmpSStatus
  /-- CMP_S_IN_LO (R518). -/
  | cmpSInLo
  /-- CMP_S_IN_HI (R518). -/
  | cmpSInHi
  /-- CMP_S_OUT_LO (R518). -/
  | cmpSOutLo
  /-- CMP_S_OUT_HI (R518). -/
  | cmpSOutHi
  /-- CMP_S_BLK (R518). -/
  | cmpSBlk
  /-- CMP_S_FLUSH (R520). -/
  | cmpSFlush
  /-- SL_L_CFG (R544). -/
  | slLCfg
  /-- SL_L_STATUS (R543, R551). -/
  | slLStatus
  /-- SL_L_GEOM (R541, R542). -/
  | slLGeom
  /-- SL_L_HANKS (R546). -/
  | slLHanks
  /-- SL_L_FREE (R567). -/
  | slLFree
  /-- SL_L_BAD (R557). -/
  | slLBad
  /-- SL_L_CORR (R554). -/
  | slLCorr
  /-- SL_L_UNCORR (R576). -/
  | slLUncorr
  /-- SL_L_FAIL (R576). -/
  | slLFail
  /-- SL_L_WEAR (R568). -/
  | slLWear
  /-- SL_SCRUB_CFG (R571, R572, R574). -/
  | slScrubCfg
  /-- SL_WL_CFG (R569, R570). -/
  | slWlCfg
  /-- SL_SCRUB_STATUS (R574, R585). -/
  | slScrubStatus
  /-- SL_SCRUB_CNT (R573). -/
  | slScrubCnt
  /-- SL_S_CFG (R564, R565, R566). -/
  | slSCfg
  /-- SL_S_USED (R565). -/
  | slSUsed
  /-- IU_CFG (R652, R653). -/
  | iuCfg
  /-- IU_TMO_LO (R653). -/
  | iuTmoLo
  /-- IU_TMO_HI (R653). -/
  | iuTmoHi
  /-- IU_CTRL (R651, R663). -/
  | iuCtrl
  /-- IU_STATUS (R660, R663, R667). -/
  | iuStatus
  /-- IU_TEMP (R665). -/
  | iuTemp
  /-- IU_TRIM (R666). -/
  | iuTrim
  /-- IU_TRIM_DAY (R666). -/
  | iuTrimDay
  /-- IU_AGE_DEF (R668). -/
  | iuAgeDef
  /-- IU_AGE (R668). -/
  | iuAge
  /-- IU_CORR (R658, R666). -/
  | iuCorr
  /-- IU_MEAS (R655). -/
  | iuMeas
  /-- IU_TAB_IDX (R661). -/
  | iuTabIdx
  /-- IU_TAB_DATA (R661). -/
  | iuTabData
  /-- IU_RES_IDX (R669). -/
  | iuResIdx
  /-- IU_RES (R669). -/
  | iuRes
  /-- TW_CFG (R703, R707, R708). -/
  | twCfg
  /-- TW_STRETCH_MAX (R699, R700). -/
  | twStretchMax
  /-- TW_RETRY_LIMIT (R709). -/
  | twRetryLimit
  /-- TW_BACKOFF (R709). -/
  | twBackoff
  /-- TW_STATUS (R709, R711). -/
  | twStatus
  /-- TW_ALERT_PEND (R706, R707). -/
  | twAlertPend
  /-- TW_CNT (R701, R705). -/
  | twCnt
  /-- TW_ALERT_DROP (R706). -/
  | twAlertDrop
  /-- TW_ALERT_RD_LO (R712). -/
  | twAlertRdLo
  /-- TW_ALERT_RD_HI (R712). -/
  | twAlertRdHi
  /-- USB_CTRL (R723). -/
  | usbCtrl
  /-- USB_STATUS (R724). -/
  | usbStatus
  /-- USB_ID (R725). -/
  | usbId
  /-- USB_CNT (R728). -/
  | usbCnt
  /-- REF_CTRL (R777). -/
  | refCtrl
  /-- REF_STATUS (R754, R767). -/
  | refStatus
  /-- REF_CNT (R755, R756). -/
  | refCnt
  /-- REF_SRAM_CORR (R762). -/
  | refSramCorr
  /-- REF_LOG_WPTR (R774). -/
  | refLogWptr
  /-- REF_LOG_IDX (R774). -/
  | refLogIdx
  /-- REF_LOG_RD (R774). -/
  | refLogRd
  /-- REF_TEST_RES (R786). -/
  | refTestRes
  /-- REF_TEST_CTL (R786). -/
  | refTestCtl
  /-- REF_RET_CH (R772, R786). -/
  | refRetCh
  /-- REF_RET_Q_LO (R772, R786). -/
  | refRetQLo
  /-- REF_RET_Q_HI (R772, R786). -/
  | refRetQHi
  /-- REF_RET_SRAM (R772, R786). -/
  | refRetSram
  /-- REF_RET_MISC (R772, R786). -/
  | refRetMisc
  /-- REF_RET_BANK (R772, R786). -/
  | refRetBank
  /-- RPL_CFG (R836, R822, R833). -/
  | rplCfg
  /-- RPL_STATUS (R846). -/
  | rplStatus
  /-- RPL_TICK_LO (R846). -/
  | rplTickLo
  /-- RPL_TICK_HI (R846). -/
  | rplTickHi
  /-- RPL_ENTRIES_LO (R846). -/
  | rplEntriesLo
  /-- RPL_ENTRIES_HI (R846). -/
  | rplEntriesHi
  /-- RPL_LOST (R823). -/
  | rplLost
  /-- RPL_DIV_TICK_LO (R837). -/
  | rplDivTickLo
  /-- RPL_DIV_TICK_HI (R837). -/
  | rplDivTickHi
  /-- RPL_DIV (R837). -/
  | rplDiv
  /-- RPL_DIV_WORD (R837). -/
  | rplDivWord
  /-- RPL_DIV_CNT (R837). -/
  | rplDivCnt
  /-- RPL_INJ (R833). -/
  | rplInj
  deriving DecidableEq, Repr

/-- One register: its name and its indices (0 where the row has none). -/
structure Reg where
  name : RegName
  i : Nat
  j : Nat
  deriving DecidableEq, Repr

/-- The row of each register name (R851, "Register index"). -/
def RegName.row : RegName → RegRow
  | .glbParam0 => ⟨0x0020, [], [⟨.s, 31, 24⟩, ⟨.s, 23, 20⟩, ⟨.s, 19, 16⟩, ⟨.s, 11, 0⟩]⟩
  | .glbParam1 => ⟨0x0024, [], [⟨.s, 31, 28⟩, ⟨.s, 27, 24⟩, ⟨.s, 23, 20⟩, ⟨.s, 19, 16⟩, ⟨.s, 15, 0⟩]⟩
  | .glbParam2 => ⟨0x0028, [], [⟨.s, 21, 16⟩, ⟨.s, 15, 8⟩, ⟨.s, 7, 0⟩]⟩
  | .glbParam3 => ⟨0x002C, [], [⟨.s, 27, 20⟩, ⟨.s, 19, 16⟩, ⟨.s, 15, 0⟩]⟩
  | .glbMode => ⟨0x0040, [], [⟨.s, 3, 3⟩, ⟨.s, 2, 2⟩, ⟨.s, 1, 1⟩, ⟨.s, 0, 0⟩]⟩
  | .glbStraps => ⟨0x0044, [], [⟨.s, 3, 3⟩, ⟨.s, 2, 2⟩, ⟨.s, 1, 0⟩]⟩
  | .glbSupply => ⟨0x0048, [], [⟨.s, 23, 16⟩, ⟨.s, 2, 2⟩, ⟨.s, 1, 1⟩, ⟨.s, 0, 0⟩]⟩
  | .glbUidLo => ⟨0x0050, [], [⟨.s, 31, 0⟩]⟩
  | .glbUidHi => ⟨0x0054, [], [⟨.s, 31, 0⟩]⟩
  | .glbRegctl => ⟨0x0060, [], [⟨.c, 0, 0⟩]⟩
  | .glbBuserr => ⟨0x0064, [], [⟨.s, 27, 24⟩, ⟨.s, 22, 22⟩, ⟨.s, 21, 20⟩, ⟨.s, 19, 0⟩]⟩
  | .glbBuserrCnt => ⟨0x0068, [], [⟨.a, 31, 0⟩]⟩
  | .glbParity => ⟨0x006C, [], [⟨.a, 31, 24⟩, ⟨.s, 19, 0⟩]⟩
  | .glbStage => ⟨0x0070, [], [⟨.s, 8, 8⟩, ⟨.c, 0, 0⟩]⟩
  | .glbPool => ⟨0x0074, [], [⟨.s, 12, 8⟩, ⟨.s, 4, 0⟩]⟩
  | .glbAqCtl => ⟨0x0100, [(2, 0x40)], [⟨.k, 31, 24⟩, ⟨.c, 0, 0⟩]⟩
  | .glbAqStatus => ⟨0x0104, [(2, 0x40)], [⟨.s, 15, 14⟩, ⟨.s, 13, 13⟩, ⟨.s, 12, 12⟩, ⟨.s, 11, 11⟩, ⟨.s, 10, 10⟩, ⟨.s, 9, 9⟩, ⟨.s, 8, 8⟩, ⟨.s, 4, 0⟩]⟩
  | .glbAqWrLo => ⟨0x0108, [(2, 0x40)], [⟨.k, 31, 0⟩]⟩
  | .glbAqWrHi => ⟨0x010C, [(2, 0x40)], [⟨.k, 31, 0⟩]⟩
  | .glbAqWrHim => ⟨0x0110, [(2, 0x40)], [⟨.k, 31, 0⟩]⟩
  | .glbAqRdLo => ⟨0x0114, [(2, 0x40)], [⟨.s, 31, 0⟩]⟩
  | .glbAqRdHi => ⟨0x0118, [(2, 0x40)], [⟨.s, 31, 0⟩]⟩
  | .glbAqRdTag => ⟨0x011C, [(2, 0x40)], [⟨.s, 1, 0⟩]⟩
  | .glbAqCnt => ⟨0x0120, [(2, 0x40)], [⟨.a, 31, 24⟩, ⟨.a, 23, 12⟩, ⟨.a, 11, 0⟩]⟩
  | .calDate => ⟨0x1000, [], [⟨.s, 20, 16⟩, ⟨.s, 11, 8⟩, ⟨.s, 7, 0⟩]⟩
  | .calTime => ⟨0x1004, [], [⟨.s, 20, 16⟩, ⟨.s, 13, 8⟩, ⟨.s, 5, 0⟩]⟩
  | .calSub => ⟨0x1008, [], [⟨.s, 14, 0⟩]⟩
  | .calLinLo => ⟨0x100C, [], [⟨.s, 31, 0⟩]⟩
  | .calLinHi => ⟨0x1010, [], [⟨.s, 15, 0⟩]⟩
  | .calBtLo => ⟨0x1014, [], [⟨.s, 31, 0⟩]⟩
  | .calBtHi => ⟨0x1018, [], [⟨.s, 23, 0⟩]⟩
  | .calSetDate => ⟨0x1020, [], [⟨.g, 20, 16⟩, ⟨.g, 11, 8⟩, ⟨.g, 7, 0⟩]⟩
  | .calSetTime => ⟨0x1024, [], [⟨.g, 20, 16⟩, ⟨.g, 13, 8⟩, ⟨.g, 5, 0⟩]⟩
  | .calSetSub => ⟨0x1028, [], [⟨.g, 14, 0⟩]⟩
  | .calCommit => ⟨0x102C, [], [⟨.k, 7, 0⟩]⟩
  | .calStatus => ⟨0x1030, [], [⟨.s, 2, 2⟩, ⟨.s, 1, 1⟩, ⟨.s, 0, 0⟩]⟩
  | .pwrCtrl => ⟨0x1100, [], [⟨.c, 1, 1⟩, ⟨.c, 0, 0⟩]⟩
  | .pwrEnter => ⟨0x1104, [], [⟨.k, 15, 8⟩, ⟨.k, 1, 0⟩]⟩
  | .pwrStatus => ⟨0x1108, [], [⟨.s, 15, 12⟩, ⟨.s, 11, 8⟩, ⟨.s, 5, 4⟩, ⟨.s, 3, 3⟩]⟩
  | .pwrWakeAt => ⟨0x110C, [], [⟨.c, 31, 0⟩]⟩
  | .pwrAtickLo => ⟨0x1110, [], [⟨.s, 31, 0⟩]⟩
  | .pwrAtickHi => ⟨0x1114, [], [⟨.s, 15, 0⟩]⟩
  | .pwrWakeBtLo => ⟨0x1118, [], [⟨.s, 31, 0⟩]⟩
  | .pwrWakeBtHi => ⟨0x111C, [], [⟨.s, 23, 0⟩]⟩
  | .pwrWakeAtick => ⟨0x1120, [], [⟨.s, 31, 0⟩]⟩
  | .pwrBoot0 => ⟨0x1140, [], [⟨.s, 31, 24⟩, ⟨.s, 23, 16⟩, ⟨.s, 15, 8⟩, ⟨.s, 7, 0⟩]⟩
  | .pwrBoot1 => ⟨0x1144, [], [⟨.s, 31, 24⟩, ⟨.s, 23, 16⟩, ⟨.s, 15, 8⟩, ⟨.s, 7, 0⟩]⟩
  | .dstCtrl => ⟨0x1200, [], [⟨.c, 2, 2⟩, ⟨.c, 1, 1⟩, ⟨.c, 0, 0⟩]⟩
  | .dstThr => ⟨0x1204, [], [⟨.c, 31, 0⟩]⟩
  | .dstFilt => ⟨0x1208, [(4, 0x4)], [⟨.c, 30, 28⟩, ⟨.c, 26, 24⟩, ⟨.c, 22, 20⟩, ⟨.c, 18, 16⟩, ⟨.c, 14, 12⟩, ⟨.c, 10, 8⟩, ⟨.c, 6, 4⟩, ⟨.c, 2, 0⟩]⟩
  | .dstRule => ⟨0x1220, [(16, 0x4)], [⟨.c, 31, 31⟩, ⟨.c, 30, 27⟩, ⟨.c, 26, 24⟩, ⟨.c, 23, 23⟩, ⟨.c, 22, 21⟩, ⟨.c, 20, 20⟩, ⟨.c, 19, 18⟩, ⟨.c, 17, 16⟩, ⟨.c, 15, 14⟩, ⟨.c, 13, 13⟩, ⟨.c, 12, 10⟩, ⟨.c, 9, 9⟩, ⟨.c, 8, 8⟩, ⟨.c, 7, 6⟩]⟩
  | .dstCnt => ⟨0x1260, [(4, 0x4)], [⟨.a, 23, 0⟩]⟩
  | .dstLim => ⟨0x1270, [(4, 0x4)], [⟨.c, 23, 0⟩]⟩
  | .dstLvl => ⟨0x1280, [], [⟨.s, 15, 0⟩]⟩
  | .dstLogWptr => ⟨0x1284, [], [⟨.s, 12, 0⟩]⟩
  | .dstLogRptr => ⟨0x1288, [], [⟨.c, 12, 0⟩]⟩
  | .dstLogLost => ⟨0x128C, [], [⟨.a, 23, 0⟩]⟩
  | .dstLogRidx => ⟨0x1290, [], [⟨.c, 11, 0⟩]⟩
  | .dstLogRdLo => ⟨0x1294, [], [⟨.s, 31, 0⟩]⟩
  | .dstLogRdHi => ⟨0x1298, [], [⟨.s, 31, 0⟩]⟩
  | .bnCtrl => ⟨0x2000, [(8, 0x800)], [⟨.c, 1, 1⟩, ⟨.c, 0, 0⟩]⟩
  | .bnStatus => ⟨0x2004, [(8, 0x800)], [⟨.s, 4, 4⟩, ⟨.s, 3, 3⟩, ⟨.s, 2, 0⟩]⟩
  | .bnEvtLost => ⟨0x2008, [(8, 0x800)], [⟨.a, 31, 0⟩]⟩
  | .bnOwn => ⟨0x200C, [(8, 0x800)], [⟨.g, 9, 8⟩, ⟨.g, 7, 0⟩]⟩
  | .bnStage => ⟨0x2010, [(8, 0x800)], [⟨.s, 9, 9⟩, ⟨.s, 8, 8⟩, ⟨.c, 0, 0⟩]⟩
  | .feMode => ⟨0x2040, [(8, 0x800)], [⟨.g, 10, 8⟩, ⟨.g, 6, 5⟩, ⟨.g, 4, 4⟩, ⟨.g, 1, 0⟩]⟩
  | .feCtrl => ⟨0x2044, [(8, 0x800)], [⟨.c, 8, 8⟩, ⟨.c, 7, 0⟩]⟩
  | .feStatus => ⟨0x2048, [(8, 0x800)], [⟨.s, 23, 16⟩, ⟨.s, 15, 8⟩, ⟨.s, 2, 2⟩, ⟨.s, 1, 1⟩, ⟨.s, 0, 0⟩]⟩
  | .fePod => ⟨0x2060, [(8, 0x800), (8, 0x4)], [⟨.g, 10, 9⟩, ⟨.g, 8, 0⟩]⟩
  | .feDsk => ⟨0x2080, [(8, 0x800), (32, 0x4)], [⟨.g, 31, 0⟩]⟩
  | .feValid => ⟨0x2100, [(8, 0x800), (8, 0x4)], [⟨.s, 31, 0⟩]⟩
  | .feOvd => ⟨0x2120, [(8, 0x800), (8, 0x4)], [⟨.s, 31, 0⟩]⟩
  | .feStuck => ⟨0x2140, [(8, 0x800), (8, 0x4)], [⟨.s, 31, 0⟩]⟩
  | .feOvdcnt => ⟨0x2160, [(8, 0x800), (8, 0x4)], [⟨.a, 15, 0⟩]⟩
  | .trgCfg => ⟨0x2200, [(8, 0x800)], [⟨.g, 0, 0⟩]⟩
  | .trgStatus => ⟨0x2204, [(8, 0x800)], [⟨.s, 9, 8⟩, ⟨.s, 7, 7⟩, ⟨.s, 6, 6⟩, ⟨.s, 5, 5⟩, ⟨.s, 4, 4⟩, ⟨.s, 3, 0⟩]⟩
  | .trgRelayEn => ⟨0x2208, [(8, 0x800)], [⟨.g, 15, 8⟩, ⟨.g, 7, 0⟩]⟩
  | .trgTrigLo => ⟨0x2210, [(8, 0x800)], [⟨.s, 31, 0⟩]⟩
  | .trgTrigHi => ⟨0x2214, [(8, 0x800)], [⟨.s, 23, 0⟩]⟩
  | .trgCntLim => ⟨0x2220, [(8, 0x800), (4, 0x4)], [⟨.g, 31, 0⟩]⟩
  | .trgCnt => ⟨0x2230, [(8, 0x800), (4, 0x4)], [⟨.s, 31, 0⟩]⟩
  | .trgTmrLimLo => ⟨0x2240, [(8, 0x800), (2, 0x8)], [⟨.g, 31, 0⟩]⟩
  | .trgTmrLimHi => ⟨0x2244, [(8, 0x800), (2, 0x8)], [⟨.g, 15, 0⟩]⟩
  | .trgTmrLo => ⟨0x2250, [(8, 0x800), (2, 0x8)], [⟨.s, 31, 0⟩]⟩
  | .trgTmrHi => ⟨0x2254, [(8, 0x800), (2, 0x8)], [⟨.s, 15, 0⟩]⟩
  | .trgEdge => ⟨0x2260, [(8, 0x800), (4, 0x4)], [⟨.g, 9, 8⟩, ⟨.g, 7, 0⟩]⟩
  | .trgWcCfg => ⟨0x2280, [(8, 0x800), (8, 0x10)], [⟨.g, 4, 4⟩, ⟨.g, 2, 0⟩]⟩
  | .trgWcMask => ⟨0x2284, [(8, 0x800), (8, 0x10)], [⟨.g, 31, 0⟩]⟩
  | .trgWcA => ⟨0x2288, [(8, 0x800), (8, 0x10)], [⟨.g, 31, 0⟩]⟩
  | .trgWcB => ⟨0x228C, [(8, 0x800), (8, 0x10)], [⟨.g, 31, 0⟩]⟩
  | .trgLCond0 => ⟨0x2300, [(8, 0x800), (16, 0x10)], [⟨.g, 6, 6⟩, ⟨.g, 5, 0⟩]⟩
  | .trgLCond1 => ⟨0x2304, [(8, 0x800), (16, 0x10)], [⟨.g, 6, 6⟩, ⟨.g, 5, 0⟩]⟩
  | .trgLCtrl => ⟨0x2308, [(8, 0x800), (16, 0x10)], [⟨.g, 25, 24⟩, ⟨.g, 23, 20⟩, ⟨.g, 17, 16⟩, ⟨.g, 15, 8⟩, ⟨.g, 7, 0⟩]⟩
  | .sknCfg => ⟨0x2400, [(8, 0x800)], [⟨.g, 31, 16⟩, ⟨.g, 2, 2⟩, ⟨.g, 1, 1⟩, ⟨.g, 0, 0⟩]⟩
  | .sknPre => ⟨0x2404, [(8, 0x800)], [⟨.g, 31, 0⟩]⟩
  | .sknPost => ⟨0x2408, [(8, 0x800)], [⟨.g, 31, 0⟩]⟩
  | .sknStatus => ⟨0x240C, [(8, 0x800)], [⟨.s, 2, 2⟩, ⟨.s, 1, 0⟩]⟩
  | .sknNum => ⟨0x2410, [(8, 0x800)], [⟨.s, 31, 0⟩]⟩
  | .sknBob => ⟨0x2414, [(8, 0x800)], [⟨.s, 16, 8⟩, ⟨.s, 4, 0⟩]⟩
  | .sknFree => ⟨0x2418, [(8, 0x800)], [⟨.s, 20, 0⟩]⟩
  | .sknOvrCnt => ⟨0x241C, [(8, 0x800)], [⟨.a, 31, 0⟩]⟩
  | .qCtl => ⟨0x6000, [(64, 0x40)], [⟨.k, 31, 24⟩, ⟨.c, 0, 0⟩]⟩
  | .qStatus => ⟨0x6004, [(64, 0x40)], [⟨.s, 15, 14⟩, ⟨.s, 13, 13⟩, ⟨.s, 12, 12⟩, ⟨.s, 11, 11⟩, ⟨.s, 10, 10⟩, ⟨.s, 9, 9⟩, ⟨.s, 8, 8⟩, ⟨.s, 4, 0⟩]⟩
  | .qWrLo => ⟨0x6008, [(64, 0x40)], [⟨.k, 31, 0⟩]⟩
  | .qWrHi => ⟨0x600C, [(64, 0x40)], [⟨.k, 31, 0⟩]⟩
  | .qWrHim => ⟨0x6010, [(64, 0x40)], [⟨.k, 31, 0⟩]⟩
  | .qRdLo => ⟨0x6014, [(64, 0x40)], [⟨.s, 31, 0⟩]⟩
  | .qRdHi => ⟨0x6018, [(64, 0x40)], [⟨.s, 31, 0⟩]⟩
  | .qRdTag => ⟨0x601C, [(64, 0x40)], [⟨.s, 1, 0⟩]⟩
  | .qCnt => ⟨0x6020, [(64, 0x40)], [⟨.a, 31, 24⟩, ⟨.a, 23, 12⟩, ⟨.a, 11, 0⟩]⟩
  | .engCfg => ⟨0x7000, [(9, 0x10)], [⟨.g, 5, 4⟩, ⟨.g, 0, 0⟩]⟩
  | .engStatus => ⟨0x7004, [(9, 0x10)], [⟨.s, 31, 16⟩, ⟨.s, 14, 14⟩, ⟨.s, 13, 12⟩, ⟨.s, 11, 8⟩, ⟨.s, 2, 0⟩]⟩
  | .engSwitch => ⟨0x7008, [(9, 0x10)], [⟨.a, 31, 0⟩]⟩
  | .engBusy => ⟨0x700C, [(9, 0x10)], [⟨.a, 31, 0⟩]⟩
  | .plyCfg => ⟨0x7100, [(4, 0x40)], [⟨.g, 12, 0⟩]⟩
  | .plyStatus => ⟨0x7104, [(4, 0x40)], [⟨.s, 24, 24⟩, ⟨.s, 16, 8⟩, ⟨.s, 7, 0⟩]⟩
  | .plyRate => ⟨0x7110, [(4, 0x40), (3, 0x8)], [⟨.g, 15, 0⟩]⟩
  | .plyBurst => ⟨0x7114, [(4, 0x40), (3, 0x8)], [⟨.g, 15, 0⟩]⟩
  | .plyLevel => ⟨0x7130, [(4, 0x40), (3, 0x4)], [⟨.s, 31, 0⟩]⟩
  | .umpStatus => ⟨0x7200, [], [⟨.s, 8, 0⟩]⟩
  | .umpDecisions => ⟨0x7204, [], [⟨.a, 31, 0⟩]⟩
  | .umpCtx => ⟨0x7208, [], [⟨.s, 15, 8⟩, ⟨.s, 7, 0⟩]⟩
  | .accTimeLo => ⟨0x7400, [(8, 0x40)], [⟨.a, 31, 0⟩]⟩
  | .accTimeHi => ⟨0x7404, [(8, 0x40)], [⟨.a, 31, 0⟩]⟩
  | .accSramLo => ⟨0x7408, [(8, 0x40)], [⟨.a, 31, 0⟩]⟩
  | .accSramHi => ⟨0x740C, [(8, 0x40)], [⟨.a, 31, 0⟩]⟩
  | .accNandwLo => ⟨0x7410, [(8, 0x40)], [⟨.a, 31, 0⟩]⟩
  | .accNandwHi => ⟨0x7414, [(8, 0x40)], [⟨.a, 31, 0⟩]⟩
  | .accNandrLo => ⟨0x7418, [(8, 0x40)], [⟨.a, 31, 0⟩]⟩
  | .accNandrHi => ⟨0x741C, [(8, 0x40)], [⟨.a, 31, 0⟩]⟩
  | .accUsbLo => ⟨0x7420, [(8, 0x40)], [⟨.a, 31, 0⟩]⟩
  | .accUsbHi => ⟨0x7424, [(8, 0x40)], [⟨.a, 31, 0⟩]⟩
  | .accEnergyLo => ⟨0x7428, [(8, 0x40)], [⟨.a, 31, 0⟩]⟩
  | .accEnergyHi => ⟨0x742C, [(8, 0x40)], [⟨.a, 31, 0⟩]⟩
  | .accStartLo => ⟨0x7430, [(8, 0x40)], [⟨.s, 31, 0⟩]⟩
  | .accStartHi => ⟨0x7434, [(8, 0x40)], [⟨.s, 31, 0⟩]⟩
  | .accCoef => ⟨0x7600, [(9, 0x4)], [⟨.s, 31, 16⟩, ⟨.s, 15, 0⟩]⟩
  | .accCoefPath => ⟨0x7630, [(4, 0x4)], [⟨.s, 15, 0⟩]⟩
  | .cmpStatus => ⟨0x7800, [], [⟨.s, 11, 8⟩, ⟨.s, 7, 4⟩, ⟨.s, 3, 0⟩]⟩
  | .cmpEngBlk => ⟨0x7810, [(4, 0x4)], [⟨.a, 31, 0⟩]⟩
  | .cmpEngChk => ⟨0x7820, [(4, 0x4)], [⟨.a, 15, 0⟩]⟩
  | .cmpSCfg => ⟨0x7900, [(8, 0x40)], [⟨.g, 31, 16⟩, ⟨.g, 12, 8⟩, ⟨.g, 7, 4⟩, ⟨.g, 2, 2⟩, ⟨.g, 1, 0⟩]⟩
  | .cmpSStatus => ⟨0x7904, [(8, 0x40)], [⟨.s, 9, 8⟩, ⟨.s, 6, 4⟩, ⟨.s, 1, 0⟩]⟩
  | .cmpSInLo => ⟨0x7908, [(8, 0x40)], [⟨.a, 31, 0⟩]⟩
  | .cmpSInHi => ⟨0x790C, [(8, 0x40)], [⟨.a, 31, 0⟩]⟩
  | .cmpSOutLo => ⟨0x7910, [(8, 0x40)], [⟨.a, 31, 0⟩]⟩
  | .cmpSOutHi => ⟨0x7914, [(8, 0x40)], [⟨.a, 31, 0⟩]⟩
  | .cmpSBlk => ⟨0x7918, [(8, 0x40)], [⟨.a, 31, 0⟩]⟩
  | .cmpSFlush => ⟨0x791C, [(8, 0x40)], [⟨.k, 7, 0⟩]⟩
  | .slLCfg => ⟨0x8000, [(2, 0x100)], [⟨.c, 9, 8⟩, ⟨.c, 5, 4⟩, ⟨.c, 3, 3⟩, ⟨.c, 2, 0⟩]⟩
  | .slLStatus => ⟨0x8004, [(2, 0x100)], [⟨.s, 11, 8⟩, ⟨.s, 7, 7⟩, ⟨.s, 6, 4⟩, ⟨.s, 3, 3⟩, ⟨.s, 2, 0⟩]⟩
  | .slLGeom => ⟨0x8008, [(2, 0x100)], [⟨.s, 9, 8⟩, ⟨.s, 7, 6⟩, ⟨.s, 5, 2⟩, ⟨.s, 1, 0⟩]⟩
  | .slLHanks => ⟨0x800C, [(2, 0x100)], [⟨.s, 23, 0⟩]⟩
  | .slLFree => ⟨0x8010, [(2, 0x100)], [⟨.s, 23, 0⟩]⟩
  | .slLBad => ⟨0x8014, [(2, 0x100)], [⟨.s, 31, 16⟩, ⟨.s, 15, 0⟩]⟩
  | .slLCorr => ⟨0x8018, [(2, 0x100)], [⟨.a, 31, 0⟩]⟩
  | .slLUncorr => ⟨0x801C, [(2, 0x100)], [⟨.a, 15, 0⟩]⟩
  | .slLFail => ⟨0x8020, [(2, 0x100)], [⟨.a, 31, 16⟩, ⟨.a, 15, 0⟩]⟩
  | .slLWear => ⟨0x8024, [(2, 0x100)], [⟨.s, 31, 16⟩, ⟨.s, 15, 0⟩]⟩
  | .slScrubCfg => ⟨0x8200, [], [⟨.c, 31, 16⟩, ⟨.c, 15, 8⟩, ⟨.c, 6, 0⟩]⟩
  | .slWlCfg => ⟨0x8204, [], [⟨.c, 31, 16⟩, ⟨.c, 15, 0⟩]⟩
  | .slScrubStatus => ⟨0x8208, [], [⟨.s, 31, 8⟩, ⟨.s, 1, 0⟩]⟩
  | .slScrubCnt => ⟨0x820C, [], [⟨.a, 31, 0⟩]⟩
  | .slSCfg => ⟨0x8400, [(8, 0x10)], [⟨.c, 31, 16⟩, ⟨.c, 8, 8⟩, ⟨.c, 1, 0⟩]⟩
  | .slSUsed => ⟨0x8404, [(8, 0x10)], [⟨.s, 23, 0⟩]⟩
  | .iuCfg => ⟨0x8800, [], [⟨.g, 23, 16⟩, ⟨.g, 15, 12⟩, ⟨.g, 10, 9⟩, ⟨.g, 8, 4⟩, ⟨.g, 3, 3⟩, ⟨.g, 2, 0⟩]⟩
  | .iuTmoLo => ⟨0x8804, [], [⟨.g, 31, 0⟩]⟩
  | .iuTmoHi => ⟨0x8808, [], [⟨.g, 7, 0⟩]⟩
  | .iuCtrl => ⟨0x880C, [], [⟨.c, 20, 16⟩, ⟨.c, 8, 8⟩, ⟨.h, 1, 1⟩, ⟨.h, 0, 0⟩]⟩
  | .iuStatus => ⟨0x8810, [], [⟨.s, 19, 16⟩, ⟨.s, 12, 8⟩, ⟨.s, 6, 6⟩, ⟨.s, 5, 5⟩, ⟨.s, 4, 4⟩, ⟨.s, 3, 3⟩, ⟨.s, 2, 0⟩]⟩
  | .iuTemp => ⟨0x8814, [], [⟨.s, 15, 8⟩, ⟨.s, 7, 0⟩]⟩
  | .iuTrim => ⟨0x8818, [], [⟨.s, 31, 0⟩]⟩
  | .iuTrimDay => ⟨0x881C, [], [⟨.s, 16, 0⟩]⟩
  | .iuAgeDef => ⟨0x8820, [], [⟨.s, 31, 0⟩]⟩
  | .iuAge => ⟨0x8824, [], [⟨.c, 31, 0⟩]⟩
  | .iuCorr => ⟨0x8828, [], [⟨.g, 31, 0⟩]⟩
  | .iuMeas => ⟨0x882C, [], [⟨.a, 31, 0⟩]⟩
  | .iuTabIdx => ⟨0x8830, [], [⟨.c, 19, 16⟩, ⟨.c, 9, 0⟩]⟩
  | .iuTabData => ⟨0x8834, [], [⟨.s, 31, 0⟩]⟩
  | .iuResIdx => ⟨0x8838, [], [⟨.c, 4, 0⟩]⟩
  | .iuRes => ⟨0x8840, [(4, 0x4)], [⟨.s, 31, 0⟩]⟩
  | .twCfg => ⟨0x8C00, [], [⟨.g, 11, 10⟩, ⟨.g, 9, 8⟩, ⟨.g, 6, 0⟩]⟩
  | .twStretchMax => ⟨0x8C04, [], [⟨.g, 15, 0⟩]⟩
  | .twRetryLimit => ⟨0x8C08, [], [⟨.g, 7, 0⟩]⟩
  | .twBackoff => ⟨0x8C0C, [], [⟨.g, 15, 0⟩]⟩
  | .twStatus => ⟨0x8C10, [], [⟨.s, 15, 8⟩, ⟨.s, 6, 6⟩, ⟨.s, 5, 5⟩, ⟨.s, 4, 4⟩, ⟨.s, 3, 3⟩, ⟨.s, 2, 0⟩]⟩
  | .twAlertPend => ⟨0x8C14, [], [⟨.s, 10, 10⟩, ⟨.s, 9, 8⟩, ⟨.s, 4, 0⟩]⟩
  | .twCnt => ⟨0x8C18, [], [⟨.a, 31, 24⟩, ⟨.a, 23, 16⟩, ⟨.a, 15, 0⟩]⟩
  | .twAlertDrop => ⟨0x8C1C, [], [⟨.a, 15, 0⟩]⟩
  | .twAlertRdLo => ⟨0x8C20, [], [⟨.s, 31, 0⟩]⟩
  | .twAlertRdHi => ⟨0x8C24, [], [⟨.s, 31, 0⟩]⟩
  | .usbCtrl => ⟨0x8E00, [], [⟨.c, 0, 0⟩]⟩
  | .usbStatus => ⟨0x8E04, [], [⟨.s, 16, 16⟩, ⟨.s, 8, 2⟩, ⟨.s, 1, 0⟩]⟩
  | .usbId => ⟨0x8E08, [], [⟨.s, 31, 16⟩, ⟨.s, 15, 0⟩]⟩
  | .usbCnt => ⟨0x8E0C, [], [⟨.a, 31, 24⟩, ⟨.a, 23, 16⟩, ⟨.a, 15, 0⟩]⟩
  | .refCtrl => ⟨0x9000, [], [⟨.c, 0, 0⟩]⟩
  | .refStatus => ⟨0x9004, [], [⟨.s, 22, 16⟩, ⟨.s, 8, 8⟩, ⟨.s, 7, 0⟩]⟩
  | .refCnt => ⟨0x9008, [], [⟨.a, 31, 16⟩, ⟨.a, 15, 0⟩]⟩
  | .refSramCorr => ⟨0x900C, [], [⟨.a, 31, 0⟩]⟩
  | .refLogWptr => ⟨0x9010, [], [⟨.s, 8, 0⟩]⟩
  | .refLogIdx => ⟨0x9014, [], [⟨.c, 7, 0⟩]⟩
  | .refLogRd => ⟨0x9018, [(4, 0x4)], [⟨.s, 31, 0⟩]⟩
  | .refTestRes => ⟨0x9030, [], [⟨.c, 31, 0⟩]⟩
  | .refTestCtl => ⟨0x9034, [], [⟨.s, 2, 1⟩, ⟨.h, 0, 0⟩]⟩
  | .refRetCh => ⟨0x9040, [(8, 0x4)], [⟨.s, 31, 0⟩]⟩
  | .refRetQLo => ⟨0x9060, [], [⟨.s, 31, 0⟩]⟩
  | .refRetQHi => ⟨0x9064, [], [⟨.s, 31, 0⟩]⟩
  | .refRetSram => ⟨0x9068, [(3, 0x4)], [⟨.s, 31, 0⟩]⟩
  | .refRetMisc => ⟨0x9074, [], [⟨.s, 20, 19⟩, ⟨.s, 18, 18⟩, ⟨.s, 17, 16⟩, ⟨.s, 8, 0⟩]⟩
  | .refRetBank => ⟨0x9078, [], [⟨.s, 18, 0⟩]⟩
  | .rplCfg => ⟨0x9400, [], [⟨.c, 31, 24⟩, ⟨.c, 23, 21⟩, ⟨.c, 17, 17⟩, ⟨.c, 16, 16⟩, ⟨.c, 12, 10⟩, ⟨.c, 9, 8⟩, ⟨.c, 7, 0⟩]⟩
  | .rplStatus => ⟨0x9404, [], [⟨.s, 31, 16⟩, ⟨.s, 3, 3⟩, ⟨.s, 2, 2⟩, ⟨.s, 1, 0⟩]⟩
  | .rplTickLo => ⟨0x9408, [], [⟨.s, 31, 0⟩]⟩
  | .rplTickHi => ⟨0x940C, [], [⟨.s, 23, 0⟩]⟩
  | .rplEntriesLo => ⟨0x9410, [], [⟨.a, 31, 0⟩]⟩
  | .rplEntriesHi => ⟨0x9414, [], [⟨.a, 31, 0⟩]⟩
  | .rplLost => ⟨0x9418, [], [⟨.a, 31, 0⟩]⟩
  | .rplDivTickLo => ⟨0x9420, [], [⟨.s, 31, 0⟩]⟩
  | .rplDivTickHi => ⟨0x9424, [], [⟨.s, 23, 0⟩]⟩
  | .rplDiv => ⟨0x9428, [], [⟨.s, 15, 8⟩, ⟨.s, 3, 0⟩]⟩
  | .rplDivWord => ⟨0x942C, [], [⟨.s, 31, 0⟩]⟩
  | .rplDivCnt => ⟨0x9430, [], [⟨.a, 15, 0⟩]⟩
  | .rplInj => ⟨0x9434, [], [⟨.a, 31, 16⟩, ⟨.a, 15, 0⟩]⟩

/-- The rows whose addresses lie in the GLB block of the address map (R850). -/
def regsGlb : List RegName :=
  [.glbParam0, .glbParam1, .glbParam2, .glbParam3, .glbMode, .glbStraps, .glbSupply, .glbUidLo, .glbUidHi, .glbRegctl, .glbBuserr, .glbBuserrCnt, .glbParity, .glbStage, .glbPool, .glbAqCtl, .glbAqStatus, .glbAqWrLo, .glbAqWrHi, .glbAqWrHim, .glbAqRdLo, .glbAqRdHi, .glbAqRdTag, .glbAqCnt]

/-- The rows whose addresses lie in the AON block of the address map (R850). -/
def regsAon : List RegName :=
  [.calDate, .calTime, .calSub, .calLinLo, .calLinHi, .calBtLo, .calBtHi, .calSetDate, .calSetTime, .calSetSub, .calCommit, .calStatus, .pwrCtrl, .pwrEnter, .pwrStatus, .pwrWakeAt, .pwrAtickLo, .pwrAtickHi, .pwrWakeBtLo, .pwrWakeBtHi, .pwrWakeAtick, .pwrBoot0, .pwrBoot1, .dstCtrl, .dstThr, .dstFilt, .dstRule, .dstCnt, .dstLim, .dstLvl, .dstLogWptr, .dstLogRptr, .dstLogLost, .dstLogRidx, .dstLogRdLo, .dstLogRdHi]

/-- The rows whose addresses lie in the BENCH block of the address map (R850). -/
def regsBench : List RegName :=
  [.bnCtrl, .bnStatus, .bnEvtLost, .bnOwn, .bnStage, .feMode, .feCtrl, .feStatus, .fePod, .feDsk, .feValid, .feOvd, .feStuck, .feOvdcnt, .trgCfg, .trgStatus, .trgRelayEn, .trgTrigLo, .trgTrigHi, .trgCntLim, .trgCnt, .trgTmrLimLo, .trgTmrLimHi, .trgTmrLo, .trgTmrHi, .trgEdge, .trgWcCfg, .trgWcMask, .trgWcA, .trgWcB, .trgLCond0, .trgLCond1, .trgLCtrl, .sknCfg, .sknPre, .sknPost, .sknStatus, .sknNum, .sknBob, .sknFree] ++
  [.sknOvrCnt]

/-- The rows whose addresses lie in the QUEUE block of the address map (R850). -/
def regsQueue : List RegName :=
  [.qCtl, .qStatus, .qWrLo, .qWrHi, .qWrHim, .qRdLo, .qRdHi, .qRdTag, .qCnt]

/-- The rows whose addresses lie in the ENGINE block of the address map (R850). -/
def regsEngine : List RegName :=
  [.engCfg, .engStatus, .engSwitch, .engBusy, .plyCfg, .plyStatus, .plyRate, .plyBurst, .plyLevel, .umpStatus, .umpDecisions, .umpCtx, .accTimeLo, .accTimeHi, .accSramLo, .accSramHi, .accNandwLo, .accNandwHi, .accNandrLo, .accNandrHi, .accUsbLo, .accUsbHi, .accEnergyLo, .accEnergyHi, .accStartLo, .accStartHi, .accCoef, .accCoefPath, .cmpStatus, .cmpEngBlk, .cmpEngChk, .cmpSCfg, .cmpSStatus, .cmpSInLo, .cmpSInHi, .cmpSOutLo, .cmpSOutHi, .cmpSBlk, .cmpSFlush]

/-- The rows whose addresses lie in the UNIT block of the address map (R850). -/
def regsUnit : List RegName :=
  [.slLCfg, .slLStatus, .slLGeom, .slLHanks, .slLFree, .slLBad, .slLCorr, .slLUncorr, .slLFail, .slLWear, .slScrubCfg, .slWlCfg, .slScrubStatus, .slScrubCnt, .slSCfg, .slSUsed, .iuCfg, .iuTmoLo, .iuTmoHi, .iuCtrl, .iuStatus, .iuTemp, .iuTrim, .iuTrimDay, .iuAgeDef, .iuAge, .iuCorr, .iuMeas, .iuTabIdx, .iuTabData, .iuResIdx, .iuRes, .twCfg, .twStretchMax, .twRetryLimit, .twBackoff, .twStatus, .twAlertPend, .twCnt, .twAlertDrop] ++
  [.twAlertRdLo, .twAlertRdHi, .usbCtrl, .usbStatus, .usbId, .usbCnt]

/-- The rows whose addresses lie in the REF block of the address map (R850). -/
def regsRef : List RegName :=
  [.refCtrl, .refStatus, .refCnt, .refSramCorr, .refLogWptr, .refLogIdx, .refLogRd, .refTestRes, .refTestCtl, .refRetCh, .refRetQLo, .refRetQHi, .refRetSram, .refRetMisc, .refRetBank, .rplCfg, .rplStatus, .rplTickLo, .rplTickHi, .rplEntriesLo, .rplEntriesHi, .rplLost, .rplDivTickLo, .rplDivTickHi, .rplDiv, .rplDivWord, .rplDivCnt, .rplInj]

/-- What an instance of a row depends on (R854): the indices in the order of the row's letters. -/
inductive Presence where
  | always | bench | benchPod | benchPod4 | queue | engine | cmpEngine | ply | lane | anyLane | laneBench
  deriving DecidableEq, Repr

/-- The condition of R854 that governs a row. -/
def RegName.presence : RegName → Presence
  | .bnCtrl | .bnStatus | .bnEvtLost | .bnOwn | .bnStage
  | .feMode | .feCtrl | .feStatus | .trgCfg | .trgStatus
  | .trgRelayEn | .trgTrigLo | .trgTrigHi | .trgCntLim | .trgCnt
  | .trgTmrLimLo | .trgTmrLimHi | .trgTmrLo | .trgTmrHi | .trgEdge
  | .trgWcCfg | .trgWcMask | .trgWcA | .trgWcB | .trgLCond0
  | .trgLCond1 | .trgLCtrl | .sknCfg | .sknPre | .sknPost
  | .sknStatus | .sknNum | .sknBob | .sknFree | .sknOvrCnt
  | .accTimeLo | .accTimeHi | .accSramLo | .accSramHi | .accNandwLo
  | .accNandwHi | .accNandrLo | .accNandrHi | .accUsbLo | .accUsbHi
  | .accEnergyLo | .accEnergyHi | .accStartLo | .accStartHi | .cmpSCfg
  | .cmpSStatus | .cmpSInLo | .cmpSInHi | .cmpSOutLo | .cmpSOutHi
  | .cmpSBlk | .cmpSFlush => .bench
  | .fePod | .feValid | .feOvd | .feStuck | .feOvdcnt => .benchPod
  | .feDsk => .benchPod4
  | .qCtl | .qStatus | .qWrLo | .qWrHi | .qWrHim
  | .qRdLo | .qRdHi | .qRdTag | .qCnt => .queue
  | .engCfg | .engStatus | .engSwitch | .engBusy | .accCoef => .engine
  | .plyCfg | .plyStatus | .plyRate | .plyBurst | .plyLevel => .ply
  | .cmpEngBlk | .cmpEngChk => .cmpEngine
  | .slLCfg | .slLStatus | .slLGeom | .slLHanks | .slLFree
  | .slLBad | .slLCorr | .slLUncorr | .slLFail | .slLWear => .lane
  | .slScrubCfg | .slWlCfg | .slScrubStatus | .slScrubCnt => .anyLane
  | .slSCfg | .slSUsed => .laneBench
  | _ => .always

/-- The reset value of a register's stored C, G and A fields (R852).  A row of R852 that gives a value to an S field is
found in the typed state that holds that condition. -/
def RegName.reset (r : RegName) (i _j : Nat) : Word :=
  match r with
  | .calSetDate => 0x00010100
  | .bnCtrl => 0x00000002
  | .bnOwn => BitVec.ofNat 32 (2 ^ i)
  | .feMode => BitVec.ofNat 32 (i * 0x100)
  | .fePod => 0x000002A5
  | .trgCfg => 0x00000001
  | .trgCntLim => 0x00000001
  | .trgEdge => BitVec.ofNat 32 (32 * i)
  | .trgWcCfg => BitVec.ofNat 32 i
  | .trgWcMask => 0xFFFFFFFF
  | .trgWcB => 0xFFFFFFFF
  | .sknPre => 0x00000400
  | .sknPost => 0x00000C00
  | .plyCfg => 0x00000032
  | .plyBurst => 0x00000040
  | .cmpSCfg => 0x00000201
  | .slLCfg => 0x00000017
  | .slScrubCfg => 0x001E2028
  | .slWlCfg => 0x003201F4
  | .iuCfg => 0x00000020
  | .iuTmoLo => 0x17D78400
  | .iuCtrl => 0x00140100
  | .twCfg => 0x00000D00
  | .twStretchMax => 0x000003E8
  | .twRetryLimit => 0x00000010
  | .twBackoff => 0x00000032
  | .rplCfg => 0x0A000300
  | _ => 0

/-- GLB_PARAM0.BENCHES (R857). -/
def Member.benches : Member → Nat
  | .a1 => 1 | .a3 => 2 | .a5 => 4 | .a7 => 4 | .a9 => 8

/-- GLB_PARAM0.PODS (R857). -/
def Member.pods : Member → Nat
  | .a1 => 1 | .a3 => 1 | .a5 => 2 | .a7 => 4 | .a9 => 8

/-- GLB_PARAM0.QUEUES, which is BENCHES × 8 (R4). -/
def Member.queues (m : Member) : Nat := m.benches * 8

/-- GLB_PARAM1.LANES (R857). -/
def Member.lanes : Member → Nat
  | .a1 => 0 | .a3 => 1 | .a5 => 1 | .a7 => 1 | .a9 => 2

/-- GLB_PARAM1.CMP_ENG (R857). -/
def Member.cmpEngines : Member → Nat
  | .a1 => 1 | .a3 => 1 | .a5 => 2 | .a7 => 2 | .a9 => 4

/-- GLB_PARAM1.SEARCH_ENG (R857). -/
def Member.searchEngines : Member → Nat
  | .a1 => 0 | .a3 => 1 | .a5 => 1 | .a7 => 2 | .a9 => 2

/-- GLB_PARAM1.DECODE_ENG (R857). -/
def Member.decodeEngines : Member → Nat
  | .a1 => 1 | .a3 => 1 | .a5 => 2 | .a7 => 2 | .a9 => 2

/-- GLB_PARAM3.PLIES: the smaller of 4 and the number of benches (R857). -/
def Member.plies (m : Member) : Nat := min 4 m.benches

/-- GLB_PARAM0 (R857). -/
def Member.param0 : Member → Word
  | .a1 => 0x08110008 | .a3 => 0x10120020 | .a5 => 0x20240040 | .a7 => 0x20440080 | .a9 => 0x40880100

/-- GLB_PARAM1 (R857). -/
def Member.param1 : Member → Word
  | .a1 => 0x10100060 | .a3 => 0x11110100 | .a5 => 0x21210200 | .a7 => 0x22210400 | .a9 => 0x22420600

/-- GLB_PARAM2 with STEP 0 (R857). -/
def Member.param2 : Member → Word
  | .a1 => 0x003F0001 | .a3 => 0x003F0003 | .a5 => 0x003F0005 | .a7 => 0x003F0007 | .a9 => 0x003F0009

/-- GLB_PARAM3 (R857). -/
def Member.param3 : Member → Word
  | .a1 => 0x008101AA | .a3 => 0x008202AC | .a5 => 0x008404B6 | .a7 => 0x00840503 | .a9 => 0x00840A2F

/-- Engine e is on the member (R320, R854). -/
def Member.hasEngine (m : Member) (e : Nat) : Bool :=
  e < m.cmpEngines || (4 ≤ e && e < 4 + m.searchEngines) || (6 ≤ e && e < 6 + m.decodeEngines) || e == 8

/-- The register exists on the member (R854). -/
def Reg.present (m : Member) (r : Reg) : Bool :=
  match r.name.presence with
  | .always => true
  | .bench => r.i < m.benches
  | .benchPod => r.i < m.benches && r.j < m.pods
  | .benchPod4 => r.i < m.benches && r.j / 4 < m.pods
  | .queue => r.i < m.queues
  | .engine => m.hasEngine r.i
  | .cmpEngine => r.i < m.cmpEngines
  | .ply => r.i < m.plies
  | .lane => r.i < m.lanes
  | .anyLane => 1 ≤ m.lanes
  | .laneBench => 1 ≤ m.lanes && r.i < m.benches

/-! ### Addresses -/

/-- The normal address of a register (R851). -/
def Reg.addr (r : Reg) : Nat :=
  match r.name.row.dims with
  | [] => r.name.row.base
  | [d] => r.name.row.base + r.i * d.2
  | d :: e :: _ => r.name.row.base + r.i * d.2 + r.j * e.2

/-- The instance of a row at normal address `a`, if it has one. -/
def RegName.at (n : RegName) (a : Nat) : Option Reg :=
  let row := n.row
  if a < row.base then none
  else
    let off := a - row.base
    match row.dims with
    | [] => if off = 0 then some ⟨n, 0, 0⟩ else none
    | [d] => if off % d.2 = 0 ∧ off / d.2 < d.1 then some ⟨n, off / d.2, 0⟩ else none
    | d :: e :: _ =>
      if off / d.2 < d.1 ∧ off % d.2 % e.2 = 0 ∧ off % d.2 / e.2 < e.1 then some ⟨n, off / d.2, off % d.2 / e.2⟩
      else none

/-- The rows that may name an address, by its bits [15:12] (R850). -/
def regsOfBlock : Nat → List RegName
  | 0 => regsGlb
  | 1 => regsAon
  | 2 | 3 | 4 | 5 => regsBench
  | 6 => regsQueue
  | 7 => regsEngine
  | 8 => regsUnit
  | 9 => regsRef
  | _ => []

/-- The register at a normal address, whatever the member (R850, R851); an address that no row names is reserved. -/
def regAt (a : Nat) : Option Reg :=
  (regsOfBlock (a / 0x1000)).findSome? fun n => n.at a

/-- The bits of a register that lie in fields of a class. -/
def RegRow.bits (r : RegRow) (k : Cls) : Word :=
  r.fields.foldr (fun f acc => if f.cls = k then acc ||| maskW f.hi f.lo else acc) 0

/-- The bits that the register stores: its C, G and A fields. -/
def RegRow.stored (r : RegRow) : Word := r.bits .c ||| r.bits .g ||| r.bits .a

/-- The reset value of the stored word at a normal address (R852). -/
def regDefault (a : Nat) : Word :=
  match regAt a with
  | some r => r.name.reset r.i r.j
  | none => 0

/-- The register bank of a normal address: its bits [15:11] (R751, R850). -/
def bankOf (a : Nat) : Nat := a / 0x800

/-- The bench whose window holds a normal address (R12, R850). -/
def windowOf (a : Nat) : Option Nat :=
  if 0x2000 ≤ a ∧ a < 0x6000 then some ((a - 0x2000) / 0x800) else none

end Sys2Proof.Machine
end

