-- ==== Sys2Proof/Machine/Ops.lean ====
section
/-! DEFINITION. The named operations over the state's registers and arrays: one read and one write for each store, the
stored and the in-effect word of a register, and the counters.  Every meaning goes through them. -/

namespace Sys2Proof.Machine

/-! ### Registers -/

/-- The stored word (C, A and pending G fields) at a normal address. -/
def State.regWord (s : State) (a : Nat) : Word := Store.get regDefault s.regs a

/-- The in-effect word (G fields) at a normal address. -/
def State.actWord (s : State) (a : Nat) : Word := Store.get regDefault s.act a

/-- The list of flipped register copies without those of one copy. -/
def cureCopy (l : List Corrupt) (a : Nat) (inEffect : Bool) : List Corrupt :=
  l.filter fun x => !(decide (x.addr = a) && x.inEffect == inEffect)

/-- Write a stored word; its parity bit is computed afresh (R202). -/
def State.setRegWord (s : State) (a : Nat) (w : Word) : State :=
  { s with regs := Store.put regDefault s.regs a w, badParity := cureCopy s.badParity a false }

/-- Write an in-effect word; its parity bit is computed afresh (R202). -/
def State.setActWord (s : State) (a : Nat) (w : Word) : State :=
  { s with act := Store.put regDefault s.act a w, badParity := cureCopy s.badParity a true }

/-- The stored word of a named register. -/
def State.rd (s : State) (n : RegName) (i : Nat := 0) (j : Nat := 0) : Word := s.regWord (Reg.addr ⟨n, i, j⟩)

/-- The word of a named register whose G fields are those in effect (R171). -/
def State.eff (s : State) (n : RegName) (i : Nat := 0) (j : Nat := 0) : Word :=
  let g := n.row.bits .g
  (s.regWord (Reg.addr ⟨n, i, j⟩) &&& ~~~ g) ||| (s.actWord (Reg.addr ⟨n, i, j⟩) &&& g)

/-- Write the stored word of a named register. -/
def State.wr (s : State) (n : RegName) (i j : Nat) (w : Word) : State := s.setRegWord (Reg.addr ⟨n, i, j⟩) w

/-- Write the stored and the in-effect word of a named register. -/
def State.wrBoth (s : State) (n : RegName) (i j : Nat) (w : Word) : State :=
  (s.setRegWord (Reg.addr ⟨n, i, j⟩) w).setActWord (Reg.addr ⟨n, i, j⟩) w

/-- Write one field of a named register's stored word. -/
def State.wrFld (s : State) (n : RegName) (i j hi lo v : Nat) : State := s.wr n i j (setFld (s.rd n i j) hi lo v)

/-! ### Counters of class A -/

/-- Add `k` to a counter field that saturates at its maximum. -/
def State.bumpSat (s : State) (n : RegName) (i j hi lo k : Nat) : State :=
  s.wrFld n i j hi lo (satAdd (2 ^ (hi + 1 - lo) - 1) (fld (s.rd n i j) hi lo) k)

/-- Add `k` to a counter field that wraps (R177). -/
def State.bumpWrap (s : State) (n : RegName) (i j hi lo k : Nat) : State :=
  s.wrFld n i j hi lo (fld (s.rd n i j) hi lo + k)

/-- The value of a 64-bit accumulator, by its LO and HI registers (R178). -/
def State.acc64 (s : State) (lo hi : RegName) (i : Nat) : Nat := ofLoHi (s.rd lo i) (s.rd hi i)

/-- Add to a 64-bit accumulator; it wraps (R177, R178). -/
def State.addAcc (s : State) (lo hi : RegName) (i k : Nat) : State :=
  let v := s.acc64 lo hi i + k
  (s.wr lo i 0 (W v)).wr hi i 0 (W (v / 2 ^ 32))

/-- A software write to a Distaff counter: it falls on the next AON tick (R113). -/
def writeCounter (s : State) (c : Nat) (w : Word) : State :=
  let s := s.wr .dstCnt c 0 w
  { s with distaff := { s.distaff with written := c :: s.distaff.written.filter (· != c) } }

/-! ### Arrays: what an instance that nothing has written holds -/

/-- A bench session as it stands after reset. -/
def Session.init (_ : Nat) : Session := {}
/-- A trigger sequencer as it stands after reset. -/
def Sequencer.init (_ : Nat) : Sequencer := {}
/-- A bench's capture as it stands after reset. -/
def Capture.init (_ : Nat) : Capture := {}
/-- A compression stream as it stands after reset. -/
def CmpStream.init (_ : Nat) : CmpStream := {}
/-- A pod as it stands after reset. -/
def Pod.init (_ : Nat) : Pod := {}
/-- A command stream as it stands after reset. -/
def CmdStream.init (_ : Nat) : CmdStream := {}
/-- An engine as it stands after reset. -/
def Engine.init (_ : Nat) : Engine := {}
/-- A lane as it stands after reset. -/
def Lane.init (_ : Nat) : Lane := {}
/-- A queue as it stands after reset. -/
def Queue.init (_ : Nat) : Queue := {}
/-- An access path as it stands after reset. -/
def PathState.init (_ : Nat) : PathState := {}
/-- An endpoint pair as it stands after reset. -/
def Endpoint.init (_ : Nat) : Endpoint := {}
/-- A hank that nothing has used. -/
def Hank.init (_ : Nat) : Hank := {}

/-- The session of bench `n`. -/
def State.sess (s : State) (n : Nat) : Session := s.sessions.get Session.init n
/-- Write the session of bench `n`. -/
def State.setSess (s : State) (n : Nat) (x : Session) : State := { s with sessions := s.sessions.put Session.init n x }
/-- The sequencer of bench `n`. -/
def State.seqr (s : State) (n : Nat) : Sequencer := s.seqs.get Sequencer.init n
/-- Write the sequencer of bench `n`. -/
def State.setSeqr (s : State) (n : Nat) (x : Sequencer) : State := { s with seqs := s.seqs.put Sequencer.init n x }
/-- The capture of bench `n`. -/
def State.cap (s : State) (n : Nat) : Capture := s.caps.get Capture.init n
/-- Write the capture of bench `n`. -/
def State.setCap (s : State) (n : Nat) (x : Capture) : State := { s with caps := s.caps.put Capture.init n x }
/-- The compression stream of bench `n`. -/
def State.cmp (s : State) (n : Nat) : CmpStream := s.cmps.get CmpStream.init n
/-- Write the compression stream of bench `n`. -/
def State.setCmp (s : State) (n : Nat) (x : CmpStream) : State := { s with cmps := s.cmps.put CmpStream.init n x }
/-- Pod `p`. -/
def State.pod (s : State) (p : Nat) : Pod := s.pods.get Pod.init p
/-- Write pod `p`. -/
def State.setPod (s : State) (p : Nat) (x : Pod) : State := { s with pods := s.pods.put Pod.init p x }
/-- Engine `e`. -/
def State.engine (s : State) (e : Nat) : Engine := s.engines.get Engine.init e
/-- Write engine `e`. -/
def State.setEngine (s : State) (e : Nat) (x : Engine) : State := { s with engines := s.engines.put Engine.init e x }
/-- Lane `x`. -/
def State.lane (s : State) (x : Nat) : Lane := s.lanes.get Lane.init x
/-- Write lane `x`. -/
def State.setLane (s : State) (x : Nat) (v : Lane) : State := { s with lanes := s.lanes.put Lane.init x v }
/-- Queue `q`: 0 to 63, AQC as 64, AQR as 65, and the USB admin buffers as 66 (OUT) and 67 (IN). -/
def State.queue (s : State) (q : Nat) : Queue := s.queues.get Queue.init q
/-- Write queue `q`. -/
def State.setQueue (s : State) (q : Nat) (x : Queue) : State := { s with queues := s.queues.put Queue.init q x }
/-- An endpoint pair, by endpoint number. -/
def State.endpoint (s : State) (e : Nat) : Endpoint := s.usb.endpoints.get Endpoint.init e
/-- Write an endpoint pair. -/
def State.setEndpoint (s : State) (e : Nat) (x : Endpoint) : State :=
  { s with usb := { s.usb with endpoints := s.usb.endpoints.put Endpoint.init e x } }

/-- The code of an access path (GLB_BUSERR.PATH). -/
def pathCode : Path → Nat
  | .survo => 0 | .usb => 1 | .twoWire => 2

/-- What the register window keeps for a path. -/
def State.path (s : State) (p : Path) : PathState := s.paths.get PathState.init (pathCode p)
/-- Write what the register window keeps for a path. -/
def State.setPath (s : State) (p : Path) (x : PathState) : State :=
  { s with paths := s.paths.put PathState.init (pathCode p) x }

/-- The number of a command stream: its bench, 8 for the USB and 9 for the two-wire admin stream (R271). -/
def streamKey : Stream → Nat
  | .bench n => n.val | .adminUsb => 8 | .adminTw => 9

/-- What Survo firmware keeps for a command stream. -/
def State.stream (s : State) (st : Stream) : CmdStream := s.streams.get CmdStream.init (streamKey st)
/-- Write what Survo firmware keeps for a command stream. -/
def State.setStream (s : State) (st : Stream) (x : CmdStream) : State :=
  { s with streams := s.streams.put CmdStream.init (streamKey st) x }

/-- A hank of a lane. -/
def Lane.hank (l : Lane) (h : Nat) : Hank := l.hanks.get Hank.init h
/-- Write a hank of a lane. -/
def Lane.setHank (l : Lane) (h : Nat) (x : Hank) : Lane := { l with hanks := l.hanks.put Hank.init h x }

/-! ### Conditions used throughout -/

/-- The family member. -/
def State.member (s : State) : Member := s.part.member

/-- The fast domain runs: the A9 is AWAKE and out of reset (R80, R126). -/
def State.live (s : State) : Bool := decide (s.power.state = .awake) && !s.power.fastReset

/-- PHASE is READY (R129). -/
def State.isReady (s : State) : Bool := decide (s.boot.phase = .ready)

/-- Survo firmware runs: it has started and the fast domain runs (R129). -/
def State.survoRuns (s : State) : Bool :=
  s.live && (match s.boot.phase with
    | .fwStart | .bbt | .pods | .ready => true
    | .none | .rom | .recovery | .failed => false)

/-- The state of bench `n`. -/
def State.bstate (s : State) (n : Nat) : BenchState := (s.sess n).state

/-- Move bench `n` to a state. -/
def State.setBState (s : State) (n : Nat) (b : BenchState) : State := s.setSess n { s.sess n with state := b }

/-- The code of a bench state (BN_STATUS.STATE). -/
def BenchState.code : BenchState → Nat
  | .closed => 0 | .idle => 1 | .armed => 2 | .capturing => 3 | .resetting => 4 | .halted => 5

/-- Bench numbers of the member. -/
def State.benchList (s : State) : List Nat := List.range s.member.benches

/-- The ply in effect of bench `n` (BN_OWN.PLY). -/
def State.plyOf (s : State) (n : Nat) : Nat := fld (s.eff .bnOwn n) 9 8

/-- The pods that bench `n` claims in effect (BN_OWN.PODS). -/
def State.podsOf (s : State) (n : Nat) : Nat := fld (s.eff .bnOwn n) 7 0

/-- The bench that owns pod `p`: the lowest-numbered one that claims it (R13, R45). -/
def State.ownerOf (s : State) (p : Nat) : Option Nat := s.benchList.find? fun n => (s.podsOf n).testBit p

/-- Bench `n` owns pod `p`. -/
def State.owns (s : State) (n p : Nat) : Bool := decide (s.ownerOf p = some n) && decide (p < s.member.pods)

/-- The ply in effect of engine `e` (ENG_e_CFG.PLY). -/
def State.engPly (s : State) (e : Nat) : Nat := fld (s.eff .engCfg e) 5 4

/-- A free value of `w` bits: the next one, and the state with it drawn. -/
def State.draw (s : State) (w : Nat) : Nat × State :=
  (Config.freeValue s.free % 2 ^ w, { s with free := s.free + 1 })

/-- Fold an operation over a list of numbers. -/
def State.each {α : Type} (s : State) (l : List α) (f : State → α → State) : State := l.foldl f s

/-- Open Bench mode is in effect (GLB_MODE.OPEN_ACTIVE). -/
def State.openBench (s : State) : Bool := s.fw.openMode

end Sys2Proof.Machine
end

