-- ==== Sys2Proof/Machine/Errors.lean ====
section
/-! DEFINITION. Errors and divergences: how a unit names the resource an error concerns to the Referee (R751 to R754,
R778 to R780), and how the replay comparator records a divergence (R836, R837). -/

namespace Sys2Proof.Machine

/-! ### Status codes (R291) -/

/-- The status codes of responses and completion events (R291). -/
inductive Status where
  | done | accepted | badOpcode | badArg | badState | noPermission | noSpace | partial_ | faultLet | retired | timeout
  | abortedByReset | verifyMismatch | internal
  deriving DecidableEq, Repr

/-- The code of a status (R291). -/
def Status.code : Status → BitVec 8
  | .done => 0x00 | .accepted => 0x01 | .badOpcode => 0x10 | .badArg => 0x11 | .badState => 0x12
  | .noPermission => 0x13 | .noSpace => 0x20 | .partial_ => 0x21 | .faultLet => 0x30 | .retired => 0x31
  | .timeout => 0x40 | .abortedByReset => 0x50 | .verifyMismatch => 0x60 | .internal => 0x7F

/-! ### Resource IDs (R751) -/

/-- A resource ID from its TYPE and INDEX (R751). -/
def resId (type index : Nat) : Word := W (type * 2 ^ 28 + index)

/-- TYPE of a resource ID (R751). -/
def resType (r : Word) : Nat := fld r 31 28

/-- INDEX of a resource ID (R751). -/
def resIndex (r : Word) : Nat := fld r 27 0

/-- The resource ID of channel 32 × p + d (R751). -/
def resChannel (c : Nat) : Word := resId 1 c
/-- The resource ID of a queue or admin chain (R751). -/
def resQueue (q : Nat) : Word := resId 2 q
/-- The resource ID of a capture SRAM bank (R751). -/
def resSram (b : Nat) : Word := resId 3 b
/-- The resource ID of an engine (R751). -/
def resEngine (e : Nat) : Word := resId 4 e
/-- The resource ID of a NAND block (R751). -/
def resBlock (lane block : Nat) : Word := resId 5 (lane * 2 ^ 24 + block)
/-- The resource ID of a lane (R751). -/
def resLane (x : Nat) : Word := resId 6 x
/-- The resource ID of a register bank (R751). -/
def resBank (b : Nat) : Word := resId 7 b
/-- The resource ID of the two-wire pads (R751). -/
def resPads : Word := resId 8 0

/-- The bench that owns a resource: a channel's, a queue's, a bobbin bank's or a bench window's; `none` for a part-wide one (R205,
R774). -/
def State.resOwner (s : State) (r : Word) : Option Nat :=
  match resType r with
  | 1 => s.ownerOf (resIndex r / 32)
  | 2 => if resIndex r < 64 then some (resIndex r / 8) else none
  | 3 => if resIndex r < 80 then some (resIndex r / 10) else none
  | 7 => if 4 ≤ resIndex r ∧ resIndex r < 12 then some (resIndex r - 4) else none
  | _ => none

/-- The resource is retired and has not rejoined (R772); a NAND block is while its lane's bad-block table lists it. -/
def State.isRetired (s : State) (r : Word) : Bool :=
  s.ref.retired.any (fun p => decide (p.1 = r)) ||
    (decide (resType r = 5) &&
      (s.lane (resIndex r / 2 ^ 24)).bad.any fun b => decide (b.1 = resIndex r % 2 ^ 24))

/-- The resource is on probation (R771). -/
def State.onProbation (s : State) (r : Word) : Bool := s.ref.probation.contains r

/-- A test of the resource waits or runs (R778). -/
def State.underTest (s : State) (r : Word) : Bool :=
  s.ref.waiting.any (fun t => decide (t.res = r)) || s.ref.running.any (fun t => decide (t.res = r))

/-- The fault code a resource was retired with; the type's code where the log of the retire is gone (R752). -/
def State.retireCode (s : State) (r : Word) : Nat :=
  match s.ref.retired.find? fun p => decide (p.1 = r) with
  | some p => p.2
  | none => resType r * 256

/-! ### Divergence (R836, R837) -/

/-- Record a divergence of a replay: the first one in RPL_DIV_TICK, RPL_DIV and RPL_DIV_WORD, every one in RPL_DIV_CNT;
the replay ends at the first unless CONTINUE is set, and always at GAP, REAL_FAULT and LOG_ERROR (R836 to R838). -/
def diverge (s : State) (kind tick source word : Nat) : State :=
  if s.rpl.state ≠ .replaying then s
  else
    let s := s.bumpSat .rplDivCnt 0 0 15 0 1
    let r := if s.rpl.diverged then s.rpl
      else { s.rpl with diverged := true, divTick := tick, divKind := kind, divSource := source, divWord := word }
    let ends := !bitB (s.rd .rplCfg) 17 || kind == 6 || kind == 7 || kind == 8
    let out : BitVec 8 :=
      if kind = 6 ∨ kind = 8 then Status.partial_.code else if kind = 7 then Status.retired.code else Status.verifyMismatch.code
    let r := if kind = 6 then { r with gapSeen := true } else r
    { s with rpl := if ends then { r with state := .stopping, outcome := some out } else r }

/-! ### Errors -/

/-- An error on a resource (R753, R754): it joins a test that waits or runs (R778) or a re-test (R779), is dropped for a
retired resource (R780), and otherwise waits for a test of its own.  In a replay an error that no REF entry of its tick
names is a divergence (R835). -/
def raiseFault (s : State) (res : Word) (code : Nat) : State :=
  if s.isRetired res || s.underTest res || s.onProbation res then s
  else
    let s := if s.rpl.state = .replaying then { s with rpl := { s.rpl with seen := s.rpl.seen ++ [res] } } else s
    if s.rpl.state = .replaying ∧ s.rpl.refsNow.contains res then s
    else
      let s := if s.rpl.state = .replaying then diverge s 5 s.rpl.tick 0 0 else s
      { s with ref := { s.ref with waiting := s.ref.waiting ++ [⟨res, code, 0, false, false, none, none⟩] } }

/-- A test that a command requests (R759, R786): REF_TEST, REF_RETURN, FE_HEALTH or a GO of REF_TEST_CTL. -/
def requestTest (s : State) (res : Word) (retest : Bool) (by_ : Option (BitVec 16 × Stream × BitVec 8)) : State :=
  { s with ref := { s.ref with waiting := s.ref.waiting ++ [⟨res, resType res * 256, 0, true, retest, by_, none⟩] } }

end Sys2Proof.Machine
end

