-- ==== Sys2Proof/Machine/Queues.lean ====
section
/-! DEFINITION. The hardware queues: pushing, falling, delivering and flushing words (R218 to R261).

A queue is its occupied stages.  In each HCLK cycle every word moves one stage down where the stage below is empty (R220);
QUEUE_WORD_FALL lets cycles pass, and the cycles that a unit waits for stage 15 between two words of its own pass within its row.
The USB admin buffers lie in Survo SRAM and have no stages: a word stands there behind those before it (R250). -/

namespace Sys2Proof.Machine

/-- The two-bit code of a tag (R224). -/
def Tag.code : Tag → Nat
  | .data => 0 | .idle => 1 | .poison => 2 | .mark => 3

/-- The tag of a two-bit code (R224). -/
def tagOfCode : Nat → Tag
  | 0 => .data | 1 => .idle | 2 => .poison | _ => .mark

/-- XOR of bits [65:0] of a queue word (R224). -/
def wordParity (d : DWord) (t : Tag) : Bool :=
  decide (((onesBelow 64 d.toNat).length + (onesBelow 2 t.code).length) % 2 = 1)

/-- A word as a queue accepts it, with its PARITY computed (R227). -/
def mkQWord (d : DWord) (t : Tag) : QWord := ⟨d, t, wordParity d t⟩

/-- The words of a queue, oldest first. -/
def Queue.words (q : Queue) : List QWord := q.stages.map Prod.snd

/-- The word in stage 0, from which alone a read is delivered (R221). -/
def Queue.bottom (q : Queue) : Option QWord :=
  match q.stages with
  | (0, w) :: _ => some w
  | _ => none

/-- Words that stand in the stages from stage 0 up. -/
def stacked (ws : List QWord) : List (Nat × QWord) := ws.mapIdx fun i w => (i, w)

/-- Stage 15 is occupied. -/
def topTaken (l : List (Nat × QWord)) : Bool := l.any fun x => x.1 == 15

/-- One HCLK cycle: every word moves one stage down wherever the stage below it is empty (R220). -/
def fallOnce (l : List (Nat × QWord)) : List (Nat × QWord) :=
  l.map fun x => if x.1 = 0 ∨ l.any (fun y => y.1 + 1 == x.1) then x else (x.1 - 1, x.2)

/-- Some HCLK cycles. -/
def fallFor : Nat → List (Nat × QWord) → List (Nat × QWord)
  | 0, l => l
  | k + 1, l => fallFor k (fallOnce l)

/-- The cycles that pass until stage 15 is empty, where there is an empty stage below it; `fuel` bounds them. -/
def freeTop : Nat → List (Nat × QWord) → List (Nat × QWord)
  | 0, l => l
  | fuel + 1, l => if topTaken l then freeTop fuel (fallOnce l) else l

/-- Q_STATUS.COUNT: the words still falling among them (R222). -/
def Queue.count (q : Queue) : Nat := q.stages.length

/-- Q_STATUS.EMPTY: stage 0 is empty (R222). -/
def Queue.isEmpty (q : Queue) : Bool := q.bottom.isNone

/-- Q_STATUS.FULL: stage 15 is occupied (R222). -/
def Queue.isFull (q : Queue) : Bool := topTaken q.stages

/-- The path a producer's pushes count under for WLOCK (R242); a bulk OUT frame counts under USB. -/
def Producer.lockPath : Producer → Option Path
  | .path p => some p
  | .bulkOut => some .usb
  | .unit => none

/-- The queue is a CMD queue or the admin command chain (R218, R247). -/
def isCmdQueue (q : Nat) : Bool := (decide (q < 64) && q % 8 == 0) || q == 64

/-- A push of this producer finds the write side reserved for another path (R242). -/
def Queue.lockedOut (q : Queue) (p : Producer) : Bool :=
  match q.wlock, p.lockPath with
  | some (owner, _), some p => decide (owner ≠ p)
  | _, _ => false

/-- WLOCK after a push: a MARK word reserves the write side for 7 further words (R242). -/
def Queue.lockAfter (q : Queue) (p : Producer) (t : Tag) : Option (Path × Nat) :=
  match p.lockPath with
  | none => q.wlock
  | some p =>
    if t = .mark then some (p, 7)
    else match q.wlock with
      | some (owner, k) => if owner = p then (if k ≤ 1 then none else some (owner, k - 1)) else q.wlock
      | none => none

/-- Place a word in stage 15 of queue `n` (R220). -/
def Queue.place (q : Queue) (n : Nat) (p : Producer) (w : QWord) : Queue :=
  { q with
    stages := q.stages ++ [(if n < 66 then 15 else q.count, w)]
    wlock := if isCmdQueue n then q.lockAfter p w.tag else q.wlock }

/-- A push can take place now: stage 15 is empty, no march test runs, no other path holds the write side, and no earlier push that could
take place waits (R239, R242). -/
def Queue.canPush (q : Queue) (p : Producer) : Bool :=
  !q.isFull && !q.testing && !q.lockedOut p && q.waiting.all fun w => q.lockedOut w.1

/-- The producer is a unit, which waits for stage 15 between its words, and not an access path (R239). -/
def Producer.isUnit : Producer → Bool
  | .path _ => false
  | .bulkOut => true
  | .unit => true

/-- A queue as a producer's word meets it: cycles pass while a unit waits for stage 15. -/
def Queue.met (q : Queue) (p : Producer) : Queue := if p.isUnit then { q with stages := freeTop 15 q.stages } else q

/-- Add to a field of Q_CNT of a queue or an admin chain; the USB admin buffers have none. -/
def State.bumpQCnt (s : State) (q hi lo : Nat) : State :=
  if q < 64 then s.bumpSat .qCnt q 0 hi lo 1
  else if q < 66 then s.bumpSat .glbAqCnt (q - 64) 0 hi lo 1
  else s

/-- Q_CTL.HOLD of a queue (R234). -/
def State.qHold (s : State) (q : Nat) : Bool :=
  if q < 64 then bitB (s.rd .qCtl q) 0
  else if q < 66 then bitB (s.rd .glbAqCtl (q - 64)) 0
  else false

/-- The bulk IN endpoint that a queue feeds, and what it feeds it with: 1 for RSP frames, 2 for EVT words (R726, R731). -/
def feedsOf (q : Nat) : Option (Nat × Nat) :=
  if q < 64 ∧ q % 8 = 1 then some (q / 8 + 1, 1)
  else if q < 64 ∧ q % 8 = 2 then some (q / 8 + 1, 2)
  else if q = 67 then some (9, 1) else none

/-- A first word has entered a queue: its container takes its turn on the endpoint the queue feeds (R733). -/
def noteIn (s : State) (q : Nat) (t : Tag) : State :=
  match feedsOf q with
  | none => s
  | some (e, k) =>
    if t = .mark then s.setEndpoint e { s.endpoint e with order := (s.endpoint e).order ++ [k] } else s

/-- A first word has left a queue. -/
def noteOut (s : State) (q : Nat) (t : Tag) : State :=
  match feedsOf q with
  | none => s
  | some (e, k) =>
    if t = .mark then s.setEndpoint e { s.endpoint e with order := (s.endpoint e).order.erase k } else s

/-- A queue has been emptied: nothing of it takes a turn. -/
def noteFlush (s : State) (q : Nat) : State :=
  match feedsOf q with
  | none => s
  | some (e, k) =>
    s.setEndpoint e { s.endpoint e with order := (s.endpoint e).order.filter fun x => decide (x ≠ k) }

/-- A push of this producer enters the queue now. -/
def State.pushFits (s : State) (q : Nat) (p : Producer) : Bool := !(s.queue q).retired && ((s.queue q).met p).canPush p

/-- Push a word: a retired queue discards it and counts a DROP (R230); a push that cannot take place waits (R239);
otherwise the word enters stage 15 (R220, R242). -/
def pushWord (s : State) (q : Nat) (p : Producer) (d : DWord) (t : Tag) : State :=
  let x := (s.queue q).met p
  if x.retired then s.bumpQCnt q 11 0
  else if x.canPush p then noteIn (s.setQueue q (x.place q p (mkQWord d t))) q t
  else s.setQueue q { x with waiting := x.waiting ++ [(p, mkQWord d t)] }

/-- Push the words of one frame, descriptor or record: the first tagged MARK, the others DATA (R225). -/
def pushRecord (s : State) (q : Nat) (p : Producer) : List DWord → State
  | [] => s
  | d :: t => t.foldl (fun s d => pushWord s q p d .data) (pushWord s q p d .mark)

/-- Room for `k` more words, none of them waiting, once stage 15 has emptied (R241). -/
def Queue.roomFor (q : Queue) (k : Nat) : Bool :=
  q.retired || (decide (q.count + k ≤ 16) && !q.testing && q.waiting.isEmpty)

/-- The waiting push whose turn it is: the oldest that no WLOCK of another path holds back, with the others (R239, R242). -/
def Queue.nextWaiting (q : Queue) : Option ((Producer × QWord) × List (Producer × QWord)) :=
  match q.waiting.findIdx? fun w => q.retired || !q.lockedOut w.1 with
  | some i => (q.waiting[i]?).map fun w => (w, q.waiting.eraseIdx i)
  | none => none

/-- A waiting push completes once stage 15 is empty (R239, R252, R254). -/
def completePush (s : State) (q : Nat) : State :=
  let x := s.queue q
  match x.nextWaiting with
  | none => s
  | some ((p, w), rest) =>
    let y := ({ x with waiting := rest } : Queue).met p
    if x.retired then (s.setQueue q { x with waiting := rest }).bumpQCnt q 11 0
    else if !y.isFull && !y.testing then noteIn (s.setQueue q (y.place q p w)) q w.tag
    else s

/-- Flip one stored bit of a queue word: data, tag or PARITY (R224). -/
def QWord.flip (w : QWord) (b : Nat) : QWord :=
  if b < 64 then { w with data := w.data ^^^ BitVec.ofNat 64 (2 ^ b) }
  else if b < 66 then { w with tag := tagOfCode (w.tag.code ^^^ 2 ^ (b - 64)) }
  else { w with par := !w.par }

/-- HCLK cycles pass in a queue (R220, R221); `upset` is a stored bit that has flipped meanwhile: the stage and the bit.  After 32
cycles no word moves any more. -/
def fallQueue (s : State) (q cycles : Nat) (upset : Option (Nat × Nat)) : State :=
  let x := s.queue q
  let l := fallFor (min cycles 32) x.stages
  let l := match upset with
    | none => l
    | some (i, b) => l.map fun w => if w.1 = i then (i, w.2.flip b) else w
  s.setQueue q { x with stages := l }

/-- A unit waits until the words of a queue have fallen. -/
def settleQueue (s : State) (q : Nat) : State := s.setQueue q { s.queue q with stages := stacked (s.queue q).words }

/-- The bench that owns queue `q` is RESETTING (R245). -/
def State.queueResetting (s : State) (q : Nat) : Bool :=
  decide (q < 64) && decide (s.bstate (q / 8) = .resetting)

/-- A read of a queue that finds stage 0 empty (R235, R236). -/
def emptyRead (s : State) (q : Nat) : QWord × State :=
  let x := s.queue q
  if s.qHold q then (x.held, (s.setQueue q { x with underrun := true }).bumpQCnt q 23 12)
  else (QWord.idle, s)

/-- A read that delivers: the word of stage 0, or the empty behaviour (R221, R227, R228, R230, R235 to R238, R245). -/
def deliver (s : State) (q : Nat) : QWord × State :=
  let x := s.queue q
  if s.queueResetting q then (QWord.idle, s)
  else if x.retired then ({ QWord.idle with tag := .poison }, s)
  else match x.testing, x.bottom with
    | true, _ => emptyRead s q
    | false, none => emptyRead s q
    | false, some w =>
      let good := decide (wordParity w.data w.tag = w.par)
      let out : QWord := if good then w else { w with tag := .poison }
      let s := noteOut (s.setQueue q { x with
        stages := if q < 66 then x.stages.drop 1 else stacked (x.words.drop 1), held := out, underrun := false }) q w.tag
      if good then (out, s) else (out, raiseFault (s.bumpQCnt q 31 24) (resQueue q) 0x0201)

/-- The word a read of stage 0 shows without delivering it (R224, "Q_RD_HI" and the ACTIVE view). -/
def peekQueue (s : State) (q : Nat) : QWord :=
  let x := s.queue q
  if s.queueResetting q then QWord.idle
  else if x.retired then { QWord.idle with tag := .poison }
  else match x.testing, x.bottom with
    | false, some w => if wordParity w.data w.tag = w.par then w else { w with tag := .poison }
    | _, _ => if s.qHold q then x.held else QWord.idle

/-- A flush: every word discarded, the held value set to the idle word, WLOCK released; words saved for a march test are
discarded too (R238, R243, R255). -/
def flushQueue (s : State) (q : Nat) : State :=
  noteFlush (s.setQueue q
    { s.queue q with stages := [], held := QWord.idle, wlock := none, saved := [] }) q

/-- Flush the eight queues of a bench (R244). -/
def flushBench (s : State) (n : Nat) : State := s.each (List.range 8) fun s i => flushQueue s (n * 8 + i)

end Sys2Proof.Machine
end

