-- ==== Sys2Proof/Machine/Record.lean ====
section
/-! DEFINITION. Mboron's hooks: writing log entries while recording, and matching output items while replaying
(R815 to R823, R827, R830, R831, R836). -/

namespace Sys2Proof.Machine

/-- The first half of a log entry: TICK, NIB and TYPE (R815). -/
def LogEntry.head (e : LogEntry) : DWord :=
  BitVec.ofNat 64 (e.tick % 2 ^ 56 + (e.nib % 16) * 2 ^ 56 + (e.type % 16) * 2 ^ 60)

/-- The entry that two queue words spell (R815). -/
def logEntryOf (h b : DWord) : LogEntry :=
  ⟨h.toNat % 2 ^ 56, h.toNat / 2 ^ 60, h.toNat / 2 ^ 56 % 16, b⟩

/-- Bench `n` is recorded or replayed (RPL_CFG.BENCHES). -/
def State.rplNames (s : State) (n : Nat) : Bool := (s.rd .rplCfg).toNat.testBit n && decide (n < 8)

/-- A recording runs and includes bench `n`. -/
def State.recordsBench (s : State) (n : Nat) : Bool := decide (s.rpl.state = .recording) && s.rplNames n

/-- A replay runs, or has ended and not been cleared away yet: an answer that a synchronous command has waited for belongs to a
command of the log, since a replay starts with no such command pending and lets no other through (R826, R829). -/
def State.isReplaying (s : State) : Bool := decide (s.rpl.state = .replaying) || decide (s.rpl.state = .stopping)

/-- A replay runs and includes bench `n`. -/
def State.replaysBench (s : State) (n : Nat) : Bool := s.isReplaying && s.rplNames n

/-- RPL_CFG.HOME: the bench whose RPL queue carries part-wide entries (R822). -/
def State.homeBench (s : State) : Nat := fld (s.rd .rplCfg) 23 21

/-- Place an entry in the RPL queue of bench `b`, or in the recorder buffer while that queue has no room, or count it
lost when the buffer of 256 entries is full too (R822, R823). -/
def placeEntry (s : State) (b : Nat) (e : LogEntry) : State :=
  let q := b * 8 + 7
  if s.rpl.buffer.isEmpty && (s.queue q).roomFor 2 then
    (pushRecord s q .unit [e.head, e.body])
  else if s.rpl.buffer.length < 256 then { s with rpl := { s.rpl with buffer := s.rpl.buffer ++ [(b, e)] } }
  else { s.bumpSat .rplLost 0 0 31 0 1 with rpl := { s.rpl with gapCount := s.rpl.gapCount + 1 } }

/-- Write one log entry while recording: `b` is the bench whose RPL queue takes it (R820, R822). -/
def logEntry (s : State) (b : Nat) (e : LogEntry) : State :=
  if s.rpl.state = .recording then
    let s := (placeEntry s b e).addAcc .rplEntriesLo .rplEntriesHi 0 1
    { s with rpl := { s.rpl with tick := e.tick } }
  else s

/-- A part-wide entry (R820). -/
def logPart (s : State) (type : Nat) (body : Nat) : State :=
  logEntry s s.homeBench ⟨s.power.baseTick, type, 15, BitVec.ofNat 64 body⟩

/-- An entry of bench `n`, when it is recorded (R820). -/
def logBench (s : State) (n type : Nat) (body : Nat) : State :=
  if s.recordsBench n then logEntry s n ⟨s.power.baseTick, type, n, BitVec.ofNat 64 body⟩ else s

/-- BODY of a CHK entry (R816, R830). -/
def chkBody (source count : Nat) (crc : Word) (exempt : Bool) : Nat :=
  crc.toNat + source % 256 * 2 ^ 32 + count % 2 ^ 16 * 2 ^ 40 + bN exempt * 2 ^ 63

/-- Match an item with the next unmatched CHK entry of its SOURCE (R836). -/
def compareItem (s : State) (source count : Nat) (crc : Word) : State :=
  let seen := s.rpl.words.get (fun _ => 0) source
  let isOf (e : LogEntry) : Bool := decide (e.body.toNat / 2 ^ 32 % 256 = source)
  let s1 := { s with rpl := { s.rpl with words := s.rpl.words.put (fun _ => 0) source (seen + count) } }
  match s.rpl.checks.find? isOf with
  | none => diverge s1 3 s.rpl.tick source seen
  | some e =>
    let s2 := { s1 with rpl := { s1.rpl with checks := s1.rpl.checks.eraseP isOf } }
    let exempt := e.body.toNat / 2 ^ 63 == 1
    let same := e.body.toNat % 2 ^ 32 == crc.toNat && e.body.toNat / 2 ^ 40 % 2 ^ 16 == count
    if exempt || same then s2 else diverge s2 1 s.rpl.tick source seen

/-- An item is produced in a replay: what arises while the entries of a tick are applied is compared after them (R839). -/
def matchItem (s : State) (source count : Nat) (crc : Word) : State :=
  if s.rpl.injecting then { s with rpl := { s.rpl with items := s.rpl.items ++ [(source, count, crc)] } }
  else compareItem s source count crc

/-- An output item of bench `n` (R827, R830): recorded as a CHK entry while recording; given to the comparator, and to no
host, while the bench is replayed.  The Bool says that the item is diverted. -/
def outputItem (s : State) (n source : Nat) (bytes : List Byte) (exempt : Bool) : Bool × State :=
  if s.recordsBench n then (false, logBench s n 0xC (chkBody source (bytes.length / 8) (crc32c bytes) exempt))
  else if s.replaysBench n then (true, matchItem s source (bytes.length / 8) (crc32c bytes))
  else (false, s)

/-- An output item of an admin stream, SOURCE 0x58; `replayed` says that its command came from the log (R827, R830). -/
def outputAdmin (s : State) (bytes : List Byte) (exempt replayed : Bool) : Bool × State :=
  if s.rpl.state = .recording then (false, logPart s 0xC (chkBody 0x58 (bytes.length / 8) (crc32c bytes) exempt))
  else if s.isReplaying ∧ replayed then (true, matchItem s 0x58 (bytes.length / 8) (crc32c bytes))
  else (false, s)

/-- The words of a CMD queue or admin chain push, recorded with the tick they entered their queue (R820). -/
def recordCmdWord (s : State) (q : Nat) (d : DWord) (t : Tag) : State :=
  let type := if t = .mark then 1 else 2
  if q < 64 ∧ q % 8 = 0 then logBench s (q / 8) type d.toNat
  else if q = 64 ∨ q = 66 then logPart s type d.toNat
  else s

/-- Push a word; where the queue carries commands Mboron records it as it enters (R239, R820). -/
def pushHost (s : State) (q : Nat) (p : Producer) (d : DWord) (t : Tag) : State :=
  if s.pushFits q p then pushWord (recordCmdWord s q d t) q p d t else pushWord s q p d t

/-- A push that waited completes, and is recorded as it enters (R239, R820). -/
def completeHost (s : State) (q : Nat) : State :=
  let t := completePush s q
  match (s.queue q).nextWaiting with
  | some ((_, w), _) => if (s.queue q).count < (t.queue q).count then completePush (recordCmdWord s q w.data w.tag) q else t
  | none => s

end Sys2Proof.Machine
end

