-- ==== Sys2Proof/Machine/Events.lean ====
section
/-! DEFINITION. What Survo firmware sends: event words, completion events, responses and alerts (R264 to R290, R706 to
R710, R774 to R777). -/

namespace Sys2Proof.Machine

/-! ### Alerts -/

/-- The ATTN_MIN, SPEED and HOST_ADDR in effect (TW_CFG). -/
def State.attnMin (s : State) : Nat := fld (s.eff .twCfg) 11 10
/-- HOST_ADDR in effect (TW_CFG). -/
def State.hostAddr (s : State) : Nat := fld (s.eff .twCfg) 6 0

/-- The alert that R708 chooses next: the most urgent, the oldest among equals. -/
def nextAlert (as : List Alert) : Option Alert :=
  (sortBy (fun a => a.pri) as).head?

/-- The pending set with one alert dropped as R706 says: the newest of the least urgent. -/
def dropNewestLeast (as : List Alert) : List Alert :=
  let worst := as.foldl (fun m a => max m a.pri) 0
  (as.reverse.eraseP fun a => decide (a.pri = worst)).reverse

/-- The code of an alert state (TW_STATUS.CSTATE). -/
def CState.code : CState → Nat
  | .idle => 0 | .sending => 1 | .wait => 2 | .backoff => 3 | .last => 4 | .parked => 5

/-! ### Events -/

/-- An event word (R286). -/
def eventWord (code : BitVec 16) (tag status seq : BitVec 8) (bench arg : Nat) : DWord :=
  BitVec.ofNat 64 (code.toNat + tag.toNat * 2 ^ 16 + status.toNat * 2 ^ 24 + seq.toNat * 2 ^ 32 + bench % 16 * 2 ^ 40
    + arg % 2 ^ 20 * 2 ^ 44)

/-- An event word is a completion: its CODE lies below 0x8000 (R286). -/
def isCompletion (d : DWord) : Bool := decide (d.toNat % 2 ^ 16 < 0x8000)

/-- Events that Mboron records whole, as EVX (R831): OVERDRIVE, IU_RECAL and TW_STATE. -/
def exemptEvent (code : BitVec 16) : Bool := code == 0x8201 || code == 0x8801 || code == 0x8901

/-- Deliver an event word of bench `n` (R31, R241, R281 to R283): to the EVT queue while it has room and nothing waits before it, else to
the backlog of 48 words, 8 of them for completions; a two-wire session's events go to the backlog, from which event frames are made.
While DETACHED completions enter the backlog, whatever room the queue has, and other events the queue alone; what finds no
place then is counted in BN_EVT_LOST (log entry 69). -/
def deliverEvent (s : State) (n : Nat) (d : DWord) : State :=
  let x := s.sess n
  let q := n * 8 + 2
  let others := (x.backlog.filter fun e => !isCompletion e).length
  let room := (s.queue q).roomFor 1
  let twoWire := decide (x.transport = .twoWire) && decide (x.state ≠ .closed)
  let keep := s.setSess n { x with backlog := x.backlog ++ [d] }
  let lost := s.bumpSat .bnEvtLost n 0 31 0 1
  if x.detached then
    if isCompletion d then (if x.backlog.length < 48 then keep else lost)
    else if room then pushWord s q .unit d .mark else lost
  else if !twoWire && x.backlog.isEmpty && room then pushWord s q .unit d .mark
  else if x.backlog.length < 48 ∧ (isCompletion d ∨ others < 40) then keep
  else s

/-- Generate an event word for bench `n`: its SEQ advances whether or not the event is delivered (R286, R287); Mboron
records it, or takes it in place of a host (R827, R830, R831). -/
def sendEvent (s : State) (n : Nat) (code : BitVec 16) (tag status : BitVec 8) (arg : Nat) : State :=
  let x := s.sess n
  let d := eventWord code tag status x.seq n arg
  if exemptEvent code && s.replaysBench n then s
  else
    let s := s.setSess n { x with seq := x.seq + 1 }
    if exemptEvent code then deliverEvent (logBench s n 0xF d.toNat) n d
    else
      let twoWire := decide (x.transport = .twoWire) && decide (x.state ≠ .closed)
      if twoWire then deliverEvent s n d
      else match outputItem s n (n * 8 + 2) (bytesOfDWord d) false with
        | (true, s) => s
        | (false, s) => deliverEvent s n d

/-- Post an event of an event code to bench `n` (R286, R290). -/
def postEvent (s : State) (n : Nat) (code : BitVec 16) (arg : Nat) : State := sendEvent s n code 0 0 arg

/-- The benches that are open: every bench whose state is not CLOSED. -/
def State.openBenches (s : State) : List Nat := s.benchList.filter fun n => decide (s.bstate n ≠ .closed)

/-- Post an event to every open bench. -/
def postAll (s : State) (code : BitVec 16) (arg : Nat) : State :=
  s.each s.openBenches fun s n => postEvent s n code arg

/-! ### The alert state machine (R709, R710) -/

/-- Move the alert state machine; Survo firmware posts TW_STATE on entry to and exit from PARKED (R710). -/
def setCState (s : State) (c : CState) : State :=
  let old := s.tw.cstate
  let s := { s with tw := { s.tw with cstate := c } }
  if old ≠ c ∧ (old = .parked ∨ c = .parked) then postAll s 0x8901 c.code else s

/-- IDLE turns to SENDING when an alert is pending and HOST_ADDR is nonzero (R709), from READY and while AWAKE (R103,
R161).  Until its message starts, the choice of SENDING follows the pending set, and SENDING turns to IDLE when nothing is to be
sent (R708, R713). -/
def twKick (s : State) : State :=
  let some_ := decide (s.tw.alerts ≠ []) && decide (s.hostAddr ≠ 0)
  match s.tw.cstate with
  | .idle =>
    if some_ && s.live && s.isReady then
      { (setCState s .sending) with tw := { s.tw with cstate := .sending, sending := nextAlert s.tw.alerts } }
    else s
  | .sending =>
    if some_ then { s with tw := { s.tw with sending := nextAlert s.tw.alerts } }
    else { (setCState s .idle) with tw := { s.tw with cstate := .idle, sending := none } }
  | _ => s

/-- Latch an alert (R706): a full set discards one and counts the drop; a priority-0 alert latched while PARKED starts a
back-off (R709). -/
def latchAlert (s : State) (pri src bench code : Nat) (arg : BitVec 8) : State :=
  let as := s.tw.alerts
  let a : Alert := ⟨pri, src, bench, s.tw.nextId, code, arg⟩
  let worst := as.foldl (fun m a => max m a.pri) 0
  let latched (s : State) (as : List Alert) : State :=
    let s := { s with tw := { s.tw with alerts := as ++ [a], nextId := s.tw.nextId + 1 } }
    if s.tw.cstate = .parked ∧ pri = 0 then setCState s .backoff else twKick s
  if as.length < 16 then latched s as
  else if pri < worst then latched (s.bumpSat .twAlertDrop 0 0 15 0 1) (dropNewestLeast as)
  else s.bumpSat .twAlertDrop 0 0 15 0 1

/-- ATTN_N is asserted (R707, R128, R161). -/
def State.attn (s : State) : Bool :=
  s.isReady && !s.power.fastReset && s.tw.alerts.any fun a => decide (a.pri ≤ s.attnMin)

/-! ### Responses -/

/-- The queue that carries a stream's responses: RSP, the USB admin IN buffer, or AQR (R247, R250, R273). -/
def rspQueue : Stream → Nat
  | .bench n => n.val * 8 + 1 | .adminUsb => 67 | .adminTw => 65

/-- The queue that carries a stream's commands: CMD, the USB admin OUT buffer, or AQC (R218, R247, R250). -/
def cmdQueue : Stream → Nat
  | .bench n => n.val * 8 | .adminUsb => 66 | .adminTw => 64

/-- The 8 queue words of one frame (R263). -/
def frameWords (ws : List Word) : List DWord :=
  (List.range 8).map fun j => dword (wordAt ws (2 * j)) (wordAt ws (2 * j + 1))

/-- The payload of frame `f`: 14 words, the last frame filled with 0 (R266). -/
def framePayload (payload : List Word) (f : Nat) : List Word := padTo 14 0 ((payload.drop (14 * f)).take 14)

/-- The number of frames for LEN payload words (R265). -/
def frameCount (len : Nat) : Nat := if len = 0 then 1 else (len + 13) / 14

/-- Word 0 of a response (R264). -/
def rspWord0 (op : BitVec 16) (tag status : BitVec 8) : Word := pack [(op.toNat, 0), (tag.toNat, 16), (status.toNat, 24)]

/-- Word 1 of a response's frame `f` (R264). -/
def rspWord1 (bench : BitVec 4) (len f detail : Nat) : Word :=
  pack [(bench.toNat, 0), (len % 256, 4), (f % 16, 12), (detail % 2 ^ 16, 16)]

/-- The frames of a response (R264 to R266). -/
def responseFrames (op : BitVec 16) (tag : BitVec 8) (bench : BitVec 4) (status : BitVec 8) (detail : Nat)
    (payload : List Word) : List (List DWord) :=
  (List.range (frameCount payload.length)).map fun f =>
    frameWords (rspWord0 op tag status :: rspWord1 bench payload.length f detail :: framePayload payload f)

/-- The 32-bit words of queue words (R224). -/
def halfWords (ws : List QWord) : List Word := ws.flatMap fun w => [DWord.lo w.data, DWord.hi w.data]

/-- Word 1 of a command. -/
def cmdWord1 (ws : List QWord) : Word := wordAt (halfWords ws) 1

/-- The queue words that a whole command takes, from its first frame (R265). -/
def cmdSpan (ws : List QWord) : Nat := 8 * frameCount (fld (cmdWord1 ws) 11 4)

/-- Words that Survo firmware has read join those of their stream; the TAGs outstanding as word 0 of a command is taken are kept (R271,
R307). -/
def CmdStream.collect (x : CmdStream) (ws : List QWord) : CmdStream :=
  { x with rx := x.rx ++ ws, tags := if x.rx = [] then x.outstanding.map Accepted.tag else x.tags }

/-- Words leave those collected; word 0 of the command behind them is taken with that. -/
def CmdStream.discard (x : CmdStream) (k : Nat) : CmdStream :=
  { x with rx := x.rx.drop k, early := x.early - k, tags := x.outstanding.map Accepted.tag }

/-- The words of frames as queue words, the first of each frame tagged MARK (R225). -/
def tagFrames (fs : List (List DWord)) : List QWord :=
  fs.flatMap fun f => f.mapIdx fun i d => mkQWord d (if i = 0 then .mark else .data)

/-- The admin events of a stream: BENCH 0xF and the stream's own SEQ (R249, R250). -/
def sendAdminEvent (s : State) (st : Stream) (code : BitVec 16) (tag status : BitVec 8) (arg : Nat) : State :=
  let x := s.stream st
  let d := eventWord code tag status x.seq 15 arg
  let s := s.setStream st { x with seq := x.seq + 1, events := x.events ++ [d] }
  if st = .adminUsb then s.setEndpoint 9 { s.endpoint 9 with order := (s.endpoint 9).order ++ [2] } else s

/-- Post the completion event of an ACCEPTED command and free its slot (R275, R276, R286). -/
def postCompletion (s : State) (st : Stream) (op : BitVec 16) (tag status : BitVec 8) (arg : Nat) : State :=
  let x := s.stream st
  let isIt (a : Accepted) : Bool := decide (a.op = op ∧ a.tag = tag)
  match x.outstanding.find? isIt with
  | none => s
  | some a =>
    let s := s.setStream st { x with outstanding := x.outstanding.eraseP isIt }
    match st with
    | .bench n => sendEvent s n.val op tag status (min arg 0xFFFFF)
    | .adminUsb | .adminTw =>
      if a.replayed then s
      else if st = .adminUsb ∧ s.usb.link = .detached then s
      else sendAdminEvent s st op tag status (min arg 0xFFFFF)

/-- An ACCEPTED command has ended, its status given as a code: its completion event follows its ACCEPTED response (R306). -/
def completeCode (s : State) (st : Stream) (op : BitVec 16) (tag status : BitVec 8) (arg : Nat) : State :=
  let x := s.stream st
  match x.acking with
  | some (o, g, none) =>
    if o = op ∧ g = tag then s.setStream st { x with acking := some (o, g, some (status, arg)) } else postCompletion s st op tag status arg
  | _ => postCompletion s st op tag status arg

/-- Complete an ACCEPTED command (R275, R286, R291). -/
def complete (s : State) (st : Stream) (op : BitVec 16) (tag : BitVec 8) (status : Status) (arg : Nat) : State :=
  completeCode s st op tag status.code arg

/-- The held response of a stream has been written: the completion that waited for it follows (R306). -/
def endAcking (s : State) (st : Stream) : State :=
  let x := s.stream st
  match x.held, x.acking with
  | [], some (op, tag, some (status, arg)) => postCompletion (s.setStream st { x with acking := none }) st op tag status arg
  | [], some (_, _, none) => s.setStream st { x with acking := none }
  | _, _ => s

/-- The streams. -/
def allStreams : List Stream := (List.range 8).map (fun n => .bench (Fin.ofNat 8 n)) ++ [.adminUsb, .adminTw]

/-- Some command that has been taken has no response yet, or one that is not wholly written. -/
def State.responseDue (s : State) : Bool :=
  (allStreams.any fun st => (s.stream st).held != [] || (s.stream st).fence.isSome) ||
    s.benchList.any fun n => (s.sess n).late != []

/-- OPEN_BENCH_CHANGED is posted after the responses of the commands taken before the change (R40, R310). -/
def postOpenBench (s : State) : State :=
  match s.fw.openPost with
  | none => s
  | some on =>
    if s.responseDue then s else postAll { s with fw := { s.fw with openPost := none } } 0x8102 (bN on)

/-- Move held response words into the stream's return queue while it has room (R241, R280; log entry 69). -/
def pumpResponse (s : State) (st : Stream) : State :=
  let q := rspQueue st
  let x := s.stream st
  let room := if (s.queue q).retired then x.held.length
    else if (s.queue q).roomFor 0 then 16 - (s.queue q).count else 0
  let s := s.setStream st { x with held := x.held.drop room }
  postOpenBench (endAcking (s.each (x.held.take room) fun s w => pushWord s q .unit w.data w.tag) st)

/-- Responses that replay leaves out of the comparison (R831): groups 0x0A and 0x0D, ACCOUNTS_QUERY, FE_HEALTH, IU_QUERY,
TW_QUERY and RPL_STATUS. -/
def exemptResponse (op : BitVec 16) : Bool :=
  op.toNat / 256 == 0x0A || op.toNat / 256 == 0x0D ||
    [0x0106, 0x0204, 0x0804, 0x0904, 0x0C03].contains op.toNat

/-- The output items of a response's frames; the Bool says that they are diverted to the comparator (R827, R830). -/
def checkFrames (s : State) (st : Stream) (fs : List (List DWord)) (exempt replayed : Bool) : Bool × State :=
  fs.foldl (fun acc f =>
    let bytes := f.flatMap bytesOfDWord
    let r := match st with
      | .bench n =>
        if s.isReplaying ∧ replayed = false then (false, acc.2)
        else outputItem acc.2 n.val (n.val * 8 + 1) bytes exempt
      | .adminUsb => outputAdmin acc.2 bytes exempt replayed
      | .adminTw => outputAdmin acc.2 bytes exempt replayed
    (acc.1 || r.1, r.2)) (false, s)

/-- The stream's return path is gone: RSP frames of a DETACHED bench are discarded (R31; log entry 60), and those of the USB admin
stream with the link (R741). -/
def State.rspLost (s : State) : Stream → Bool
  | .bench n => (s.sess n.val).detached
  | .adminUsb => decide (s.usb.link = .detached)
  | .adminTw => false

/-- Write frames to a stream's return path, held while the queue has no room (R273, R280). -/
def writeFrames (s : State) (st : Stream) (fs : List (List DWord)) : State :=
  if s.rspLost st then postOpenBench s
  else pumpResponse (s.setStream st { s.stream st with held := (s.stream st).held ++ tagFrames fs }) st

/-- Frames leave Survo firmware: Mboron records them, or takes them in place of a host (R827, R830). -/
def sendFrames (s : State) (st : Stream) (fs : List (List DWord)) (exempt replayed : Bool) : State :=
  let r := checkFrames s st fs exempt replayed
  if r.1 then r.2 else writeFrames r.2 st fs

/-- Answer a command past Mboron. -/
def respondUnseen (s : State) (op : BitVec 16) (c : Cmd) (status : Status) (detail : Nat) (payload : List Word) : State :=
  writeFrames s c.stream (responseFrames op c.tag c.bench status.code detail payload)

/-- Answer a command (R264, R273, R291). -/
def respond (s : State) (op : BitVec 16) (c : Cmd) (status : Status) (detail : Nat) (payload : List Word)
    (replayed : Bool := false) : State :=
  sendFrames s c.stream (responseFrames op c.tag c.bench status.code detail payload) (exemptResponse op) replayed

/-! ### ACCEPTED commands -/

/-- Record an ACCEPTED command (R275, R276). -/
def addOutstanding (s : State) (op : BitVec 16) (c : Cmd) (replayed : Bool) : State :=
  let x := s.stream c.stream
  s.setStream c.stream { x with outstanding := x.outstanding ++ [⟨op, c.tag, 0, replayed⟩] }

end Sys2Proof.Machine
end

