-- ==== Sys2Proof/Machine/Mailbox.lean ====
section
/-! DEFINITION. How Survo firmware takes and checks a command (R263 to R279, R313 to R319): one shared operation that every
mailbox row goes through, with what is the opcode's own given as data. -/

namespace Sys2Proof.Machine

/-- The Role column of the master table (R313). -/
inductive Role where
  | stu | adm | any
  deriving DecidableEq, Repr

/-- One row of the master table (R313), with what its payload layout fixes. -/
structure OpInfo where
  op : BitVec 16
  role : Role
  /-- The bench states in which the command is taken; `none` for a command that concerns no single bench. -/
  states : Option (List BenchState)
  /-- The Kind column is L. -/
  long : Bool
  /-- Word 2 [3:0] holds TARGET (R316). -/
  target : Bool
  /-- The LENs that the payload layout allows. -/
  lens : List Nat
  /-- The reserved bits of the payload words from word 2 on; words past the end of the list have none. -/
  rsvd : List Word
  deriving DecidableEq, Repr

/-- Why a command is refused: its status and DETAIL. -/
abbrev Refuse := Option (Status × Nat)

/-- The opcodes the master table lists, in increasing order (R313). -/
def masterTable : List Nat :=
  [0x0101, 0x0102, 0x0103, 0x0104, 0x0105, 0x0106, 0x0110, 0x0111, 0x0112,
   0x0201, 0x0202, 0x0203, 0x0204, 0x0205,
   0x0301, 0x0302, 0x0303, 0x0304, 0x0310] ++
  [0x0401, 0x0402, 0x0403, 0x0404, 0x0405, 0x0406, 0x0410,
   0x0501, 0x0502, 0x0503, 0x0504, 0x0505,
   0x0601, 0x0602, 0x0603, 0x0604, 0x0605, 0x0606] ++
  [0x0701, 0x0702, 0x0703, 0x0704, 0x0710, 0x0711,
   0x0801, 0x0802, 0x0803, 0x0804, 0x0810,
   0x0901, 0x0902, 0x0903, 0x0904, 0x0A01, 0x0A02] ++
  [0x0B01, 0x0B02, 0x0B03, 0x0B04, 0x0C01, 0x0C02, 0x0C03, 0x0C04,
   0x0D01, 0x0D02, 0x0D10, 0x0D11, 0x0D12, 0x0D13] ++
  [0x0E01, 0x0E02, 0x0E03, 0x0E10, 0x0E11, 0x0E12, 0x0E13, 0x0E14, 0x0E20, 0x0E21, 0x0E22, 0x0E23]

/-- The units an opcode needs (R313): lanes for the 0x06xx and FW_LOAD_ opcodes, a search engine for SEARCH_JOB, a decode
engine for DECODE_JOB. -/
def opProvided (m : Member) (op : Nat) : Bool :=
  if op / 256 = 0x06 ∨ op = 0x0E20 ∨ op = 0x0E21 ∨ op = 0x0E22 then 0 < m.lanes
  else if op = 0x0701 then 0 < m.searchEngines
  else if op = 0x0702 then 0 < m.decodeEngines
  else true

/-- The opcodes of the member's capability report, in increasing order (R313, R328). -/
def capabilityList (m : Member) : List Nat := masterTable.filter (opProvided m)

/-! ### The commands that some conditions let through -/

/-- The opcodes taken while a replay runs (R829). -/
def replayAllows (op : Nat) : Bool := [0x0C03, 0x0C04, 0x0105, 0x0E01, 0x0E02, 0x0B01, 0x0B02].contains op

/-- The opcodes taken while REF_STATUS.FAULTED is 1 (R767). -/
def faultedAllows (op : Nat) : Bool :=
  [0x0104, 0x0102, 0x0105, 0x0B01, 0x0B02, 0x0B03, 0x0B04, 0x0E01, 0x0E02, 0x0E23, 0x0E20, 0x0E21, 0x0E22].contains op

/-! ### Fields of a command -/

/-- Payload word `w`, numbered from 2 (R266). -/
def pw (c : Cmd) (w : Nat) : Word := wordAt c.payload (w - 2)

/-- Bits [hi:lo] of payload word `w`. -/
def pf (c : Cmd) (w hi lo : Nat) : Nat := fld (pw c w) hi lo

/-- LEN (R266). -/
def cmdLen (c : Cmd) : Nat := c.payload.length

/-- The command came on an admin stream. -/
def isAdmin (c : Cmd) : Bool :=
  match c.stream with
  | .bench _ => false
  | .adminUsb => true
  | .adminTw => true

/-- The transport of the stream a command came on. -/
def streamVia (c : Cmd) : Transport :=
  match c.stream with
  | .bench _ => c.via
  | .adminUsb => .usb
  | .adminTw => .twoWire

/-- The bench a command concerns: TARGET for a command that carries it, else the bench it names (R316). -/
def concerned (i : OpInfo) (c : Cmd) : Nat := if i.target then pf c 2 3 0 else c.bench.toNat

/-! ### The checks of R318 -/

/-- Check 2: frame sequence and repeated words (R267). -/
def checkFrame (c : Cmd) : Refuse := if c.seqOk ∧ cmdLen c ≤ 224 then none else some (.badArg, 1)

/-- The number of the first payload word with a reserved bit set. -/
def firstReserved : List Word → List Word → Nat → Option Nat
  | w :: ws, m :: ms, k => if w &&& m = 0 then firstReserved ws ms (k + 1) else some k
  | _, _, _ => none

/-- Check 4: reserved bits, RESUME and the LEN range; DETAIL is the first offending word (R270). -/
def checkReserved (i : OpInfo) (c : Cmd) : Refuse :=
  if c.rsvd ≠ 0 ∨ (c.resume ∧ i.op ≠ 0x0101) then some (.badArg, 0)
  else if cmdLen c ∉ i.lens then some (.badArg, 1)
  else (firstReserved c.payload i.rsvd 2).map fun k => (.badArg, k)

/-- Check 5: role, bench, credential and transport (R16, R18, R33, R279, R314, R316, R344).  A log does not say which admin
stream a command came on, so a command of a replay needs an administrator session of either. -/
def checkPermission (s : State) (i : OpInfo) (c : Cmd) (replayed : Bool) : Refuse :=
  let session := if replayed then s.fw.admin.isSome else s.fw.admin == some (streamVia c)
  match c.stream with
  | .bench n =>
    if c.bench.toNat ≠ n.val ∨ i.role = .adm then some (.noPermission, 0)
    else if i.target ∧ pf c 2 3 0 ≠ n.val then some (.noPermission, 0)
    else if s.bstate n.val ≠ .closed ∧ (s.sess n.val).transport ≠ c.via ∧ !(i.op = 0x0101 ∧ c.resume) then some (.noPermission, 0)
    else none
  | .adminUsb | .adminTw =>
    if c.bench ≠ 15 ∨ i.role = .stu then some (.noPermission, 0)
    else if s.fw.credHash.isSome ∧ i.op ≠ 0x0E01 ∧ session = false then some (.noPermission, 0)
    else if i.target ∧ s.member.benches ≤ pf c 2 3 0 then some (.badArg, 2)
    else none

/-- A bench named by BENCH, or by the stream, that the member lacks (R6); 15 names the part. -/
def checkBenchExists (s : State) (c : Cmd) : Refuse :=
  let lacking (n : Nat) : Bool := decide (s.member.benches ≤ n)
  let stream := match c.stream with
    | .bench n => lacking n.val
    | .adminUsb => false
    | .adminTw => false
  if stream || (lacking c.bench.toNat && decide (c.bench.toNat ≠ 15)) then some (.badArg, 1) else none

/-- The TAGs that check 6 looks at: those outstanding when word 0 was taken, for a command that Survo firmware has collected word by
word (R307). -/
def State.busyTags (s : State) (st : Stream) : List (BitVec 8) :=
  let x := s.stream st
  if x.rx = [] ∨ s.isReplaying then x.outstanding.map Accepted.tag else x.tags

/-- Check 6: the TAG is free (R277, R307). -/
def checkTag (s : State) (c : Cmd) : Refuse :=
  if (s.busyTags c.stream).contains c.tag then some (.badArg, 0) else none

/-- Check 7: replay (R829), a retired register bank (R767), and the state of the bench concerned (R315). -/
def checkState (s : State) (i : OpInfo) (c : Cmd) (replayed : Bool) : Refuse :=
  if s.isReplaying ∧ replayed = false ∧ !replayAllows i.op.toNat then some (.badState, 0)
  else match s.ref.faulted, faultedAllows i.op.toNat with
    | some code, false => some (.retired, code)
    | _, _ =>
      match i.states with
      | none => none
      | some l =>
        if isAdmin c && !i.target then none
        else if s.bstate (concerned i c) ∈ l then none
        else some (.badState, (s.bstate (concerned i c)).code)

/-- Check 9, first half: command slots (R276). -/
def checkSlots (s : State) (i : OpInfo) (c : Cmd) : Refuse :=
  if i.long ∧ 8 ≤ (s.stream c.stream).outstanding.length then some (.noSpace, 0xFFFF) else none

/-- The first refusal of two checks. -/
def orElse (a b : Refuse) : Refuse :=
  match a with
  | some r => some r
  | none => b

/-- Check 3: the opcode is one that the capability report lists (R269). -/
def checkOpcode (s : State) (op : Nat) : Refuse :=
  if (capabilityList s.member).contains op then none else some (.badOpcode, 0)

/-- Checks 2 to 5 as far as they are common to every opcode (R318). -/
def checkForm (s : State) (i : OpInfo) (c : Cmd) (replayed : Bool) : Refuse :=
  orElse (checkFrame c) <| orElse (checkOpcode s i.op.toNat) <|
  orElse (checkReserved i c) <| orElse (checkBenchExists s c) (checkPermission s i c replayed)

/-! ### Taking a command -/

/-- The bench of the stream is RESETTING (R246). -/
def streamResetting (s : State) (c : Cmd) : Bool :=
  match c.stream with
  | .bench n => decide (s.bstate n.val = .resetting)
  | .adminUsb => false
  | .adminTw => false

/-- A synchronous command of the stream is still unanswered (R271): TRG_FORCE, CAL_SET, POD_ASSIGN, or a reset or close. -/
def State.unanswered (s : State) (st : Stream) : Bool :=
  let isOf (c : Option Cmd) : Bool := match c with
    | some c => decide (c.stream = st)
    | none => false
  isOf s.cal.answer || isOf s.fw.assign ||
    (List.range 8).any fun n => isOf (s.seqr n).force || isOf ((s.sess n).reset.bind fun r => r.by_.map Prod.snd)

/-- Survo firmware has collected a whole command of the stream and could take it. -/
def State.commandWaits (s : State) (st : Stream) : Bool :=
  let x := s.stream st
  x.held.isEmpty && x.fence.isNone && (x.rx.head?.any fun w => decide (w.tag = .mark)) && decide (cmdSpan x.rx ≤ x.rx.length)

/-- The stream has had its turn in this round of the rotation, and another that has not has a command waiting (R272). -/
def State.turnOver (s : State) (st : Stream) : Bool :=
  s.fw.served.contains (streamKey st) && allStreams.any fun y => !s.fw.served.contains (streamKey y) && s.commandWaits y

/-- The stream can give Survo firmware no command now: a response is held (R280), another command waits for its fence (R278), another
stream's turn comes first (R272), or a synchronous command, of whatever stream, is unanswered (R271, R319); a command that
arrives while its bench is RESETTING is set aside instead (R246). -/
def streamBlocked (s : State) (op : BitVec 16) (c : Cmd) : Bool :=
  let x := s.stream c.stream
  !x.held.isEmpty || (match x.fence with
    | some f => decide (f ≠ (op, c))
    | none => s.turnOver c.stream) || (!streamResetting s c && allStreams.any s.unanswered)

/-- The command is one that a replay log has Survo firmware take now (R816, R827). -/
def isReplayTake (s : State) (op : BitVec 16) (c : Cmd) : Bool :=
  s.isReplaying && s.rpl.takes.contains (streamKey c.stream, op, c.tag)

/-- The words of the command leave the words Survo firmware has collected, the stream counts it and has had its turn, and Mboron
records the TAKE (R271, R272, R816, R820); the words of a command from a log lie with Mboron. -/
def takeCommand (s : State) (op : BitVec 16) (c : Cmd) : State :=
  let x := s.stream c.stream
  let k := if isReplayTake s op c then 0 else 8 * frameCount (cmdLen c)
  let key := streamKey c.stream
  let s := s.setStream c.stream { x.discard k with taken := x.taken + 1, fence := none }
  let s := if isReplayTake s op c then s
    else { s with fw := { s.fw with served := if s.fw.served.contains key then [key] else key :: s.fw.served } }
  let s := { s with rpl := { s.rpl with takes := s.rpl.takes.erase (streamKey c.stream, op, c.tag) } }
  let body := op.toNat + c.tag.toNat * 2 ^ 16 + (x.taken + 1) % 2 ^ 32 * 2 ^ 32
  match c.stream with
  | .bench n => logBench s n.val 3 body
  | .adminUsb => logPart s 3 body
  | .adminTw => logPart s 3 body

/-- What a command's own part of a row does beside the shared checks.  The Bool of `run` says that the command came from a
replay log. -/
structure Meaning where
  /-- Check 5: what the opcode's own rules permit. -/
  perm : State → Refuse := fun _ => none
  /-- What a refusal of `perm` leaves behind (R343). -/
  barred : State → State := id
  /-- Check 7: the conditions given with the payload (R315). -/
  cond : State → Refuse := fun _ => none
  /-- What a refusal of `cond` leaves behind (R82). -/
  denied : State → State := id
  /-- Check 8: payload values. -/
  args : State → Refuse := fun _ => none
  /-- Check 9, second half: resources. -/
  space : State → Refuse := fun _ => none
  /-- The effect, the response included. -/
  run : State → Bool → State

/-- Survo firmware takes a command, checks it and runs it (R271 to R279, R318, R319).  While the stream is blocked, or
Survo firmware does not run, nothing happens.  A command that arrived before READY is answered BAD_STATE with DETAIL 0xFFFF (R148); a command
of a bench that is RESETTING waits for the end of the reset (R246, R297); a FENCE command waits for every earlier ACCEPTED
command of its stream (R278). -/
def mailbox (s : State) (i : OpInfo) (c : Cmd) (m : Meaning) : State :=
  let replayed := isReplayTake s i.op c
  if !s.survoRuns || (!replayed && streamBlocked s i.op c) then s
  else
    if !s.isReady || (!replayed && decide (0 < (s.stream c.stream).early)) then respond (takeCommand s i.op c) i.op c .badState 0xFFFF [] replayed
    else
      if streamResetting s c then
        let t := takeCommand s i.op c
        let n := streamKey c.stream
        t.setSess n { t.sess n with late := (t.sess n).late ++ [(i.op, c)] }
      else
        match checkForm s i c replayed, m.perm s, checkTag s c with
        | some (st, d), _, _ => respond (takeCommand s i.op c) i.op c st d [] replayed
        | none, some (st, d), _ => respond (m.barred (takeCommand s i.op c)) i.op c st d [] replayed
        | none, none, some (st, d) => respond (takeCommand s i.op c) i.op c st d [] replayed
        | none, none, none =>
          if c.fence ∧ (s.stream c.stream).outstanding ≠ [] ∧ replayed = false then
            s.setStream c.stream { s.stream c.stream with fence := some (i.op, c) }
          else
            let t := takeCommand s i.op c
            match checkState t i c replayed, m.cond t, orElse (m.args t) <| orElse (checkSlots t i c) (m.space t) with
            | some (st, d), _, _ => respond t i.op c st d [] replayed
            | none, some (st, d), _ => respond (m.denied t) i.op c st d [] replayed
            | none, none, some (st, d) => respond t i.op c st d [] replayed
            | none, none, none => m.run t replayed

/-- Every check of R318 lets the command through, it has not come from a replay log, and nothing makes it wait. -/
def checksPass (s : State) (i : OpInfo) (c : Cmd) (m : Meaning) : Bool :=
  let t := takeCommand s i.op c
  s.survoRuns && s.isReady && !isReplayTake s i.op c && !streamBlocked s i.op c && decide ((s.stream c.stream).early = 0) &&
    !streamResetting s c && (checkForm s i c false).isNone && (m.perm s).isNone && (checkTag s c).isNone &&
    (!c.fence || decide ((s.stream c.stream).outstanding = [])) && (checkState t i c false).isNone && (m.cond t).isNone &&
    (m.args t).isNone && (checkSlots t i c).isNone && (m.space t).isNone

/-- Answer DONE. -/
def done (s : State) (op : BitVec 16) (c : Cmd) (payload : List Word) (replayed : Bool) : State :=
  respond s op c .done 0 payload replayed

/-- Answer ACCEPTED and take a command slot (R275, R276, R306). -/
def accept (s : State) (op : BitVec 16) (c : Cmd) (replayed : Bool) : State :=
  let s := addOutstanding (respond s op c .accepted 0 [] replayed) op c replayed
  let x := s.stream c.stream
  if x.held = [] then s else s.setStream c.stream { x with acking := some (op, c.tag, none) }

/-- A refusal when a condition holds. -/
def refuseIf (b : Bool) (st : Status) (d : Nat) : Refuse := if b then some (st, d) else none

end Sys2Proof.Machine
end

