-- ==== Sys2Proof/Machine/Hash.lean ====
section
/-! DEFINITION. SHA-256, which the spec names (R134, R342, R348) and does not restate: as the standard FIPS 180-4 gives it.
PRESUMED (log entry 3). -/

namespace Sys2Proof.Machine

/-- The round constants K. -/
def shaK : List Word :=
  [0x428a2f98, 0x71374491, 0xb5c0fbcf, 0xe9b5dba5, 0x3956c25b, 0x59f111f1, 0x923f82a4, 0xab1c5ed5,
   0xd807aa98, 0x12835b01, 0x243185be, 0x550c7dc3, 0x72be5d74, 0x80deb1fe, 0x9bdc06a7, 0xc19bf174] ++
  [0xe49b69c1, 0xefbe4786, 0x0fc19dc6, 0x240ca1cc, 0x2de92c6f, 0x4a7484aa, 0x5cb0a9dc, 0x76f988da,
   0x983e5152, 0xa831c66d, 0xb00327c8, 0xbf597fc7, 0xc6e00bf3, 0xd5a79147, 0x06ca6351, 0x14292967] ++
  [0x27b70a85, 0x2e1b2138, 0x4d2c6dfc, 0x53380d13, 0x650a7354, 0x766a0abb, 0x81c2c92e, 0x92722c85,
   0xa2bfe8a1, 0xa81a664b, 0xc24b8b70, 0xc76c51a3, 0xd192e819, 0xd6990624, 0xf40e3585, 0x106aa070] ++
  [0x19a4c116, 0x1e376c08, 0x2748774c, 0x34b0bcb5, 0x391c0cb3, 0x4ed8aa4a, 0x5b9cca4f, 0x682e6ff3,
   0x748f82ee, 0x78a5636f, 0x84c87814, 0x8cc70208, 0x90befffa, 0xa4506ceb, 0xbef9a3f7, 0xc67178f2]

/-- The initial hash value. -/
def shaInit : List Word :=
  [0x6a09e667, 0xbb67ae85, 0x3c6ef372, 0xa54ff53a, 0x510e527f, 0x9b05688c, 0x1f83d9ab, 0x5be0cd19]

/-- XOR of three rotations, or of two rotations and a shift. -/
def shaSigma (w : Word) (a b c : Nat) (shift : Bool) : Word :=
  w.rotateRight a ^^^ w.rotateRight b ^^^ (if shift then w >>> c else w.rotateRight c)

/-- The message padded to blocks of 64 bytes, as big-endian words. -/
def shaWords (bs : List Byte) : List Word :=
  let zeros := (119 - bs.length % 64) % 64
  let len : List Byte := (leBytes 8 (8 * bs.length)).reverse
  let all := bs ++ 0x80 :: List.replicate zeros 0 ++ len
  (List.range (all.length / 4)).map fun i => W (leNat ((all.drop (4 * i)).take 4).reverse)

/-- The message schedule: `k` more words after those given, the newest first. -/
def shaExpand : Nat → List Word → List Word
  | 0, ws => ws
  | k + 1, ws =>
    shaExpand k ((shaSigma (wordAt ws 1) 17 19 10 true + wordAt ws 6 + shaSigma (wordAt ws 14) 7 18 3 true + wordAt ws 15) :: ws)

/-- One round on the eight working variables. -/
def shaRound (v : List Word) (kw : Word) : List Word :=
  match v with
  | [a, b, c, d, e, f, g, h] =>
    let t1 := h + shaSigma e 6 11 25 false + ((e &&& f) ^^^ (~~~ e &&& g)) + kw
    let t2 := shaSigma a 2 13 22 false + ((a &&& b) ^^^ (a &&& c) ^^^ (b &&& c))
    [t1 + t2, a, b, c, d + t1, e, f, g]
  | _ => v

/-- Take one block of 16 words into the hash. -/
def shaBlock (h : List Word) (block : List Word) : List Word :=
  let sched := (shaExpand 48 block.reverse).reverse
  let v := (shaK.zipWith (· + ·) sched).foldl shaRound h
  h.zipWith (· + ·) v

/-- Take every block; `fuel` bounds their number. -/
def shaBlocks : Nat → List Word → List Word → List Word
  | 0, h, _ => h
  | fuel + 1, h, ws => if ws = [] then h else shaBlocks fuel (shaBlock h (ws.take 16)) (ws.drop 16)

/-- SHA-256 of bytes: 32 bytes. -/
def sha256 (bs : List Byte) : List Byte :=
  let ws := shaWords bs
  (shaBlocks (ws.length / 16) shaInit ws).flatMap fun w => (leBytes 4 w.toNat).reverse

end Sys2Proof.Machine
end

