-- ==== Sys2Proof/Machine/Records.lean ====
section
/-! DEFINITION. The stored formats of a skein: its header, its sample-format and transition-format records, and its
descriptor (R470 to R477, R481). -/

namespace Sys2Proof.Machine

/-- The sample interval of FE_MODE.RATE in base ticks (R378). -/
def sampleInterval (rate : Nat) : Nat := if rate = 1 then 2 else if rate = 2 then 1 else 4

/-- The code of an END (R470). -/
def EndCode.code : EndCode → Nat
  | .complete => 0 | .stopped => 1 | .trunc => 2 | .full => 3

/-- METHOD of a CMP_Sn_CFG word; 0b11 acts as 0b00. -/
def methodOf (cfg : Word) : Nat := if fld cfg 1 0 = 3 then 0 else fld cfg 1 0

/-- The stored pods of a skein: those whose MASK word is nonzero, in increasing order. -/
def Skein.storedPods (k : Skein) : List Nat := (List.range 8).filter fun p => decide (wordAt k.mask p ≠ 0)

/-- The type of an item that ends a group without a record: what follows starts with a STAMP, and in transition format with a snapshot
too (R478). -/
def breakType : Nat := 0

/-- Item `i` of the skein is a marker of one of the types. -/
def Item.isMarkerOf (types : List Nat) : Item → Bool
  | .sample _ _ _ => false
  | .marker t _ _ _ => types.contains t

/-- The tick of an item. -/
def Item.tick : Item → Nat
  | .sample t _ _ => t
  | .marker _ t _ _ => t

/-- SHARED of an item. -/
def Item.shared : Item → Bool
  | .sample _ _ sh => sh
  | .marker _ _ _ sh => sh

/-- The item with SHARED written. -/
def Item.setShared (b : Bool) : Item → Item
  | .sample t w _ => .sample t w b
  | .marker y t a _ => .marker y t a b

/-- The item is a stored sample. -/
def Item.isSample : Item → Bool
  | .sample _ _ _ => true
  | .marker _ _ _ _ => false

/-! ### The header -/

/-- HDR, FLAGS and MODE of a header (R470). -/
def Skein.flagBytes (k : Skein) (bench : Nat) : List Byte :=
  let all := k.items
  leBytes 1 (bench % 8 + bN k.transition * 8 + methodOf k.cmpCfg * 16 + k.code.code * 64) ++
  leBytes 1 (bN k.trig.isSome + bN k.forced * 2 + bN k.headShared * 4 + bN k.tailShared * 8 +
    bN ((all ++ k.head).any (Item.isMarkerOf [2])) * 16 + bN ((all ++ k.head).any (Item.isMarkerOf [1, 3, 4, 5])) * 32 +
    bN k.calValid * 64) ++
  leBytes 1 (k.trigLevel % 16 + k.rate % 4 * 16 + bN k.stateMode * 64)

/-- The 64-byte header (R470). -/
def Skein.header (k : Skein) (bench : Nat) : List Byte :=
  [(0xA9 : Byte)] ++ k.flagBytes bench ++ leBytes 4 k.num ++ leBytes 7 k.start ++ leBytes 7 (k.trig.getD 0) ++
  leBytes 6 k.cal ++ leBytes 4 (if k.headShared || k.tailShared then k.ovlp else 0) ++
  bytesOfWords ((List.range 8).map fun p => wordAt k.mask p)

/-! ### Sample format -/

/-- A group or a marker of the sample format (R471). -/
inductive Rec where
  | group (shared : Bool) (rows : List (Nat × List Word))
  | marker (shared : Bool) (type tick arg : Nat)
  deriving DecidableEq, Repr

/-- A row may join the group whose latest row stands at `last` (R472, R473). -/
def joins (stateMode : Bool) (interval last tick : Nat) : Bool :=
  if stateMode then decide (tick - last < 2 ^ 32) else decide (tick = last + interval)

/-- Cut items into groups and markers, latest first: a group ends after 64 rows, at an edge of a shared range, at a marker,
and where a row cannot join it (R473). -/
def cutStep (stateMode : Bool) (interval : Nat) (acc : List Rec) (x : Item) : List Rec :=
  match x, acc with
  | .marker t tick arg sh, acc => .marker sh t tick arg :: acc
  | .sample tick ws sh, .group sh' rows :: rest =>
    let last := (rows.getLast?.map Prod.fst).getD 0
    if sh = sh' ∧ rows.length < 64 ∧ joins stateMode interval last tick then .group sh (rows ++ [(tick, ws)]) :: rest
    else .group sh [(tick, ws)] :: .group sh' rows :: rest
  | .sample tick ws sh, acc => .group sh [(tick, ws)] :: acc

/-- The groups and markers of items, oldest first (R473). -/
def cutGroups (stateMode : Bool) (interval : Nat) (items : List Item) : List Rec :=
  (items.foldl (cutStep stateMode interval) []).reverse

/-- The words of one row: one 4-byte pod word per stored pod (R471). -/
def rowBytes (pods : List Nat) (ws : List Word) : List Byte := bytesOfWords (pods.map fun p => wordAt ws p)

/-- The rows of a group; in state mode each is preceded by its delta from the row before (R472). -/
def rowsBytes (stateMode : Bool) (pods : List Nat) : Nat → List (Nat × List Word) → List Byte
  | _, [] => []
  | prev, (t, ws) :: rest =>
    (if stateMode then leBytes 4 (t - prev) else []) ++ rowBytes pods ws ++ rowsBytes stateMode pods t rest

/-- The bytes of a group or marker (R471, R472); `keep` says whether SHARED is written (R467). -/
def Rec.bytes (keep stateMode : Bool) (pods : List Nat) : Rec → List Byte
  | .group sh rows =>
    let t0 := (rows.head?.map Prod.fst).getD 0
    leBytes 8 (t0 % 2 ^ 56 + (rows.length - 1) % 64 * 2 ^ 56 + bN (sh && keep) * 2 ^ 62) ++ rowsBytes stateMode pods t0 rows
  | .marker sh type tick arg =>
    if type = breakType then [] else leBytes 8 (tick % 2 ^ 56 + type % 64 * 2 ^ 56 + bN (sh && keep) * 2 ^ 62 + 2 ^ 63) ++ leBytes 4 (arg % 2 ^ 24)

/-! ### Transition format -/

/-- Word 2 of a transition-format record (R474). -/
def transWord2 (delta pod : Nat) (sh : Bool) (kind : Nat) : Word :=
  pack [(delta % 2 ^ 24, 0), (pod % 8, 24), (bN sh, 27), (kind % 16, 28)]

/-- A STAMP (R474). -/
def stampBytes (tick : Nat) (sh : Bool) : List Byte :=
  bytesOfWords [W tick, W (tick / 2 ^ 32 % 2 ^ 24), transWord2 0 0 sh 1]

/-- A TRANS (R474). -/
def transBytes (changed new : Word) (delta pod : Nat) (sh : Bool) : List Byte :=
  bytesOfWords [changed, new, transWord2 delta pod sh 0]

/-- A MARKER of the transition format (R474). -/
def tmarkBytes (type arg delta : Nat) (sh : Bool) : List Byte :=
  bytesOfWords [W (arg % 2 ^ 24 + type % 64 * 2 ^ 24), 0, transWord2 delta 0 sh 2]

/-- One TRANS per named pod, DELTA 0 after the first (R475). -/
def transList (sh : Bool) : Nat → List (Nat × Word × Word) → List Byte
  | _, [] => []
  | delta, (p, ch, nw) :: rest => transBytes ch nw delta p sh ++ transList sh 0 rest

/-- Where the transition encoder stands: whether a record stands at all, the tick of the latest record, the pod words, SHARED
of the latest item, and whether the next sample needs a STAMP and a snapshot (R475, R476). -/
structure TransPos where
  begun : Bool := false
  tick : Nat := 0
  words : List Word := []
  shared : Bool := false
  fresh : Bool := true
  deriving DecidableEq, Repr

/-- A STAMP and a snapshot of the stored pods (R476). -/
def snapshotBytes (pods : List Nat) (tick : Nat) (ws : List Word) (sh : Bool) : List Byte :=
  stampBytes tick sh ++ transList sh 0 (pods.map fun p => (p, 0xFFFFFFFF, wordAt ws p))

/-- Encode one item of the transition format (R474 to R476); `keep` says whether SHARED is written (R467). -/
def transItem (keep : Bool) (pods : List Nat) (pos : TransPos) : Item → List Byte × TransPos
  | .sample t ws sh =>
    if pos.fresh || (sh && !pos.shared) then (snapshotBytes pods t ws (sh && keep), ⟨true, t, ws, sh, false⟩)
    else
      let ch := (pods.filter fun p => decide (wordAt ws p ≠ wordAt pos.words p)).map
        fun p => (p, wordAt ws p ^^^ wordAt pos.words p, wordAt ws p)
      if ch = [] then ([], { pos with shared := sh })
      else if t - pos.tick > 0xFFFFFF then (stampBytes t (sh && keep) ++ transList (sh && keep) 0 ch, ⟨true, t, ws, sh, false⟩)
      else (transList (sh && keep) (t - pos.tick) ch, ⟨true, t, ws, sh, false⟩)
  | .marker y t a sh =>
    let gap := y = 1 ∨ y = 2 ∨ y = 3
    if y = breakType then ([], { pos with fresh := true })
    else if !pos.begun ∨ t - pos.tick > 0xFFFFFF then
      (stampBytes t (sh && keep) ++ tmarkBytes y a 0 (sh && keep), { pos with begun := true, tick := t, fresh := pos.fresh || gap })
    else (tmarkBytes y a (t - pos.tick) (sh && keep), { pos with tick := t, fresh := pos.fresh || gap })

/-- The encoding of each item of the transition format, and where the encoder stands after it. -/
def transFold (keep : Bool) (pods : List Nat) : TransPos → List Item → List (List Byte) × TransPos
  | pos, [] => ([], pos)
  | pos, x :: rest =>
    let r := transItem keep pods pos x
    let q := transFold keep pods r.2 rest
    (r.1 :: q.1, q.2)

/-- Where the encoder of a skein's own records starts: afresh at START, or where the shared head left it (R476). -/
def Skein.startPos (k : Skein) : TransPos :=
  if k.headShared then { (transFold true k.storedPods {} k.head).2 with shared := false } else {}

/-! ### A skein's records -/

/-- The records of items of a skein, each as its bytes: one entry per group or marker in sample format, one per item in
transition format. -/
def Skein.recordsOf (k : Skein) (keep : Bool) (pos : TransPos) (items : List Item) : List (List Byte) :=
  if k.transition then (transFold keep k.storedPods pos items).1
  else (cutGroups k.stateMode (sampleInterval k.rate) items).map fun r => r.bytes keep k.stateMode k.storedPods

/-- Bytes with the 64-bit words of some numbers read as zero bytes (R764). -/
def blankWords (holes : List Nat) (bs : List Byte) : List Byte :=
  if holes = [] then bs else bs.mapIdx fun i b => if holes.contains (i / 8) then 0 else b

/-- The skein's record bytes; the records of a tail range that is no longer shared stay as written, without SHARED (R467). -/
def Skein.recordBytes (k : Skein) : List Byte := blankWords k.holes (k.recordsOf k.tailShared k.startPos k.items).flatten

/-- The bytes of the skein's records from the first shared item on, as they are stored (R464, R493). -/
def Skein.tailBytes (k : Skein) : List Byte :=
  k.recordBytes.drop (k.recordsOf k.tailShared k.startPos (k.items.filter fun x => !x.shared)).flatten.length

/-- BYTES of the descriptor: header and records, uncompressed (R481). -/
def Skein.size (k : Skein) : Nat := 64 + k.recordBytes.length

/-- The bobbin bytes the skein occupies: header and records, less what has left in durable stream blocks (R515). -/
def Skein.occupied (k : Skein) : Nat := k.size - k.released

/-- The completed records of a skein in progress: every group but an open last one (R466, R479), up to tick `limit` where a
TEST marker is still to come. -/
def Skein.closedBytes (k : Skein) (limit : Option Nat) : List Byte :=
  let before (x : Item) : Bool := match limit with
    | some t => decide (x.tick < t)
    | none => true
  let settled := k.items.takeWhile fun x => !x.shared && before x
  if k.transition then blankWords k.holes (k.recordsOf k.tailShared k.startPos settled).flatten
  else
    let rs := cutGroups k.stateMode (sampleInterval k.rate) settled
    let rs := match rs.getLast? with
      | some (.group _ rows) => if rows.length < 64 ∧ settled.length = k.items.length then rs.dropLast else rs
      | _ => rs
    blankWords k.holes (rs.flatMap fun r => r.bytes k.tailShared k.stateMode k.storedPods)

/-- The three words of the skein descriptor (R481). -/
def Skein.descriptor (k : Skein) (bench : Nat) : List DWord :=
  [BitVec.ofNat 64 (k.num % 2 ^ 32 + bench % 8 * 2 ^ 32 + k.code.code * 2 ^ 35 + bN k.streamed * 2 ^ 37 +
      bN k.trig.isSome * 2 ^ 38),
   BitVec.ofNat 64 (k.endTick % 2 ^ 56),
   BitVec.ofNat 64 (k.size % 2 ^ 40 + (if k.streamed then 0x7FFF else k.offset % 2 ^ 15) * 2 ^ 40)]

end Sys2Proof.Machine
end

