-- ==== Sys2Proof/Machine/FrontEnd.lean ====
section
/-! DEFINITION. The sampling front end: which channels are sampled, what the A9 stores for them, thresholds and deskew
(R374 to R391, R397, R398). -/

namespace Sys2Proof.Machine

/-! ### Comparators (R93, R376, R377) -/

/-- What a comparator gives at a level: 1 above its upper edge, 0 below its lower one, and in between what it last gave.  The edges
lie half the hysteresis off the threshold; within `err`, the accuracy of an edge, the answer is open (log entry 57).  All in mV. -/
def comparator (thr hyst err : Nat) (old : Bool) (mv : Int) : Option Bool :=
  let edge : Int := if old then (thr : Int) - (hyst / 2 : Nat) else (thr : Int) + (hyst / 2 : Nat)
  if edge + err < mv then some true else if mv < edge - err then some false else none

/-- A comparator's answer; a free value where it is open. -/
def State.compare (s : State) (thr hyst err : Nat) (old : Bool) (mv : Int) : Bool × State :=
  match comparator thr hyst err old mv with
  | some b => (b, s)
  | none => let d := s.draw 1; (d.1 == 1, d.2)

/-! ### Modes and channels -/

/-- FE_MODE in effect of bench `n`. -/
def State.feMode (s : State) (n : Nat) : Word := s.eff .feMode n

/-- FE_MODE.STATE in effect (R381). -/
def State.stateMode (s : State) (n : Nat) : Bool := bitB (s.feMode n) 4

/-- FE_MODE.RATE in effect (R378). -/
def State.feRate (s : State) (n : Nat) : Nat := fld (s.feMode n) 1 0

/-- The channels whose sampler lanes Dd uses, itself first (R378). -/
def lanesOf (rate d : Nat) : List Nat :=
  if rate = 1 then [d, d + 16] else if rate = 2 then [d, d + 8, d + 16, d + 24] else [d]

/-- The number of channels of a pod that RATE samples (R378). -/
def ratedChannels (rate : Nat) : Nat := if rate = 1 then 16 else if rate = 2 then 8 else 32

/-- Channel Dd of pod `p` is in service. -/
def State.inService (s : State) (p d : Nat) : Bool := !s.isRetired (resChannel (32 * p + d))

/-- Channel Dd of pod `p` is sampled for bench `n`: the bench owns the pod, and the channel and every partner whose lane it
borrows are in service (R378, R379, R382). -/
def State.samples (s : State) (n p d : Nat) : Bool :=
  s.owns n p &&
    (if s.stateMode n then s.inService p d
     else decide (d < ratedChannels (s.feRate n)) && (lanesOf (s.feRate n) d).all fun k => s.inService p k)

/-- The sampled channels of pod `p`, as a word. -/
def State.sampledMask (s : State) (n p : Nat) : Word := W (bitsOf ((List.range 32).filter fun d => s.samples n p d))

/-- FE_VALIDp: the sampled channels of an owned, present pod (R390). -/
def State.feValid (s : State) (n p : Nat) : Word := if (s.pod p).present then s.sampledMask n p else 0

/-- The channels of pod `p` that a loopback test holds, and the ones among them held at 1 (R397). -/
def State.heldMask (s : State) (p : Nat) : Word × Word :=
  let h := s.ref.held.filter fun c => decide (c.1 / 32 = p)
  (W (bitsOf (h.map fun c => c.1 % 32)), W (bitsOf ((h.filter fun c => c.2).map fun c => c.1 % 32)))

/-- The word the A9 stores for pod `p` from the raw comparator word: 0 for every channel that is not sampled, and the held
value for a channel under a loopback test (R380, R397, R398, R415). -/
def State.storedWord (s : State) (n p : Nat) (raw : Word) : Word :=
  let h := s.heldMask p
  ((raw &&& ~~~ h.1) ||| h.2) &&& s.sampledMask n p

/-- The eight stored pod words of a sample. -/
def State.storedWords (s : State) (n : Nat) (raw : List Word) : List Word :=
  (List.range 8).map fun p => s.storedWord n p (wordAt raw p)

/-- FE_STATUS.CLK_UNOWNED: state mode on the clock of a pod the bench does not own (R386). -/
def State.clkUnowned (s : State) (n : Nat) : Bool := s.stateMode n && !s.owns n (fld (s.feMode n) 10 8)

/-- The threshold of pod `p` in mV (R376). -/
def State.thresholdMv (s : State) (n p : Nat) : Nat := max 10 (min 400 (fld (s.eff .fePod n p) 8 0)) * 10

/-- The hysteresis of pod `p` in mV (R377). -/
def State.hysteresisMv (s : State) (n p : Nat) : Nat :=
  match fld (s.eff .fePod n p) 10 9 with
  | 0 => 0 | 1 => 50 | _ => 100

/-- The EEPROM trim of channel pair `j`, 0 for an unidentified or absent pod (R388, R389). -/
def State.podTrim (s : State) (p j : Nat) : Int :=
  let x := s.pod p
  if x.present && x.ident then signed 8 ((x.trim.getD j 0).toNat) else 0

/-- The deskew delay of channel pair `j` of pod `p` in 10 ps units: trim plus FE_DSKp, held within −1.28 ns and +1.27 ns
(R388). -/
def State.deskew (s : State) (n p j : Nat) : Int :=
  let off := signed 8 (fld (s.eff .feDsk n (4 * p + j / 4)) (8 * (j % 4) + 7) (8 * (j % 4)))
  max (-128) (min 127 (s.podTrim p j + off))

/-! ### The comparators of a bench's pods (R63, R67, R376, R377, R381, R388) -/

/-- The accuracy of a pod comparator's edge in mV: 1 % of the threshold and 15 mV, or 100 mV while the pod's summed clamp current is
above 20 mA, and a tenth of the hysteresis (R63, R67). -/
def edgeError (thr hyst : Nat) (hot : Bool) : Nat := (if hot then 100 else (thr + 99) / 100 + 15) + hyst / 10

/-- What happens at a ball after `t0`, or from the start of the window on, up to `t1`: times and voltages. -/
def voltagesIn (b : Ball) (t0 : Option Int) (t1 : Int) : List (Int × Int) :=
  match t0 with
  | none => (t1, b.mv) :: b.steps.filter fun x => decide (x.1 ≤ t1)
  | some t => b.steps.filter fun x => decide (t < x.1 ∧ x.1 ≤ t1)

/-- Pass voltages through a comparator: its changes, each with its time, and what it gives at the end. -/
def runComparator (s : State) (thr hyst err : Nat) : Bool → List (Int × Int) → List (Int × Bool) × Bool × State
  | old, [] => ([], old, s)
  | old, (t, mv) :: rest =>
    let c := s.compare thr hyst err old mv
    let r := runComparator c.2 thr hyst err c.1 rest
    (if c.1 = old then r.1 else (t, c.1) :: r.1, r.2)

/-- The data comparators of pod `p` of bench `n` run from just after `t0` up to `t1`, each pair behind its deskew delay (R376, R377,
R388). -/
def runPod (s : State) (n p : Nat) (x : PodInput) (t0 : Option Int) (t1 : Int) : State :=
  let thr := s.thresholdMv n p
  let hyst := s.hysteresisMv n p
  let r := (List.range 32).foldl (fun (acc : Nat × State) d =>
    let old := bitB (s.pod p).comp d
    let b := x.data.getD d ⟨0, []⟩
    if b.steps = [] ∧ t0.isSome then (acc.1 + bN old * 2 ^ d, acc.2)
    else
      let del := 10 * s.deskew n p (d / 2)
      let c := runComparator acc.2 thr hyst (edgeError thr hyst x.hot) old (voltagesIn b (t0.map (· - del)) (t1 - del))
      (acc.1 + bN c.2.1 * 2 ^ d, c.2.2)) (0, s)
  r.2.setPod p { r.2.pod p with comp := W r.1 }

/-- The comparators of every pod of bench `n` run. -/
def runPods (s : State) (n : Nat) (pods : List PodInput) (t0 : Option Int) (t1 : Int) : State :=
  s.each ((List.range 8).filter fun p => s.owns n p) fun s p =>
    runPod s n p (pods.getD p ⟨[], ⟨0, []⟩, false⟩) t0 t1

/-- FE_MODE.EDGE selects an edge to this level (R381). -/
def State.edgeSelected (s : State) (n : Nat) (rising : Bool) : Bool :=
  match fld (s.feMode n) 6 5 with
  | 1 => !rising
  | 2 => true
  | _ => rising

/-- The comparator of the clock that bench `n` samples on runs over the base tick that begins at `t`: the times of the selected edges
(R381).  The level found at the start of a window is no edge. -/
def runClock (s : State) (n : Nat) (pods : List PodInput) (first : Bool) (t : Int) : List Int × State :=
  let p := fld (s.feMode n) 10 8
  let x := pods.getD p ⟨[], ⟨0, []⟩, false⟩
  let thr := s.thresholdMv n p
  let hyst := s.hysteresisMv n p
  let err := edgeError thr hyst x.hot
  let begun := runComparator s thr hyst err (s.pod p).clkComp (if first then [(t, x.clk.mv)] else [])
  let r := runComparator begun.2.2 thr hyst err begun.2.1 (voltagesIn x.clk (some (t - 1)) (t + 624))
  let s := r.2.2
  ((r.1.filter fun e => s.edgeSelected n e.2).map Prod.fst, s.setPod p { s.pod p with clkComp := r.2.1 })

/-- Two consecutive edges of a list lie less than 4 ns apart (R384). -/
def edgesClose : List Int → Bool
  | a :: b :: rest => decide (b - a < 4000) || edgesClose (b :: rest)
  | _ => false

/-- Selected edges have arrived: CLK_OVER, CLK_IDLE and the last edge follow (R384, R385). -/
def clockEdges (s : State) (n : Nat) (edges : List Int) : State :=
  let c := s.cap n
  s.setCap n { c with
    clkOver := edgesClose (c.lastEdge.toList ++ edges), clkIdle := c.clkIdle && edges.isEmpty,
    lastEdge := edges.getLast?.or c.lastEdge }

/-- No selected edge in the base tick that begins at `t`: 4 ns after the last one CLK_OVER clears (R384). -/
def clockQuiet (s : State) (n : Nat) (t : Int) : State :=
  let c := s.cap n
  match c.lastEdge with
  | some e => if e + 4000 ≤ t + 625 then s.setCap n { c with clkOver := false } else s
  | none => s

/-- The comparator words of the eight pods; those of pods that the bench does not own are not looked at (R380). -/
def State.rawWords (s : State) (n : Nat) : List Word :=
  (List.range 8).map fun p => if s.owns n p then (s.pod p).comp else 0

/-- Bench `n` is ARMED or CAPTURING. -/
def State.capturing (s : State) (n : Nat) : Bool :=
  decide (s.bstate n = .armed) || decide (s.bstate n = .capturing)

/-- FE_STATUS (R384 to R386, R400). -/
def State.feStatus (s : State) (n : Nat) : Word :=
  let owned := (List.range 8).filter fun p => s.owns n p
  pack [(bN ((s.cap n).clkOver && s.stateMode n && s.capturing n), 0), (bN (s.cap n).clkIdle, 1), (bN (s.clkUnowned n), 2),
    (bitsOf (owned.filter fun p => (s.pod p).present), 8), (bitsOf (owned.filter fun p => (s.pod p).ident), 16)]

/-- The number of bits that are one in `new` and zero in `old`. -/
def risen (old new : Word) : Nat := popcount (new &&& ~~~ old)

/-- Add a word's flags to a pod field of overdrive, counting 0-to-1 changes in FE_OVDCNTp of the owner (R392). -/
def setOverdrive (s : State) (p : Nat) (ovd : Word) : State :=
  let x := s.pod p
  let k := risen x.ovd ovd
  let s := s.setPod p { x with ovd := ovd }
  match s.ownerOf p with
  | some n => if k = 0 then s else s.bumpSat .feOvdcnt n p 15 0 k
  | none => s

end Sys2Proof.Machine
end

