-- ==== Sys2Proof/Machine/Trigger.lean ====
section
/-! DEFINITION. The trigger sequencer: conditions, actions, level entry, relay lines and the per-sample procedure
(R411 to R448). -/

namespace Sys2Proof.Machine

/-! ### Conditions -/

/-- Word comparator `c` matches the pod words (R418, R419). -/
def wcMatches (cfg mask a b : Word) (ws : List Word) : Bool :=
  let w := wordAt ws (fld cfg 2 0)
  if bitB cfg 4 then decide (a.toNat ≤ (w &&& mask).toNat ∧ (w &&& mask).toNat ≤ b.toNat)
  else decide ((w ^^^ a) &&& mask = 0)

/-- Channel `c` (32 × p + d) of the pod words. -/
def channelOf (ws : List Word) (c : Nat) : Bool := bitB (wordAt ws (c / 32)) (c % 32)

/-- An edge detector sees its edge (R420, R421). -/
def edgeSeen (edge : Word) (prev : Option (List Word)) (ws : List Word) : Bool :=
  match prev with
  | none => false
  | some p =>
    let was := channelOf p (fld edge 7 0)
    let is := channelOf ws (fld edge 7 0)
    match fld edge 9 8 with
    | 0 => !was && is
    | 1 => was && !is
    | 2 => was != is
    | _ => false

/-- The limit of timer `t` in effect (TRG_TMRt_LIM). -/
def State.timerLimit (s : State) (n t : Nat) : Nat :=
  ofLoHi (s.eff .trgTmrLimLo n t) (s.eff .trgTmrLimHi n t)

/-- A timer's elapsed value at a tick; 0 while it is stopped (R427). -/
def timerElapsed (start : Option Nat) (tick : Nat) : Nat :=
  match start with
  | none => 0
  | some t => min (2 ^ 48 - 1) (tick - t)

/-- The test a SRC selects, `none` for a reserved SRC, and for a relay line that the bench does not observe (R417, R422, R441). -/
def srcTest (s : State) (n : Nat) (q : Sequencer) (lines : List Nat) (tick : Nat) (ws : List Word) (src : Nat) : Option Bool :=
  if src = 0 then some false
  else if src = 1 then some true
  else if 0x08 ≤ src ∧ src ≤ 0x0F then
    let c := src - 8
    some (wcMatches (s.eff .trgWcCfg n c) (s.eff .trgWcMask n c) (s.eff .trgWcA n c) (s.eff .trgWcB n c) ws)
  else if 0x10 ≤ src ∧ src ≤ 0x13 then some (edgeSeen (s.eff .trgEdge n (src - 0x10)) q.prev ws)
  else if 0x14 ≤ src ∧ src ≤ 0x17 then
    some (decide ((s.eff .trgCntLim n (src - 0x14)).toNat ≤ q.counts.getD (src - 0x14) 0))
  else if 0x18 ≤ src ∧ src ≤ 0x19 then
    match q.timers.getD (src - 0x18) none with
    | none => some false
    | some t => some (decide (s.timerLimit n (src - 0x18) ≤ timerElapsed (some t) tick))
  else if 0x20 ≤ src ∧ src ≤ 0x27 then
    if bitB (s.eff .trgRelayEn n) (8 + (src - 0x20)) then some (lines.contains (src - 0x20)) else none
  else none

/-- A condition word's value (R417): the test, inverted by INV; where no test is selected it is false whatever INV holds. -/
def condition (s : State) (n : Nat) (q : Sequencer) (lines : List Nat) (tick : Nat) (ws : List Word) (w : Word) : Bool :=
  match srcTest s n q lines tick ws (fld w 5 0) with
  | none => false
  | some b => b != bitB w 6

/-! ### Actions -/

/-- What the actions of one sample ask for (R424, R425). -/
structure Acts where
  goto_ : Option Nat := none
  store : Option Bool := none
  trigger : Bool := false
  relays : List Nat := []
  counts : List Nat := []
  deriving DecidableEq, Repr

/-- Perform an action byte after those already performed: what an earlier action set stands (R424, R425). -/
def Acts.perform (a : Acts) (byte : Nat) : Acts :=
  let arg := byte / 8 % 16
  match byte % 8 with
  | 1 => { a with goto_ := a.goto_.or (some arg) }
  | 2 => { a with store := a.store.or (some true) }
  | 3 => { a with store := a.store.or (some false) }
  | 4 => { a with trigger := true }
  | 5 => { a with relays := a.relays ++ [arg % 8] }
  | 6 => { a with counts := a.counts ++ [arg % 4] }
  | _ => a

/-- Which actions of a level fire (R423). -/
def combine (comb : Nat) (c0 c1 seen : Bool) : Bool × Bool :=
  match comb with
  | 1 => (c0 && c1, c0 && c1)
  | 2 => (c0 && !seen, c1 && seen)
  | _ => (c0, c1)

/-! ### Level entry and boundaries -/

/-- Enter level `k` of bench `n` from a sample or boundary at `tick` (R426). -/
def enterLevel (s : State) (n : Nat) (q : Sequencer) (k tick : Nat) : Sequencer :=
  let ctrl := s.eff .trgLCtrl n k
  { q with
    level := k, seen := false,
    counts := q.counts.mapIdx fun c v => if bitB ctrl (20 + c) then 0 else v,
    timers := q.timers.mapIdx fun t v => if bitB ctrl (24 + t) then some tick else v }

/-- The sequencer at a skein boundary (R429): counters 0, timers stopped, STORE_INIT, level 0 entered; relay raises of
earlier windows are forgotten (R448).  `fresh` is an arm, which has no previous sample (R421). -/
def restartSequencer (s : State) (n tick : Nat) (fresh : Bool) : Sequencer :=
  let q := s.seqr n
  enterLevel s n { q with
    counts := [0, 0, 0, 0], timers := [none, none], elapsed := [0, 0], store := bitB (s.eff .trgCfg n) 0,
    running := true, triggered := false, prev := if fresh then none else q.prev,
    relay := q.relay.filter fun r => decide (tick / 8 ≤ r.2) } 0 tick

/-- Stop a bench's sequencer at once (R434, R436, R437). -/
def stopSequencer (s : State) (n : Nat) : State := s.setSeqr n { s.seqr n with running := false }

/-! ### Relay lines -/

/-- Raise line `r` in window `w`: every bench of the ply keeps one event for its own later sample (R23, R438, R440, R441); a bench whose
sequencer does not run keeps those of the latest window, which an arm or re-arm in it still observes (R448). -/
def raiseRelay (s : State) (n r w : Nat) : State :=
  if bitB (s.eff .trgRelayEn n) r then
    s.each (s.benchList.filter fun m => decide (s.plyOf m = s.plyOf n)) fun s m =>
      let q := s.seqr m
      let old := if q.running then q.relay else q.relay.filter fun e => decide (w ≤ e.2)
      s.setSeqr m { q with relay := if old.contains (r, w) then old else old ++ [(r, w)] }
  else s

/-- The relay events that a sample at `tick` observes (R24, R439). -/
def observed (s : State) (n : Nat) (q : Sequencer) (tick : Nat) : List Nat :=
  (q.relay.filter fun e => decide (8 * (e.2 + 2) ≤ tick) && bitB (s.eff .trgRelayEn n) (8 + e.1)).map Prod.fst

/-! ### The per-sample procedure -/

/-- What the evaluation of a sample decides. -/
structure SampleOut where
  /-- The store state at the sample. -/
  store : Bool := false
  /-- A trigger in the sample: the level, and whether it was forced. -/
  trigger : Option (Nat × Bool) := none
  deriving DecidableEq, Repr

/-- Evaluate one sample (R413, "The per-sample procedure"); `force` is a TRG_FORCE that this sample answers (R435, R444). -/
def evalSample (s : State) (n tick : Nat) (ws : List Word) (force : Bool) : State × SampleOut :=
  let q := s.seqr n
  if !q.running then
    (s.setSeqr n { q with prev := some ws, relay := q.relay.filter fun e => decide (tick / 8 ≤ e.2) }, ⟨q.store, none⟩)
  else
    let lines := observed s n q tick
    let q := { q with relay := q.relay.filter fun e => !decide (8 * (e.2 + 2) ≤ tick) }
    let ctrl := s.eff .trgLCtrl n q.level
    let c0 := condition s n q lines tick ws (s.eff .trgLCond0 n q.level)
    let c1 := condition s n q lines tick ws (s.eff .trgLCond1 n q.level)
    let f := combine (fld ctrl 17 16) c0 c1 q.seen
    let a0 : Acts := if f.1 then ({} : Acts).perform (fld ctrl 7 0) else {}
    let a := if f.2 then a0.perform (fld ctrl 15 8) else a0
    let acts := if force then { ({} : Acts) with trigger := true } else a
    let forced := force && !a.trigger
    let stored := q.store
    let q1 := { q with
      counts := acts.counts.foldl (fun cs c => cs.set c (satAdd 0xFFFFFFFF (cs.getD c 0) 1)) q.counts
      seen := if fld ctrl 17 16 = 2 ∧ f.1 ∧ !force then true else q.seen
      store := acts.store.getD q.store
      prev := some ws }
    let q2 := match acts.goto_ with
      | some k => enterLevel s n q1 k tick
      | none => q1
    let q2 := { q2 with elapsed := q2.timers.map fun t => timerElapsed t tick }
    let q3 := if acts.trigger then { q2 with running := false, triggered := true, trig := tick } else q2
    let s := s.setSeqr n q3
    let s := s.each acts.relays fun s r => raiseRelay s n r (tick / 8)
    (s, ⟨stored, if acts.trigger then some (q.level, forced) else none⟩)

/-- TRG_STATUS. -/
def Sequencer.status (q : Sequencer) : Word :=
  pack [(q.level % 16, 0), (bN q.store, 4), (bN q.seen, 5), (bN q.running, 6), (bN q.triggered, 7),
    (bN (q.timers.getD 0 none).isSome, 8), (bN (q.timers.getD 1 none).isSome, 9)]

end Sys2Proof.Machine
end

