-- ==== Sys2Proof/Machine/Search.lean ====
section
/-! DEFINITION. Search and decode jobs on stored samples: the record parsers, pattern and sequence search, and the decoders of
UART, SPI, I²C-bus and the single-wire slot bus (R624 to R626, R641, R642). -/

namespace Sys2Proof.Machine

/-! ### Stored items and their record bytes -/

/-- The record bytes of each item of a skein's own items, in order (R471, R472, R474). -/
def Skein.weights (k : Skein) : List Nat :=
  if k.transition then ((transFold k.tailShared k.storedPods k.startPos k.items).1).map List.length
  else
    let row := 4 * k.storedPods.length + (if k.stateMode then 4 else 0)
    (cutGroups k.stateMode (sampleInterval k.rate) k.items).flatMap fun r => match r with
      | .marker _ y _ _ => [if y = breakType then 0 else 12]
      | .group _ rows => rows.mapIdx fun i _ => if i = 0 then 8 + row else row

/-- The items a job reads of a skein: skein number, record bytes, item.  In transition format a sample that changed nothing is
not stored (R474, R475); the shared head of a skein whose predecessor is not read comes first (R493). -/
def Skein.jobInput (k : Skein) (withHead : Bool) : List (Nat × Nat × Item) :=
  let own := (k.weights.zip k.items).filter fun p => !(k.transition && p.1 == 0)
  let head := if withHead && k.headShared then k.head.map fun x => (0, x) else []
  (head ++ own).map fun p => (k.num, p.1, p.2)

/-- The eight words of a row that holds the words of the stored pods. -/
def spreadWords (pods : List Nat) (ws : List Word) : List Word :=
  (List.range 8).map fun p => if pods.contains p then wordAt ws (pods.idxOf p) else 0

/-- Read the rows of a group (R471, R472). -/
def parseRows (stateMode : Bool) (interval : Nat) (pods : List Nat) (sh : Bool) :
    Nat → Nat → Nat → List Byte → List Item × List Byte
  | 0, _, _, bs => ([], bs)
  | rows + 1, i, t, bs =>
    let tick := if stateMode then t + leNat (bs.take 4) else t + i * interval
    let body := if stateMode then bs.drop 4 else bs
    let ws := spreadWords pods (wordsOfBytes (body.take (4 * pods.length)))
    let r := parseRows stateMode interval pods sh rows (i + 1) (if stateMode then tick else t) (body.drop (4 * pods.length))
    (.sample tick ws sh :: r.1, r.2)

/-- Read sample-format records (R471, R472); `fuel` bounds the groups. -/
def parseSampleRecs (stateMode : Bool) (interval : Nat) (pods : List Nat) : Nat → List Byte → List Item
  | 0, _ => []
  | fuel + 1, bs =>
    if bs.length < 8 then []
    else
      let w := leNat (bs.take 8)
      let tick := w % 2 ^ 56
      let sh := w.testBit 62
      if w.testBit 63 then
        .marker (w / 2 ^ 56 % 64) tick (leNat ((bs.drop 8).take 4) % 2 ^ 24) sh ::
          parseSampleRecs stateMode interval pods fuel (bs.drop 12)
      else
        let r := parseRows stateMode interval pods sh (w / 2 ^ 56 % 64 + 1) 0 tick (bs.drop 8)
        r.1 ++ parseSampleRecs stateMode interval pods fuel r.2

/-- Read transition-format records (R474, R475): tick and pod words so far, and the sample being put together. -/
def parseTransRecs : Nat → Nat → List Word → Option Item → List Byte → List Item
  | 0, _, _, pend, _ => pend.toList
  | fuel + 1, tick, ws, pend, bs =>
    if bs.length < 12 then pend.toList
    else
      let w0 := W (leNat (bs.take 4))
      let w1 := W (leNat ((bs.drop 4).take 4))
      let w2 := W (leNat ((bs.drop 8).take 4))
      let sh := bitB w2 27
      let delta := fld w2 23 0
      match fld w2 31 28 with
      | 0 =>
        let now := ws.set (fld w2 26 24) w1
        let x := Item.sample (tick + delta) now sh
        let before := if delta = 0 then [] else pend.toList
        before ++ parseTransRecs fuel (tick + delta) now (some x) (bs.drop 12)
      | 1 => pend.toList ++ parseTransRecs fuel (w0.toNat + fld w1 23 0 * 2 ^ 32) ws none (bs.drop 12)
      | 2 => pend.toList ++ .marker (fld w0 29 24) (tick + delta) (fld w0 23 0) sh ::
          parseTransRecs fuel (tick + delta) ws none (bs.drop 12)
      | _ => pend.toList ++ parseTransRecs fuel tick ws none (bs.drop 12)

/-- A skein read back from its header and its records, after the items of the skein before it, which hold its shared head (R464, R470
to R476). -/
def skeinOfBytes (header recs : List Byte) (before : List Item) : Skein :=
  let f (o l : Nat) : Nat := leNat ((header.drop o).take l)
  let mode := f 3 1
  let mask := (List.range 8).map fun p => W (f (0x20 + 4 * p) 4)
  let k : Skein := {
    num := f 4 4, start := f 8 7, transition := (f 1 1).testBit 3, rate := mode / 16 % 4, stateMode := mode.testBit 6,
    mask := mask, headShared := (f 2 1).testBit 2, streamed := true }
  let k := { k with head := if k.headShared then before.filter fun x => x.shared && decide (k.start ≤ x.tick) else [] }
  let pos := k.startPos
  let items := if k.transition then parseTransRecs (recs.length / 12 + 1) pos.tick (padTo 8 0 pos.words) none recs
    else parseSampleRecs k.stateMode (sampleInterval k.rate) k.storedPods (recs.length / 8 + 1) recs
  { k with items := items }

/-! ### Search (R624) -/

/-- A search pattern: CFG, MASK, A, B (R624). -/
structure Pattern where
  cfg : Word
  mask : Word
  a : Word
  b : Word
  deriving DecidableEq, Repr

/-- The patterns in payload words. -/
def patternsOf : Nat → List Word → List Pattern
  | 0, _ => []
  | n + 1, ws => ⟨wordAt ws 0, wordAt ws 1, wordAt ws 2, wordAt ws 3⟩ :: patternsOf n (ws.drop 4)

/-- The pattern matches the words. -/
def Pattern.hits (p : Pattern) (ws : List Word) : Bool := wcMatches p.cfg p.mask p.a p.b ws

/-- A search hit (R626). -/
def searchRecord (tick index skein : Nat) (w : Word) : List Byte :=
  leBytes 7 tick ++ leBytes 1 index ++ leBytes 4 skein ++ leBytes 4 w.toNat

/-- Pattern mode: each sample that matches any pattern (R624). -/
def patternSearch (ps : List Pattern) : List (Nat × Nat × Item) → List (List Byte)
  | [] => []
  | (_, _, .marker _ _ _ _) :: t => patternSearch ps t
  | (k, _, .sample tick ws _) :: t =>
    match ps.findIdx? fun p => p.hits ws with
    | some i =>
      let w := wordAt ws (fld ((ps.getD i ⟨0, 0, 0, 0⟩).cfg) 2 0)
      searchRecord tick i k w :: patternSearch ps t
    | none => patternSearch ps t

/-- The ends of the chains of patterns 0 to m, by m, after a sample (R624): `ends` holds the latest tick of each. -/
def chainEnds (gap tick : Nat) (ps : List Pattern) (ws : List Word) (ends : List (Option Nat)) : List (Option Nat) :=
  ps.mapIdx fun m p =>
    let follows := if m = 0 then true
      else match ends.getD (m - 1) none with
        | some u => decide (gap = 0) || decide (tick ≤ u + 8 * gap)
        | none => false
    if p.hits ws && follows then some tick else ends.getD m none

/-- Sequence mode (R624). -/
def sequenceSearch (gap : Nat) (ps : List Pattern) : List (Option Nat) → List (Nat × Nat × Item) → List (List Byte)
  | _, [] => []
  | ends, (_, _, .marker _ _ _ _) :: t => sequenceSearch gap ps ends t
  | ends, (k, _, .sample tick ws _) :: t =>
    let now := chainEnds gap tick ps ws ends
    if now.getD (ps.length - 1) none = some tick then
      let w := wordAt ws (fld ((ps.getD (ps.length - 1) ⟨0, 0, 0, 0⟩).cfg) 2 0)
      searchRecord tick (ps.length - 1) k w :: sequenceSearch gap ps [] t
    else sequenceSearch gap ps now t

/-- The records of a search job over some input (R624, R626): its payload from word 2 on. -/
def searchResults (payload : List Word) (input : List (Nat × Nat × Item)) : List (List Byte) :=
  let w2 := wordAt payload 0
  let ps := patternsOf (fld w2 6 4) (payload.drop 4)
  if bitB w2 1 then sequenceSearch (wordAt payload 3).toNat ps [] input else patternSearch ps input

/-! ### Decode (R625, R626, R641, R642) -/

/-- The levels of the named channels at a tick. -/
structure Point where
  tick : Nat
  a : Bool
  b : Bool
  c : Bool
  deriving DecidableEq, Repr

/-- A run of samples without a gap: its skein, its points, and the tick at which it ends. -/
structure Run where
  skein : Nat
  points : List Point
  fin : Nat
  deriving DecidableEq, Repr

/-- A decode record before its bytes: first tick, KIND, VALUE and flags. -/
structure Unit_ where
  tick : Nat
  kind : Nat
  value : Nat
  framing : Bool := false
  parity : Bool := false
  nack : Bool := false
  incomplete : Bool := false
  deriving DecidableEq, Repr

/-- A decode record (R626). -/
def Unit_.bytes (u : Unit_) (skein : Nat) : List Byte :=
  leBytes 7 u.tick ++ leBytes 1 u.kind ++
    leBytes 4 (u.value % 2 ^ 16 + bN u.framing * 2 ^ 16 + bN u.parity * 2 ^ 17 + bN u.nack * 2 ^ 18 + bN u.incomplete * 2 ^ 19) ++
    leBytes 4 skein

/-- Cut input into runs: a gap marker (R477) and the end of a skein end a run. -/
def cutRuns (cha chb chc : Nat) : Option Run → List (Nat × Nat × Item) → List Run
  | cur, [] => cur.toList
  | cur, (k, _, .sample t ws _) :: rest =>
    let p : Point := ⟨t, channelOf ws cha, channelOf ws chb, channelOf ws chc⟩
    match cur with
    | some r =>
      if r.skein = k then cutRuns cha chb chc (some { r with points := r.points ++ [p], fin := t + 1 }) rest
      else r :: cutRuns cha chb chc (some ⟨k, [p], t + 1⟩) rest
    | none => cutRuns cha chb chc (some ⟨k, [p], t + 1⟩) rest
  | cur, (_, _, .marker y t _ _) :: rest =>
    if y = 1 ∨ y = 2 ∨ y = 3 then
      (cur.map fun r => { r with fin := max r.fin t }).toList ++ cutRuns cha chb chc none rest
    else cutRuns cha chb chc cur rest

/-- The level of channel A at tick `t`: that of the latest point at or before it. -/
def levelAt (pts : List Point) (t : Nat) : Bool :=
  (pts.foldl (fun acc p => if p.tick ≤ t then some p.a else acc) none).getD true

/-- The tick of the first falling edge of channel A (after `inv`) at or after tick `t`. -/
def nextFall (inv : Bool) (t : Nat) : List Point → Option Nat
  | p :: q :: rest =>
    if t ≤ q.tick ∧ (p.a != inv) ∧ !(q.a != inv) then some q.tick else nextFall inv t (q :: rest)
  | _ => none

/-- UART frames (R625, R641): each bit is read in the middle of its time after the start edge. -/
def uartUnits (p : Word) (r : Run) : Nat → Nat → List Unit_
  | 0, _ => []
  | fuel + 1, from_ =>
    let bt := fld p 23 0
    let nb := fld p 27 24
    let par := fld p 29 28
    let inv := bitB p 31
    match nextFall inv from_ r.points with
    | none => []
    | some t0 =>
      let at_ (i : Nat) : Nat := t0 + (2 * i + 1) * bt / 2
      let bit (i : Nat) : Bool := levelAt r.points (at_ i) != inv
      let data := (List.range nb).filter fun i => decide (at_ (i + 1) < r.fin)
      let value := bitsOf (data.filter fun i => bit (i + 1))
      let parBits := if par = 0 then 0 else 1
      let stops := if bitB p 30 then 2 else 1
      let lastBit := nb + parBits + stops
      if r.fin ≤ at_ lastBit then [{ tick := t0, kind := 0, value := value, incomplete := true }]
      else
        let ones := (data.filter fun i => bit (i + 1)).length + (if parBits = 1 ∧ bit (nb + 1) then 1 else 0)
        let parErr := (par = 1 ∧ ones % 2 = 1) ∨ (par = 2 ∧ ones % 2 = 0)
        let frame := !((List.range stops).all fun i => bit (nb + parBits + 1 + i))
        { tick := t0, kind := 0, value := value, framing := frame, parity := parErr } :: uartUnits p r fuel (at_ lastBit)

/-- SPI words (R641): the bits so far and the tick of the first edge. -/
def spiUnits (p : Word) : Option (Nat × List Bool) → List Point → List Unit_
  | acc, x :: y :: rest =>
    let active (q : Point) : Bool := q.c == bitB p 8
    let n := fld p 7 4 + 1
    let valueOf (bs : List Bool) : Nat := if bitB p 1 then natOfBitsLsb bs else bs.foldl (fun v b => 2 * v + bN b) 0
    if !active y then
      (match acc with
        | some (t, bs) => [{ tick := t, kind := 0, value := valueOf bs, incomplete := true }]
        | none => []) ++ spiUnits p none (y :: rest)
    else if active x && (if bitB p 0 then x.a && !y.a else !x.a && y.a) then
      let got := match acc with
        | some (t, bs) => (t, bs ++ [y.b])
        | none => (y.tick, [y.b])
      if got.2.length = n then { tick := got.1, kind := 0, value := valueOf got.2 } :: spiUnits p none (y :: rest)
      else spiUnits p (some got) (y :: rest)
    else spiUnits p acc (y :: rest)
  | acc, _ => match acc with
    | some (t, bs) => [{ tick := t, kind := 0, value := if bitB p 1 then natOfBitsLsb bs else bs.foldl (fun v b => 2 * v + bN b) 0, incomplete := true }]
    | none => []
where
  /-- The number that bits spell, the first one least significant. -/
  natOfBitsLsb : List Bool → Nat
    | [] => 0
    | b :: t => bN b + 2 * natOfBitsLsb t

/-- I²C-bus (R625, R626, R641): whether the bus is in a transfer and at its address byte, the tick of the byte's first edge and
its bits. -/
def i2cUnits : Bool → Bool → Nat → List Bool → List Point → List Unit_
  | busy, isAddr, t0, bs, x :: y :: rest =>
    let partialUnit : List Unit_ :=
      if bs = [] then [] else
        [{ tick := t0, kind := if isAddr then 1 else 0, value := bs.foldl (fun v b => 2 * v + bN b) 0, incomplete := true }]
    if x.a && y.a && x.b && !y.b then
      -- a bit taken at this clock's rising edge belongs to the condition
      (if bs.length ≤ 1 then [] else partialUnit) ++
        { tick := y.tick, kind := 1, value := 0 } :: i2cUnits true true 0 [] (y :: rest)
    else if x.a && y.a && !x.b && y.b then
      (if bs.length ≤ 1 then [] else partialUnit) ++ { tick := y.tick, kind := 2, value := 0 } :: i2cUnits false false 0 [] (y :: rest)
    else if busy && !x.a && y.a then
      let t := if bs = [] then y.tick else t0
      if bs.length = 8 then
        { tick := t, kind := if isAddr then 1 else 0, value := bs.foldl (fun v b => 2 * v + bN b) 0, nack := y.b } ::
          i2cUnits true false 0 [] (y :: rest)
      else i2cUnits true isAddr t (bs ++ [y.b]) (y :: rest)
    else i2cUnits busy isAddr t0 bs (y :: rest)
  | _, isAddr, t0, bs, _ =>
    if bs = [] then [] else
      [{ tick := t0, kind := if isAddr then 1 else 0, value := bs.foldl (fun v b => 2 * v + bN b) 0, incomplete := true }]

/-- The low pulses of channel A: falling tick and rising tick, `none` where the run ends first. -/
def lowPulses : Option Nat → List Point → List (Nat × Option Nat)
  | open_, x :: y :: rest =>
    if x.a && !y.a then lowPulses (some y.tick) (y :: rest)
    else if !x.a && y.a then
      (match open_ with
        | some f => [(f, some y.tick)]
        | none => []) ++ lowPulses none (y :: rest)
    else lowPulses open_ (y :: rest)
  | open_, _ => (open_.map fun f => (f, none)).toList

/-- Single-wire slot bus (R642): the bits of the byte in progress and its first tick; `skip` marks a presence pulse. -/
def slotUnits (p : Word) : Nat → List Bool → Bool → List (Nat × Option Nat) → List Unit_
  | t0, bs, _, [] => if bs = [] then [] else [{ tick := t0, kind := 0, value := bitsLsb bs, incomplete := true }]
  | t0, bs, skip, (f, r) :: rest =>
    let slot := fld p 19 0
    let rst := if fld p 27 24 = 0 then 8 else fld p 27 24
    match r with
    | none =>
      let t := if bs = [] then f else t0
      if skip then (if bs = [] then [] else [{ tick := t0, kind := 0, value := bitsLsb bs, incomplete := true }])
      else [{ tick := t, kind := 0, value := bitsLsb bs, incomplete := true }]
    | some r =>
      if skip then slotUnits p t0 bs false rest
      else if rst * slot ≤ r - f then
        let presence := match rest with
          | (g, _) :: _ => decide (g - r ≤ 2 * slot)
          | [] => false
        (if bs = [] then [] else [{ tick := t0, kind := 0, value := bitsLsb bs, incomplete := true }]) ++
          { tick := f, kind := 3, value := bN presence } :: slotUnits p 0 [] presence rest
      else
        let bit := decide (16 * (r - f) ≤ (fld p 23 20 + 1) * slot)
        let t := if bs = [] then f else t0
        let got := bs ++ [bit]
        if got.length = 8 then { tick := t, kind := 0, value := bitsLsb got } :: slotUnits p 0 [] false rest
        else slotUnits p t got false rest
where
  /-- The number that bits spell, the first one in bit 0 (R642). -/
  bitsLsb : List Bool → Nat
    | [] => 0
    | b :: t => bN b + 2 * bitsLsb t

/-- The units of one run (R625). -/
def runUnits (proto : Nat) (p : Word) (r : Run) : List Unit_ :=
  match proto with
  | 0 => uartUnits p r (r.points.length + 1) 0
  | 1 => spiUnits p none r.points
  | 2 => i2cUnits false false 0 [] r.points
  | _ => slotUnits p 0 [] false (lowPulses none r.points)

/-- The records of a decode job over some input (R625, R626): its payload from word 2 on.  `whole` says that the input is all
there is; else the last run's unfinished unit is left for later. -/
def decodeResults (payload : List Word) (input : List (Nat × Nat × Item)) (whole : Bool) : List (List Byte) :=
  let w5 := wordAt payload 3
  let runs := cutRuns (fld w5 7 0) (fld w5 15 8) (fld w5 23 16) none input
  let k := runs.length
  (runs.mapIdx fun i r =>
    let us := runUnits (fld (wordAt payload 0) 3 2) (wordAt payload 4) r
    let us := if i + 1 = k ∧ !whole then us.filter fun u => !u.incomplete else us
    us.map fun u => u.bytes r.skein).flatten

/-! ### Steps (R598) -/

/-- The input up to the end of step `i`: steps of at most 64 KiB of record input. -/
def inputUpTo (i : Nat) : Nat → List (Nat × Nat × Item) → List (Nat × Nat × Item)
  | _, [] => []
  | used, x :: t => if used + x.2.1 ≤ (i + 1) * 65536 then x :: inputUpTo i (used + x.2.1) t else []

/-- The record bytes of input. -/
def inputBytes (l : List (Nat × Nat × Item)) : Nat := l.foldl (fun acc x => acc + x.2.1) 0

end Sys2Proof.Machine
end

