-- ==== Sys2Proof/Machine/Compress.lean ====
section
/-! DEFINITION. The block format and the three methods of the compression engines, encoding and decoding (R495 to R510). -/

namespace Sys2Proof.Machine

/-! ### RLE (R503, R504) -/

/-- Each word with whether it equals the word `S` positions before it; words before the first are 0 (R503). -/
def runFlags (S : Nat) (ws : List Word) : List (Word × Bool) :=
  ws.zipWith (fun w p => (w, decide (w = p))) (List.replicate S 0 ++ ws)

/-- LIT tokens of at most 128 words each (R503, R504); `fuel` bounds the number of tokens. -/
def litTokens : Nat → List Word → List Byte
  | 0, _ => []
  | fuel + 1, ws =>
    if ws = [] then []
    else leBytes 1 ((ws.take 128).length - 1) ++ bytesOfWords (ws.take 128) ++ litTokens fuel (ws.drop 128)

/-- One RUN token of `m` words (R503). -/
def runToken (m : Nat) : List Byte :=
  if m ≤ 128 then leBytes 1 (m + 0x7E) else 0xFF :: leBytes 2 (m - 129)

/-- Emit the literals held and then a run of `m` RUN words, or take a single RUN word as a literal (R504). -/
def closeRun (lit run : List Word) : List Byte × List Word :=
  if 2 ≤ run.length then (litTokens (lit.length + 1) lit ++ runToken run.length, []) else ([], lit ++ run)

/-- Encode flagged words, with the literals and the RUN words held so far (R504). -/
def rleGo : List Word → List Word → List (Word × Bool) → List Byte
  | lit, run, [] =>
    let c := closeRun lit run
    c.1 ++ litTokens (c.2.length + 1) c.2
  | lit, run, (w, true) :: t => rleGo lit (run ++ [w]) t
  | lit, run, (w, false) :: t =>
    let c := closeRun lit run
    c.1 ++ rleGo (c.2 ++ [w]) [] t

/-- The RLE payload of words with stride `S` (R504). -/
def rleEncode (S : Nat) (ws : List Word) : List Byte := rleGo [] [] (runFlags S ws)

/-- The word `S` positions before the next one. -/
def backWord (S : Nat) (out : List Word) : Word := if S ≤ out.length then wordAt out (out.length - S) else 0

/-- Append `m` RUN words. -/
def addRun (S : Nat) : Nat → List Word → List Word
  | 0, out => out
  | m + 1, out => addRun S m (out ++ [backWord S out])

/-- Decode an RLE payload; `none` when a token runs past its end (R503, R510). -/
def rleDecode (S : Nat) : Nat → List Byte → List Word → Option (List Word)
  | 0, _, _ => none
  | _ + 1, [], out => some out
  | fuel + 1, c :: t, out =>
    let c := c.toNat
    if c < 0x80 then
      let need := 4 * (c + 1)
      if t.length < need then none else rleDecode S fuel (t.drop need) (out ++ wordsOfBytes (t.take need))
    else if c < 0xFF then rleDecode S fuel t (addRun S (c - 0x7E) out)
    else
      match t with
      | a :: b :: rest => rleDecode S fuel rest (addRun S (leNat [a, b] + 129) out)
      | _ => none

/-! ### PRED (R505 to R509) -/

/-- The prediction of the next word from those before it (R505). -/
def predict (pmode : Bool) (S : Nat) (out : List Word) : Word :=
  if pmode then backWord S out + backWord 1 out - backWord (S + 1) out else backWord S out

/-- The residue coded as an unsigned value (R506). -/
def zigzag (e : Word) : Nat := ((e <<< 1) ^^^ (if bitB e 31 then 0xFFFFFFFF else 0)).toNat

/-- The residue of a coded value. -/
def unzigzag (u : Nat) : Word :=
  if u % 2 = 1 then ~~~ W (u / 2) else W (u / 2)

/-- The Rice parameter for an accumulator (R508). -/
def riceK (a : Nat) : Nat := if a < 32 then 0 else min 31 (Nat.log2 a - 4)

/-- The accumulator after coding `u` (R508). -/
def nextAcc (a u : Nat) : Nat := (a - a / 16 + u) % 2 ^ 40

/-- The low `n` bits of a value, most significant first (R509). -/
def bitsMsb : Nat → Nat → List Bool
  | 0, _ => []
  | n + 1, v => v.testBit n :: bitsMsb n v

/-- The code of `u` with parameter `k` (R507). -/
def riceCode (k u : Nat) : List Bool :=
  if 20 ≤ u / 2 ^ k then List.replicate 20 true ++ bitsMsb 32 u
  else List.replicate (u / 2 ^ k) true ++ [false] ++ bitsMsb k u

/-- The number that bits spell, most significant first. -/
def natOfBits (bs : List Bool) : Nat := bs.foldl (fun acc b => 2 * acc + bN b) 0

/-- Pack bits into bytes from bit 7 down, the last byte padded with zero bits (R509); `fuel` bounds the bytes. -/
def packBits : Nat → List Bool → List Byte
  | 0, _ => []
  | fuel + 1, bs =>
    if bs = [] then []
    else BitVec.ofNat 8 (natOfBits (padTo 8 false (bs.take 8))) :: packBits fuel (bs.drop 8)

/-- The bits of words after those in `out`, with accumulator `a` (R505 to R508). -/
def predBits (pmode : Bool) (S : Nat) : Nat → List Word → List Word → List Bool
  | _, _, [] => []
  | a, out, w :: t =>
    let u := zigzag (w - predict pmode S out)
    riceCode (riceK a) u ++ predBits pmode S (nextAcc a u) (out ++ [w]) t

/-- The PRED payload (R505 to R509). -/
def predEncode (pmode : Bool) (S kinit : Nat) (ws : List Word) : List Byte :=
  let bits := predBits pmode S (16 * 2 ^ kinit) [] ws
  packBits (bits.length / 8 + 1) bits

/-- The bits of a byte, bit 7 first. -/
def unpackBits (bs : List Byte) : List Bool := bs.flatMap fun b => bitsMsb 8 b.toNat

/-- The leading one-bits, at most 20, and the rest. -/
def takeOnes : Nat → List Bool → Nat × List Bool
  | 0, bs => (0, bs)
  | n + 1, true :: t => let r := takeOnes n t; (r.1 + 1, r.2)
  | _ + 1, bs => (0, bs)

/-- Decode one code (R507); `none` when it runs past the payload. -/
def riceDecode (k : Nat) (bs : List Bool) : Option (Nat × List Bool) :=
  let r := takeOnes 20 bs
  if r.1 = 20 then (if r.2.length < 32 then none else some (natOfBits (r.2.take 32), r.2.drop 32))
  else match r.2 with
    | false :: t => if t.length < k then none else some (r.1 * 2 ^ k + natOfBits (t.take k), t.drop k)
    | _ => none

/-- Decode `n` words of a PRED payload and give the bits left over. -/
def predDecode (pmode : Bool) (S : Nat) : Nat → Nat → List Word → List Bool → Option (List Word × List Bool)
  | 0, _, out, bs => some (out, bs)
  | n + 1, a, out, bs =>
    match riceDecode (riceK a) bs with
    | none => none
    | some (u, rest) => predDecode pmode S n (nextAcc a u) (out ++ [predict pmode S out + unzigzag u]) rest

/-! ### Blocks (R497 to R502) -/

/-- What the header of a block says. -/
structure BlockHead where
  method : Nat
  pmode : Bool
  last : Bool
  flushed : Bool
  resumed : Bool
  stride : Nat
  kinit : Nat
  bench : Nat
  inLen : Nat
  inOff : Nat
  skein : Nat
  index : Nat
  deriving DecidableEq, Repr

/-- STRIDE in force: 0 is the number of stored pods in sample format and 3 in transition format ("Block structure"). -/
def strideOf (cfg : Word) (transition : Bool) (pods : Nat) : Nat :=
  let v := fld cfg 7 4
  if v = 0 then (if transition then 3 else max 1 pods)
  else if v ≤ 8 then v else 1 + Config.oddStride v % 8

/-- The payload of a method; `none` for STORED. -/
def methodPayload (method S kinit : Nat) (pmode : Bool) (input : List Byte) : Option (List Byte) :=
  match method with
  | 1 => some (rleEncode S (wordsOfBytes input))
  | 2 => some (predEncode pmode S kinit (wordsOfBytes input))
  | _ => none

/-- The bytes of a block with its header, payload and trailer (R497). -/
def BlockHead.bytes (h : BlockHead) (payload : List Byte) (crc : Word) : List Byte :=
  leBytes 2 0xB10C ++
  leBytes 1 (h.method + bN h.pmode * 4 + bN h.last * 8 + bN h.flushed * 16 + bN h.resumed * 32) ++
  leBytes 1 h.stride ++ leBytes 1 h.kinit ++ leBytes 1 (h.bench % 8) ++ leBytes 2 0 ++
  leBytes 4 h.inLen ++ leBytes 4 payload.length ++ leBytes 8 h.inOff ++ leBytes 4 h.skein ++ leBytes 4 h.index ++
  payload ++ leBytes 4 crc.toNat

/-- Encode a block: STORED where the method would not be shorter (R496, R501, R502). -/
def encodeBlock (cfg : Word) (S : Nat) (h : BlockHead) (input : List Byte) : List Byte :=
  let method := methodOf cfg
  let pmode := bitB cfg 2
  let kinit := fld cfg 12 8
  let crc := crc32c input
  let h := { h with stride := S, inLen := input.length }
  let stored := BlockHead.bytes { h with method := 0, pmode := false, kinit := 0 } input crc
  match methodPayload method S kinit pmode input with
  | none => stored
  | some p =>
    if input.length ≤ p.length then stored
    else BlockHead.bytes
      { h with method := method, pmode := pmode && method == 2, kinit := if method = 2 then kinit else 0 } p crc

/-- A block read back: its header, its payload and its CRC; `none` where the bytes end too soon. -/
structure BlockRead where
  sync : Nat
  head : BlockHead
  payload : List Byte
  crc : Nat
  deriving DecidableEq, Repr

/-- Read the block at the front of bytes, and the bytes after it (R497). -/
def readBlock (bs : List Byte) : Option (BlockRead × List Byte) :=
  let f (off len : Nat) : Nat := leNat ((bs.drop off).take len)
  let outLen := f 0x0C 4
  if bs.length < 0x24 + outLen then none
  else
    let mode := f 2 1
    some (
      { sync := f 0 2
        head := {
          method := mode % 4, pmode := mode.testBit 2, last := mode.testBit 3, flushed := mode.testBit 4,
          resumed := mode.testBit 5, stride := f 3 1, kinit := f 4 1, bench := f 5 1 % 8, inLen := f 8 4,
          inOff := f 0x10 8, skein := f 0x18 4, index := f 0x1C 4 }
        payload := (bs.drop 0x20).take outLen
        crc := f (0x20 + outLen) 4 }, bs.drop (0x24 + outLen))

/-- Decompress a payload (R503, R505 to R509); `none` for a failure that R510 names. -/
def decompress (b : BlockRead) : Option (List Byte) :=
  let h := b.head
  match h.method with
  | 0 => some b.payload
  | 1 => (rleDecode h.stride (b.payload.length + 1) b.payload []).map bytesOfWords
  | 2 =>
    match predDecode h.pmode h.stride (h.inLen / 4) (16 * 2 ^ h.kinit) [] (unpackBits b.payload) with
    | none => none
    | some (ws, left) => if left.length < 8 ∧ left.all (fun x => !x) then some (bytesOfWords ws) else none
  | _ => none

/-- A block passes verification (R510): SYNC, BENCH, SKEIN, BLOCK and IN_OFF as expected, and the output agrees in length
and CRC-32C. -/
def blockGood (b : BlockRead) (bench skein index inOff : Nat) : Bool :=
  decide (b.sync = 0xB10C ∧ b.head.bench = bench ∧ b.head.skein = skein ∧ b.head.index = index ∧ b.head.inOff = inOff) &&
    (match decompress b with
    | none => false
    | some out => decide (out.length = b.head.inLen) && decide ((crc32c out).toNat = b.crc))

/-- HCLK cycles of encoding or decoding (R526): one word per cycle, and two for a PRED decode. -/
def decodeCycles (b : BlockRead) : Nat := if b.head.method = 2 then b.head.inLen / 2 else b.head.inLen / 4

end Sys2Proof.Machine
end

