-- ==== Sys2Proof/Machine/Calendar.lean ====
section
/-! DEFINITION. The calendar clock: counting, the linear value, staging and commit (R791 to R814). -/

namespace Sys2Proof.Machine

/-- February has 29 days in year 2000 + `y` (R792). -/
def leapYear (y : Nat) : Bool := (2000 + y) % 4 == 0 && ((2000 + y) % 100 != 0 || (2000 + y) % 400 == 0)

/-- The days of month `m` of year 2000 + `y` (R791, R792). -/
def monthDays (y m : Nat) : Nat :=
  if m = 2 then (if leapYear y then 29 else 28)
  else if m = 4 ∨ m = 6 ∨ m = 9 ∨ m = 11 then 30 else 31

/-- The days of year 2000 + `y`. -/
def yearDays (y : Nat) : Nat := if leapYear y then 366 else 365

/-- The days from 2000-01-01 to the first day of year 2000 + `y`. -/
def daysBeforeYear : Nat → Nat
  | 0 => 0
  | y + 1 => daysBeforeYear y + yearDays y

/-- The days of the months before month `m`, which counts from 1. -/
def daysBeforeMonth (y : Nat) : Nat → Nat
  | 0 => 0
  | 1 => 0
  | m + 2 => daysBeforeMonth y (m + 1) + monthDays y (m + 1)

/-- The days since 2000-01-01 (R796). -/
def dayNumber (y m d : Nat) : Nat := daysBeforeYear y + daysBeforeMonth y m + (d - 1)

/-- The date of the calendar as days since 2000-01-01. -/
def Calendar.today (c : Calendar) : Nat := dayNumber c.year c.month c.day

/-- The whole seconds since 2000-01-01 00:00:00 (R796). -/
def Calendar.seconds (c : Calendar) : Nat := c.today * 86400 + c.hour * 3600 + c.minute * 60 + c.second

/-- The 48-bit linear value (R796). -/
def Calendar.linear (c : Calendar) : Nat := c.seconds * 2 ^ 15 + c.sub

/-- One AON tick of the running calendar: one sub-second, with every carry; after the end of 2199 it returns to 2000 and
sets WRAP (R791, R793, R794). -/
def Calendar.advance (c : Calendar) : Calendar :=
  if c.sub < 32767 then { c with sub := c.sub + 1 }
  else if c.second < 59 then { c with sub := 0, second := c.second + 1 }
  else if c.minute < 59 then { c with sub := 0, second := 0, minute := c.minute + 1 }
  else if c.hour < 23 then { c with sub := 0, second := 0, minute := 0, hour := c.hour + 1 }
  else if c.day < monthDays c.year c.month then
    { c with sub := 0, second := 0, minute := 0, hour := 0, day := c.day + 1 }
  else if c.month < 12 then
    { c with sub := 0, second := 0, minute := 0, hour := 0, day := 1, month := c.month + 1 }
  else if c.year < 199 then
    { c with sub := 0, second := 0, minute := 0, hour := 0, day := 1, month := 1, year := c.year + 1 }
  else
    { c with sub := 0, second := 0, minute := 0, hour := 0, day := 1, month := 1, year := 0, wrap := true }

/-- A CAL_DATE layout is a valid date (R798). -/
def validDate (w : Word) : Bool :=
  decide (fld w 7 0 ≤ 199 ∧ 1 ≤ fld w 11 8 ∧ fld w 11 8 ≤ 12 ∧ 1 ≤ fld w 20 16 ∧
    fld w 20 16 ≤ monthDays (fld w 7 0) (fld w 11 8))

/-- A CAL_TIME layout is a valid time (R798). -/
def validTime (w : Word) : Bool := decide (fld w 20 16 ≤ 23 ∧ fld w 13 8 ≤ 59 ∧ fld w 5 0 ≤ 59)

/-- The staged values of a commit are valid (R798); SUB is a 15-bit field and always in range. -/
def validCal (date time : Word) : Bool := validDate date && validTime time

/-- The calendar with committed values (R797, R800). -/
def Calendar.take (c : Calendar) (date time sub : Word) : Calendar :=
  { c with
    year := fld date 7 0, month := fld date 11 8, day := fld date 20 16,
    hour := fld time 20 16, minute := fld time 13 8, second := fld time 5 0, sub := fld sub 14 0,
    set := true, badDate := false, wrap := false }

/-- CAL_DATE. -/
def Calendar.dateWord (c : Calendar) : Word := pack [(c.year, 0), (c.month, 8), (c.day, 16)]
/-- CAL_TIME. -/
def Calendar.timeWord (c : Calendar) : Word := pack [(c.second, 0), (c.minute, 8), (c.hour, 16)]
/-- CAL_STATUS. -/
def Calendar.statusWord (c : Calendar) : Word := pack [(bN c.set, 0), (bN c.badDate, 1), (bN c.wrap, 2)]

/-- The pending staging values: date, time and sub-second. -/
def State.calStaged (s : State) : Word × Word × Word := (s.rd .calSetDate, s.rd .calSetTime, s.rd .calSetSub)

/-- A write of KEY 0xCA to CAL_COMMIT has crossed: the commit is checked on the next AON tick with the values pending now, so that a
staging write of that tick stays pending for the next commit (R797, R807); one that arrives while a first is still crossing is held
one deep (R808, R176). -/
def requestCommit (s : State) : State :=
  if s.cal.commit then { s with cal := { s.cal with commitHeld := true } }
  else { s with cal := { s.cal with commit := true, staged := some s.calStaged } }

/-- The response of CAL_SET (R811): CAL_STATUS and the base tick of the commit tick. -/
def answerCalSet (s : State) : State :=
  match s.cal.answer with
  | none => s
  | some c =>
    respond { s with cal := { s.cal with answer := none } } 0x0A01 c .done 0 (s.cal.statusWord :: lohi s.cal.bt) s.isReplaying

/-- The calendar's part of one AON tick: a commit that is due is checked and taken, or the running calendar advances
(R797 to R800, R805 to R807); a CAL_SET whose commit this was is answered (R813).  Survo firmware acts on a new date, and on every
CAL_SET (R809). -/
def calendarTick (s : State) : State :=
  let c := s.cal
  let staged := c.staged.getD s.calStaged
  let date := staged.1
  let time := staged.2.1
  let sub := staged.2.2
  let next : Calendar :=
    if c.commit then
      (if validCal date time then c.take date time sub else { c.advance with badDate := true })
    else c.advance
  let changed := decide (next.today ≠ c.today) || c.dateChanged || (c.commit && c.answer.isSome)
  let next := { next with
    commit := c.commitHeld, staged := if c.commitHeld then some s.calStaged else none, commitHeld := false, dateChanged := changed }
  let t := { s with cal := next }
  if c.commit then
    let t := if validCal date time then
        ((t.setActWord 0x1020 date).setActWord 0x1024 time).setActWord 0x1028 sub
      else t
    if s.survoRuns then answerCalSet t else t
  else t

/-- A power-on reset of the AON domain sets the calendar to its origin and clears CAL_STATUS (R795). -/
def calendarColdInit (s : State) : State := { s with cal := {} }

/-- The base tick at which an AON tick begins, from the one before: 48,828.125 ticks later at the nominal clocks (R79, R803). -/
def Calendar.nextBt (c : Calendar) : Calendar :=
  let t := c.bt * 8 + c.btFrac + 390625
  { c with bt := t / 8 % 2 ^ 56, btFrac := t % 8 }

end Sys2Proof.Machine
end

