-- ==== Sys2Proof/Machine/Accounts.lean ====
section
/-! DEFINITION. The accounts of a bench: engine time, bytes per path and energy (R620 to R623), and the applying of staged
values at their boundaries (R183 to R190). -/

namespace Sys2Proof.Machine

/-! ### Accounts -/

/-- Add energy in pJ to bench `n`: whole µJ are presented, the remainder is carried (R622). -/
def addEnergy (s : State) (n pj : Nat) : State :=
  let total := s.umpire.energy.get (fun _ => 0) n + pj
  let s := { s with umpire := { s.umpire with energy := s.umpire.energy.put (fun _ => 0) n (total % 1000000) } }
  s.addAcc .accEnergyLo .accEnergyHi n (total / 1000000)

/-- ACC_COEF_PATHk (R623). -/
def State.pathCoef (s : State) (k : Nat) : Nat := s.part.coefPath.getD k 0

/-- Charge bytes moved through capture SRAM (R621). -/
def chargeSram (s : State) (n bytes : Nat) : State :=
  addEnergy (s.addAcc .accSramLo .accSramHi n bytes) n (bytes * s.pathCoef 0)

/-- Charge bytes programmed to NAND (R621). -/
def chargeNandWrite (s : State) (n bytes : Nat) : State :=
  addEnergy (s.addAcc .accNandwLo .accNandwHi n bytes) n (bytes * s.pathCoef 1)

/-- Charge bytes read from NAND (R621). -/
def chargeNandRead (s : State) (n bytes : Nat) : State :=
  addEnergy (s.addAcc .accNandrLo .accNandrHi n bytes) n (bytes * s.pathCoef 2)

/-- Charge bulk payload bytes (R621). -/
def chargeUsb (s : State) (n bytes : Nat) : State :=
  addEnergy (s.addAcc .accUsbLo .accUsbHi n bytes) n (bytes * s.pathCoef 3)

/-- Charge engine cycles of a job of bench `n` on engine `e`: 5 ns each, the busy count, and the energy of operation A or
B (R621, R623, ENG_e_BUSY). -/
def chargeEngine (s : State) (n e cycles : Nat) (opB : Bool) : State :=
  let k := s.part.coefEng.getD e (0, 0)
  let s := s.bumpWrap .engBusy e 0 31 0 cycles
  addEnergy (s.addAcc .accTimeLo .accTimeHi n (5 * cycles)) n (cycles * (if opB then k.2 else k.1))

/-! ### Staged values -/

/-- BN_STAGE.HOLD (R187). -/
def State.held (s : State) (n : Nat) : Bool := bitB (s.rd .bnStage n) 0

/-- Make the pending value of some G bits of a register the one in effect (R186). -/
def applyReg (s : State) (a : Nat) (mask : Word) : State :=
  s.setActWord a ((s.actWord a &&& ~~~ mask) ||| (s.regWord a &&& mask))

/-- The G bits of the register at a normal address. -/
def gBitsAt (a : Nat) : Word :=
  match regAt a with
  | some r => r.name.row.bits .g
  | none => 0

/-- The addresses that hold a stored or in-effect word other than the reset word, from `lo` up to `hi`. -/
def State.touched (s : State) (lo hi : Nat) : List Nat :=
  (s.regs.map Prod.fst ++ s.act.map Prod.fst).filter fun a => decide (lo ≤ a ∧ a < hi)

/-- The G bits of a bench window that apply at its skein boundary: all but BN_OWN.PLY (R183). -/
def skeinMask (a : Nat) : Word := if a % 0x800 = 0x00C then maskW 7 0 else gBitsAt a

/-- The addresses of bench `n`'s G fields that apply at its skein boundary: its window and CMP_Sn_CFG. -/
def State.skeinRegs (s : State) (n : Nat) : List Nat :=
  s.touched (0x2000 + n * 0x800) (0x2800 + n * 0x800) ++ [0x7900 + n * 0x40]

/-- Apply every pending skein-boundary value of bench `n` (R186); while HOLD is 1 none of its window, where CMP_Sn_CFG does not lie
(R187). -/
def applySkein (s : State) (n : Nat) : State :=
  s.each ((s.skeinRegs n).filter fun a => !s.held n || decide (0x6000 ≤ a)) fun s a => applyReg s a (skeinMask a)

/-- Some skein-boundary value of bench `n` among the addresses for which `p` holds is pending. -/
def State.skeinPending (s : State) (n : Nat) (p : Nat → Bool) : Bool :=
  (s.skeinRegs n).any fun a => p a && decide ((s.regWord a ^^^ s.actWord a) &&& skeinMask a ≠ 0)

/-- An address of a bench window or CMP_Sn_CFG holds a front-end or format value (R189): BN_OWN.PODS, FE_ and SKN_
fields. -/
def isFormatAddr (a : Nat) : Bool :=
  decide (a < 0x6000) && (decide (a % 0x800 < 0x200) || decide (0x400 ≤ a % 0x800))

/-- With no boundary in prospect, pending skein-boundary values apply within 2 HCLK cycles: while the bench is CLOSED or
IDLE (R185, R187). -/
def settleBench (s : State) (n : Nat) : State :=
  if s.bstate n = .closed ∨ s.bstate n = .idle then applySkein s n else s

end Sys2Proof.Machine
end

