-- ==== Sys2Proof/Machine/Referee.lean ====
section
/-! DEFINITION. The Referee's books: let histories, verdicts and what every verdict writes, posts and latches (R751 to R760,
R767 to R777). -/

namespace Sys2Proof.Machine

/-- The code of a verdict (R774). -/
def Verdict.code : Verdict → Nat
  | .let_ => 1 | .retire => 2 | .rejoined => 3

/-- 10 s in base ticks (R757). -/
def tenSeconds : Nat := 16000000000

/-- The type code 0xTT00 of a resource (R752). -/
def typeCode (res : Word) : Nat := resType res * 256

/-- The alert priority of a retire with a fault code (R752). -/
def retirePriority (code : Nat) (res : Word) : Nat :=
  match code / 256 with
  | 1 => 2
  | 2 => 1
  | 3 => 1
  | 4 => 1
  | 5 => 3
  | 7 => if code = 0x0701 ∧ 4 ≤ resIndex res ∧ resIndex res < 12 then 1 else 0
  | _ => 0

/-- The blocks of one chip enable (R541). -/
def laneBlocks (g : Geometry) : Nat := g.luns * g.blocksPerLun

/-- The chip enables a lane uses. -/
def Lane.chips (l : Lane) : Nat := (onesBelow 4 l.ceUsed.toNat).length

/-- A resource ID names a resource of the member (R751, R786). -/
def State.resExists (s : State) (r : Word) : Bool :=
  let i := resIndex r
  match resType r with
  | 1 => decide (i < 32 * s.member.pods)
  | 2 => decide (i < s.member.queues) || i == 64 || i == 65
  | 3 => decide (i < 10 * s.member.benches) || (decide (80 ≤ i) && decide (i < 96))
  | 4 => s.member.hasEngine i
  | 5 => decide (i / 2 ^ 24 < s.member.lanes) &&
      decide (i % 2 ^ 24 < (s.lane (i / 2 ^ 24)).chips * laneBlocks (s.lane (i / 2 ^ 24)).geom)
  | 6 => decide (i < s.member.lanes)
  | 7 => decide (i ≤ 0x12) && (decide (i < 4) || decide (12 ≤ i) || decide (i - 4 < s.member.benches))
  | 8 => i == 0
  | _ => false

/-- The open benches that use a part-wide resource (R775). -/
def State.usersOf (s : State) (r : Word) : List Nat :=
  match resType r with
  | 4 => s.openBenches.filter fun n => decide (s.plyOf n = s.engPly (resIndex r))
  | 6 => s.openBenches.filter fun n => (fld (s.rd .slSCfg n) 1 0).testBit (resIndex r)
  | _ => s.openBenches

/-- Post FAULT (R775). -/
def postFault (s : State) (res : Word) (code : Nat) (v : Verdict) (three : Bool) : State :=
  let arg := code + v.code * 2 ^ 16 + bN three * 2 ^ 18
  let benches := match s.resOwner res with
    | some n => s.openBenches.filter fun m => m == n
    | none => s.usersOf res
  s.each benches fun s n => postEvent s n 0x8B01 arg

/-- Write the entry of R774 and pass it to Mboron (R816). -/
def writeVerdict (s : State) (res : Word) (code : Nat) (v : Verdict) (three requested : Bool) : State :=
  let owner := (s.resOwner res).getD 15
  let low := code + v.code * 2 ^ 16 + bN three * 2 ^ 18 + bN requested * 2 ^ 19
  let k := s.ref.written
  let entry := [W (low + owner * 2 ^ 20 + k % 256 * 2 ^ 24), res] ++
    lohi (s.power.baseTick % 2 ^ 56)
  let s := { s with ref := { s.ref with log := s.ref.log.put (fun _ => []) (k % 256) entry, written := k + 1 } }
  logPart s 8 (low + res.toNat * 2 ^ 32)

/-- The let times of a resource that lie within 10 s, counting both ends (R757). -/
def State.recentLets (s : State) (res : Word) : List Nat :=
  match s.ref.lets.find? fun p => decide (p.1 = res) with
  | some p => p.2.filter fun t => decide (s.power.baseTick ≤ t + tenSeconds)
  | none => []

/-- Note a let: times older than 10 s are forgotten, and of more than 64 resources the one with the oldest latest let
(R758). -/
def noteLet (s : State) (res : Word) : State :=
  let now := s.power.baseTick
  let mine := now :: s.recentLets res
  let others := ((s.ref.lets.filter fun p => decide (p.1 ≠ res)).map fun p =>
    (p.1, p.2.filter fun t => decide (now ≤ t + tenSeconds))).filter fun p => !p.2.isEmpty
  let others := if others.length < 64 then others
    else match sortBy (fun p => p.2.headD 0) others with
      | [] => []
      | oldest :: _ => others.filter fun p => decide (p.1 ≠ oldest.1)
  { s with ref := { s.ref with lets := (res, mine) :: others } }

/-- Forget the let times of a resource (R773). -/
def forgetLets (s : State) (res : Word) : State :=
  { s with ref := { s.ref with lets := s.ref.lets.filter fun p => decide (p.1 ≠ res) } }

/-- The set of retired resources in the AON SRAM retention image (R768); NAND blocks stay in their tables (R769). -/
def retainRetired (s : State) : State :=
  { s with fw := { s.fw with retained := s.ref.retired } }

/-- A retire as the books hold it: the resource joins the retired set and is kept in the retention image (R768, R772). -/
def bookRetire (s : State) (res : Word) (code : Nat) : State :=
  if resType res = 5 ∨ s.ref.retired.any (fun p => decide (p.1 = res)) then s
  else retainRetired { s with ref := { s.ref with retired := s.ref.retired ++ [(res, code)] } }

/-- The resource is out of the books again: it is in service, with an empty let history (R772, R773). -/
def bookRejoin (s : State) (res : Word) : State :=
  let s := forgetLets s res
  retainRetired { s with ref := { s.ref with
    retired := s.ref.retired.filter fun p => decide (p.1 ≠ res),
    probation := s.ref.probation.filter fun r => decide (r ≠ res),
    rejoining := s.ref.rejoining.filter fun r => decide (r ≠ res) } }

/-- The alert of a verdict (R776, R777). -/
def verdictAlert (s : State) (res : Word) (code : Nat) (v : Verdict) (three : Bool) : State :=
  let bench := (s.resOwner res).getD 15
  let arg := BitVec.ofNat 8 (v.code + bN three * 4)
  match v with
  | .retire => latchAlert s (retirePriority code res) 1 bench code arg
  | .let_ => if bitB (s.rd .refCtrl) 0 then latchAlert s 3 1 bench code arg else s
  | .rejoined => s

/-- A verdict as the Referee reports it: the entry, the count, the event, the alert (R755, R756, R774 to R777).  A let of a
requested test is entered and counts no let (R759). -/
def reportVerdict (s : State) (res : Word) (code : Nat) (v : Verdict) (three requested : Bool) : State :=
  let s := writeVerdict s res code v three requested
  match v with
  | .let_ =>
    if requested then s
    else verdictAlert (postFault (noteLet (s.bumpSat .refCnt 0 0 15 0 1) res) res code v three) res code v three
  | .retire =>
    let s := verdictAlert (postFault (s.bumpSat .refCnt 0 0 31 16 1) res code v three) res code v three
    if s.rpl.state = .replaying then diverge s 7 s.rpl.tick 0 0 else s
  | .rejoined => postFault s res code v three

/-- The verdict of a test that passed or failed: a let, or a retire where the test failed or the let would be the third
within 10 s (R755 to R759); the Bools say retire and THREE. -/
def judge (s : State) (t : RefTest) (pass : Bool) : Bool × Bool :=
  let three := pass && !t.requested && decide (2 ≤ (s.recentLets t.res).length)
  (!pass || three, three)

/-- Enter a test's verdict in the books; the Bool says that the resource is retired. -/
def bookVerdict (s : State) (t : RefTest) (pass : Bool) : Bool × State :=
  let j := judge s t pass
  let code := if t.requested then typeCode t.res else t.code
  if j.1 then (true, bookRetire (reportVerdict s t.res code .retire j.2 t.requested) t.res code)
  else (false, reportVerdict s t.res code .let_ false t.requested)

/-- A rejoin: the entry and the event, and the resource is in service again (R771 to R774). -/
def bookReturn (s : State) (res : Word) : State := bookRejoin (reportVerdict s res (typeCode res) .rejoined false true) res

/-- A retire without a test: LANE_TABLE (R760). -/
def retireUntested (s : State) (res : Word) (code : Nat) : State :=
  bookRetire (reportVerdict s res code .retire false false) res code

/-! ### The retired maps (R786) -/

/-- The low `n` bits of a map: bit `i` is set while the resource `f i` is retired. -/
def State.retMap (s : State) (n : Nat) (f : Nat → Word) : Nat := bitsOf ((List.range n).filter fun i => s.isRetired (f i))

/-- REF_RET_CHp. -/
def State.retCh (s : State) (p : Nat) : Word := W (s.retMap 32 fun d => resChannel (32 * p + d))
/-- REF_RET_Q_LO (`h` 0) and REF_RET_Q_HI (`h` 1). -/
def State.retQ (s : State) (h : Nat) : Word := W (s.retMap 32 fun i => resQueue (32 * h + i))
/-- REF_RET_SRAMw. -/
def State.retSram (s : State) (w : Nat) : Word := W (s.retMap 32 fun i => resSram (32 * w + i))
/-- REF_RET_MISC. -/
def State.retMisc (s : State) : Word :=
  pack [(s.retMap 9 resEngine, 0), (s.retMap 2 resLane, 16), (bN (s.isRetired resPads), 18),
    (s.retMap 2 fun i => resQueue (64 + i), 19)]
/-- REF_RET_BANK. -/
def State.retBank (s : State) : Word := W (s.retMap 19 resBank)
/-- REF_STATUS. -/
def State.refStatus (s : State) : Word :=
  pack [(bitsOf ((s.ref.running.map fun t => resType t.res - 1).filter fun b => decide (b < 8)), 0),
    (bN s.ref.faulted.isSome, 8), (min 64 s.ref.waiting.length, 16)]

end Sys2Proof.Machine
end

