-- ==== Sys2Proof/Machine/Capture.lean ====
section
/-! DEFINITION. The capture store: bobbins, skein boundaries, storing, overrun, the end of skeins and captures (R455 to
R488), and the evaluation of sample vectors. -/

namespace Sys2Proof.Machine

/-! ### Bobbins and the pool -/

/-- SKN_BOB.SIZE in 16 KiB units (R455, R765). -/
def State.bobbinUnits (s : State) (n : Nat) : Nat := 10 - (s.cap n).lostBanks + (s.cap n).lent

/-- The bobbin of bench `n` in bytes. -/
def State.bobbinBytes (s : State) (n : Nat) : Nat := s.bobbinUnits n * 16384

/-- A shared head whose skein is held while its predecessor has been deleted still occupies the bobbin (R494). -/
def orphanHeads : Option Nat → List Skein → Nat
  | _, [] => 0
  | before, k :: rest =>
    (if k.headShared && !k.streamed && decide (before.map (fun b => (b + 1) % 2 ^ 32) ≠ some k.num) then k.headData.length else 0) +
      orphanHeads (some k.num) rest

/-- The skeins of a bench that the bobbin holds, oldest first, the one in progress last. -/
def Capture.all (c : Capture) : List Skein := c.kept ++ c.cur.toList

/-- Occupied bobbin bytes: records and headers, orphaned heads, and export staging (R479, R494, R522). -/
def Capture.occupied (c : Capture) : Nat :=
  (c.all.foldl (fun acc k => acc + k.occupied) 0) + orphanHeads none c.all + c.staging

/-- SKN_FREE. -/
def State.bobbinFree (s : State) (n : Nat) : Nat := s.bobbinBytes n - (s.cap n).occupied

/-- Granules of the pool retired (R765). -/
def State.poolLost (s : State) : Nat :=
  (s.ref.retired.filter fun r => decide (resType r.1 = 3 ∧ 80 ≤ resIndex r.1)).length

/-- GLB_POOL.STAGING: 14 granules while firmware staging is open (R457). -/
def State.stagingGranules (s : State) : Nat := if s.fw.staging.isSome then 14 else 0

/-- Granules lent to the replay log buffer (R822). -/
def State.rplGranules (s : State) : Nat :=
  if s.rpl.state = .recording then fld (s.rd .rplCfg) 12 10 + 1 else 0

/-- GLB_POOL.UNLENT (R455, R457, R765). -/
def State.poolUnlent (s : State) : Nat :=
  16 - s.poolLost - s.stagingGranules - s.rplGranules - (s.benchList.foldl (fun acc n => acc + (s.cap n).lent) 0)

/-! ### Skeins begin and end -/

/-- A skein with the settings in effect at a boundary tick `b` (R391, R470, R496). -/
def newSkein (s : State) (n b num offset : Nat) : Skein :=
  { num := num % 2 ^ 32, start := b, cal := s.cal.linear, calValid := s.cal.set,
    mask := (List.range 8).map fun p => s.feValid n p, rate := s.feRate n, stateMode := s.stateMode n,
    transition := bitB (s.eff .sknCfg n) 1, cmpCfg := s.eff .cmpSCfg n, streamed := bitB (s.eff .sknCfg n) 2,
    offset := offset }

/-- The header of a skein as its CHK entry covers it: bytes 0x16 to 0x1B and FLAGS bit 6 taken as 0 (R830). -/
def Skein.checkedHeader (k : Skein) (n : Nat) : List Byte :=
  ({ k with calValid := false, cal := 0 } : Skein).header n

/-- Drop the unshared items older than tick `cut` of a skein before its trigger; dropped samples leave a PRE_DROP marker at the
first discarded tick, after a shared head at END of the skein before, which moves with no later drop; a STORE_OFF marker
before the first discarded sample stays (R460, R465, R477). -/
def Skein.dropBefore (k : Skein) (cut : Nat) : Skein :=
  let isOld (x : Item) : Bool := decide (x.tick < cut)
  let dropped := Item.isMarkerOf [3]
  match k.items.find? dropped, k.items.find? fun x => isOld x && x.isSample with
  | some m, _ =>
    { k with items := (k.items.takeWhile fun x => !dropped x) ++
        m :: ((k.items.dropWhile fun x => !dropped x).filter fun x => !isOld x && !dropped x) }
  | none, none => k
  | none, some x =>
    let first := if k.headShared then k.start + 8 * k.ovlp else x.tick
    let lost (x : Item) : Bool := isOld x && x.isSample
    { k with items := ((k.items.takeWhile fun x => !lost x).filter (Item.isMarkerOf [1])) ++
        .marker 3 first 0 false :: (k.items.filter fun x => !isOld x) }

/-- Drop the oldest samples of a skein before its trigger until it fits `room` more bytes. -/
def Skein.fitInto (k : Skein) (room : Nat) : Nat → Skein
  | 0 => k
  | fuel + 1 =>
    if k.recordBytes.length ≤ room then k
    else match k.items.find? Item.isSample with
      | none => k
      | some x => Skein.fitInto (k.dropBefore (x.tick + 1)) room fuel

/-- The bytes that appending an item adds to a skein's records. -/
def Skein.costOf (k : Skein) (x : Item) : Nat :=
  ({ k with items := k.items ++ [x] } : Skein).recordBytes.length - k.recordBytes.length

/-- End skein `k` of bench `n`: the TRUNC marker for every code but COMPLETE, the descriptor to the SKD queue, SKEIN_DONE
(R470, R477, R481, R482). -/
def finishSkein (s : State) (n : Nat) (k : Skein) (e : Nat) (code : EndCode) : Skein × State :=
  let trunc := Item.marker 6 e code.code false
  let s := if code = .complete then s else chargeSram s n (k.costOf trunc)
  let k := { k with endTick := e, code := code, items := if code = .complete then k.items else k.items ++ [trunc] }
  let s := (outputItem s n (0x48 + n) (k.checkedHeader n) false).2
  let d := k.descriptor n
  let r := outputItem s n (n * 8 + 3) (d.flatMap bytesOfDWord) false
  let s := pushRecord r.2 (n * 8 + 3) .unit d
  (k, postEvent s n 0x8401 (k.num % 2 ^ 16 + code.code * 2 ^ 16 + bN k.streamed * 2 ^ 18))

/-- Append an item to the skein in progress; inside the shared range of a re-arm it carries SHARED (R464). -/
def appendItem (s : State) (n : Nat) (x : Item) : State :=
  let c := s.cap n
  match c.cur with
  | none => s
  | some k =>
    let x := x.setShared c.next.isSome
    chargeSram (s.setCap n { c with cur := some { k with items := k.items ++ [x] } }) n (k.costOf x)

/-- A marker at tick `tick` (R477). -/
def mark (s : State) (n type tick arg : Nat) : State := appendItem s n (.marker type tick arg false)

/-- The TEST markers of the tests that have started before tick `t` (R397, R469, R477). -/
def flushTests (s : State) (n t : Nat) : State :=
  let c := s.cap n
  let due := c.tests.filter fun x => decide (x.1 < t)
  if due = [] ∨ c.cur.isNone then s
  else
    let s := s.setCap n { c with tests := c.tests.filter fun x => !decide (x.1 < t) }
    s.each due fun s x => mark s n 4 x.1 x.2

/-- The skein in progress ends at tick `e`: before its trigger only the window of R460 before `e` is left of it; it is kept, and the re-armed skein, which begins with the shared range as its
head, takes its place (R461, R462, R464). -/
def endSkein (s0 : State) (n e : Nat) (code : EndCode) : State :=
  let s := flushTests s0 n e
  let c := s.cap n
  match c.cur with
  | none => s
  | some k =>
    let k := if k.trig.isSome then k else k.dropBefore (e - (s.eff .sknPre n).toNat * 8)
    let r := finishSkein s n k e code
    let head := r.1.items.filter Item.shared
    let data := if c.next.isSome then r.1.tailBytes else []
    let c' := { s.cap n with
      kept := c.kept ++ [r.1], nextNum := (c.nextNum + 1) % 2 ^ 32, completed := c.completed + 1,
      cur := c.next.map fun x => { x with head := head, headData := data }, next := none }
    r.2.setCap n c'

/-- The capture ends: the bench returns to IDLE, the sequencer stops, CAPTURE_END is posted, and pending values apply
(R25, R185, R461, R462, R482; log entry 67). -/
def endCapture (s : State) (n arg : Nat) : State :=
  let s := s.setCap n { s.cap n with cur := none, next := none, boundary := none, ovr := false, inGap := false, marks := [], tests := [] }
  let s := (stopSequencer s n).setBState n .idle
  settleBench (postEvent s n 0x8402 arg) n

/-- The limit of SEG_MAX has been reached once `done` skeins have completed (R462). -/
def State.segLimit (s : State) (n done : Nat) : Bool :=
  bitB (s.eff .sknCfg n) 0 && decide (fld (s.eff .sknCfg n) 31 16 ≠ 0) && decide (fld (s.eff .sknCfg n) 31 16 ≤ done)

/-- A skein reaches its planned END (R461, R462): single captures and the last skein of a segmented capture end the
capture. -/
def completeSkein (s : State) (n e : Nat) : State :=
  let s := endSkein s n e .complete
  if !bitB (s.eff .sknCfg n) 0 || s.segLimit n (s.cap n).completed then endCapture s n 0 else s

/-! ### Boundaries -/

/-- Move a bench to HALTED at a boundary: no pending value applies, the skein in progress ends STOPPED, the sequencer
stops (R206, R213, R485). -/
def haltBench (s : State) (n b : Nat) : State :=
  let s := if (s.cap n).cur.isSome then endSkein (s.setCap n { s.cap n with next := none }) n b .stopped else s
  let s := s.setCap n { s.cap n with cur := none, next := none, boundary := none, inGap := false, marks := [], tests := [] }
  (stopSequencer s n).setBState n .halted

/-! ### Parity (R203 to R210) -/

/-- A register fails its parity check and the mismatch has not been raised yet (R205; log entry 67). -/
def State.parityFails (s : State) (a : Nat) : Bool :=
  s.badParity.any fun x => decide (x.addr = a) && decide (x.flips % 2 = 1) && !x.found

/-- Survo firmware rewrites a register from its record of the last write (R207); its A fields stand. -/
def rewriteReg (s : State) (a : Nat) : State :=
  let a' := match regAt a with
    | some r => r.name.row.bits .a
    | none => 0
  s.each (s.badParity.filter fun x => decide (x.addr = a)) fun s x =>
    if x.inEffect then s.setActWord a x.word else s.setRegWord a ((x.word &&& ~~~ a') ||| (s.regWord a &&& a'))

/-- A parity mismatch (R205 to R208, R210, R212). -/
def parityFault (s : State) (a : Nat) : State :=
  let s := ({ s with parityAddr := a } : State).bumpSat .glbParity 0 0 31 24 1
  let s := { s with badParity := s.badParity.map fun x => if x.addr = a then { x with found := true } else x }
  let s := match windowOf a with
    | some n =>
      let s := s.setSess n { s.sess n with parity := true }
      match s.bstate n with
      | .idle => haltBench s n s.power.baseTick
      | .closed | .resetting => s.setSess n { s.sess n with restoreDue := true }
      | .armed | .capturing | .halted => s
    | none => rewriteReg s a
  raiseFault s (resBank (bankOf a)) 0x0701

/-- Check one register (R203). -/
def checkParity (s : State) (a : Nat) : State := if s.parityFails a then parityFault s a else s

/-- The hardware uses the registers whose addresses satisfy `p`, or the scrubber reads them: each is checked (R203). -/
def usesRegs (s : State) (p : Nat → Bool) : State := s.each ((s.badParity.map Corrupt.addr).filter p) checkParity

/-- The scrubber's pass over every register (R203). -/
def scrubParity (s : State) : State := usesRegs s fun _ => true

/-- The registers of the window of bench `n` and CMP_Sn_CFG. -/
def benchUses (n a : Nat) : Bool := decide (windowOf a = some n) || a == 0x7900 + n * 0x40

/-- The channels and the bobbin banks of bench `n` that have passed their re-test rejoin at its skein boundary (R382, R765,
R771). -/
def rejoinSkein (s : State) (n : Nat) : State :=
  let mine := s.ref.rejoining.filter fun r => decide (resType r = 1 ∨ resType r = 3) && decide (s.resOwner r = some n)
  s.each mine fun s r =>
    let s := bookReturn s r
    if resType r = 3 then s.setCap n { s.cap n with lostBanks := (s.cap n).lostBanks - 1 } else s

/-- The EEPROM trims read since the last boundary take effect (R400). -/
def trimBoundary (s : State) (n : Nat) : State :=
  s.each ((List.range 8).filter fun p => s.owns n p) fun s p =>
    match (s.pod p).nextTrim with
    | some t => s.setPod p { s.pod p with trim := t, nextTrim := none }
    | none => s

/-- The loopback tests that run on channels of bench `n`, with their starts: a skein that begins during one holds its held samples too
(R397). -/
def State.testsNow (s : State) (n : Nat) : List (Nat × Nat) :=
  (s.ref.running.filter fun t => decide (resType t.res = 1) && decide (s.resOwner t.res = some n)).map fun t =>
    (t.started, resIndex t.res)

/-- The skein boundary of bench `n` at tick `b` (R184, R189, R391, R421, R429, R462, R464): pending values apply unless HOLD
is set; at a re-arm a changed front-end or format value ends skein k with TRUNC and forms no shared range. -/
def boundaryAt (s0 : State) (n b : Nat) (rearm : Bool) : State :=
  let s := usesRegs s0 (benchUses n)
  if (s.sess n).parity ∧ !(s.sess n).restoreDue then haltBench s n b
  else
    let c := s.cap n
    let changed := !s.held n && s.skeinPending n isFormatAddr
    let planned := (c.cur.bind fun k => k.due).getD b
    let s := if rearm ∧ (changed ∨ planned ≤ b) then endSkein s n b (if changed then .trunc else .complete) else s
    let s := applySkein s n
    let s := trimBoundary (rejoinSkein s n) n
    let d := s.draw 15
    let s := flushTests d.2 n b
    let off := d.1 % max 1 (256 * s.bobbinUnits n)
    let c := s.cap n
    let s := s.setSeqr n (restartSequencer s n b (!rearm))
    let s := match c.cur with
      | some k =>
        let o := (planned - b) / 8
        let next := { newSkein s n b (c.nextNum + 1) off with headShared := true, ovlp := o }
        s.setCap n { c with
          cur := some { k with tailShared := true, ovlp := o }, next := some next, boundary := none, smpAll := true }
      | none =>
        s.setCap n { c with
          cur := some (newSkein s n b c.nextNum off), next := none, boundary := none, inGap := rearm && c.ovr,
          ovr := rearm && c.ovr, tests := s.testsNow n, smpAll := true, clkLost := false }
    s.setCap n { s.cap n with clkLost := false }

/-- The skein boundary that is due, if one is. -/
def performBoundary (s : State) (n : Nat) : State :=
  match (s.cap n).boundary with
  | none => s
  | some (b, rearm) => boundaryAt s n b rearm

/-- What falls due for bench `n` at or before tick `t`, the earlier first, an END before a boundary of the same tick. -/
def runDueStep (s : State) (n t : Nat) : State :=
  let c := s.cap n
  let due := c.cur.bind fun k => k.due
  match c.boundary, due with
  | some (b, _), some e =>
    if b < e then (if b ≤ t then performBoundary s n else s) else (if e ≤ t then completeSkein s n e else s)
  | some (b, _), none => if b ≤ t then performBoundary s n else s
  | none, some e => if e ≤ t then completeSkein s n e else s
  | none, none => s

/-- Everything due at or before tick `t`: a boundary, an END and the boundary after it at most. -/
def runDue (s : State) (n t : Nat) : State := runDueStep (runDueStep (runDueStep s n t) n t) n t

/-! ### Storing -/

/-- There is no room left for the latest record: the bobbin is over-full, or a bank test holds more than 2 KiB (R479, R763). -/
def State.noRoom (s : State) (n : Nat) : Bool :=
  decide (s.bobbinBytes n < (s.cap n).occupied) ||
    (match (s.cap n).bankTest with
      | some k => decide (2048 < k)
      | none => false)

/-- The skein in progress is before its trigger and in no shared range. -/
def Capture.preTrigger (c : Capture) : Bool :=
  match c.cur, c.next with
  | some k, none => k.trig.isNone
  | _, _ => false

/-- The pre-trigger window of R460 at a sample of tick `t`: as much of it as fits; a re-armed skein whose window does not fit is discarded
and ends the capture, the bobbin being full (R462, R468). -/
def trimPre (s : State) (n t : Nat) : State :=
  let c := s.cap n
  match c.cur with
  | none => s
  | some k =>
    let cut := max k.start (t - (s.eff .sknPre n).toNat * 8)
    let k := k.dropBefore cut
    let others := (Capture.occupied { c with cur := none }) + 64
    let room := s.bobbinBytes n - others
    if k.headShared ∧ !k.streamed ∧ room < k.recordBytes.length then endCapture (s.setCap n { c with cur := none }) n 3
    else s.setCap n { c with cur := some (k.fitInto room k.items.length) }

/-- A record found no room (R479, R480): `s` is the state without it.  A streaming bench stops storing, with an OVERRUN marker at tick
`t`; the skein of any other one ends FULL, and the capture with it. -/
def spaceGone (s : State) (n t : Nat) : State :=
  let c := s.cap n
  match c.cur with
  | none => s
  | some k =>
    if k.streamed then
      let s2 := (mark s n 2 t 0).bumpSat .sknOvrCnt n 0 31 0 1
      let s2 := s2.setCap n { s2.cap n with ovr := true, inGap := true }
      postEvent s2 n 0x8403 ((s2.rd .sknOvrCnt n).toNat % 2 ^ 16)
    else
      let s2 := s.setCap n { c with next := none, cur := some (if c.next.isSome then { k with tailShared := false } else k) }
      endCapture (endSkein s2 n t .full) n 3

/-- The markers that wait are written at the sample of tick `t`, first those of tests that have started; a bench whose storing is
suspended keeps them (R469, R477, R479, R480). -/
def writeMarks (s : State) (n t : Nat) : State :=
  if (s.cap n).ovr then s
  else
    let marks := (s.cap n).marks
    let m := flushTests (s.setCap n { s.cap n with marks := [] }) n (t + 1)
    let m := m.each marks fun s x => mark s n x.1 t x.2
    if m.noRoom n ∧ !(s.cap n).preTrigger ∧ (marks ≠ [] ∨ (m.cap n).tests ≠ (s.cap n).tests) then spaceGone s n t else m

/-- Store or leave out the sample at tick `t` (R416, R428, R460, R477 to R480, R488).  A trigger sample stored with the store state off
stands alone, in a group or a snapshot of its own (R478). -/
def storeSample (s : State) (n t : Nat) (ws : List Word) (on trigger : Bool) : State :=
  let c := s.cap n
  match c.cur with
  | none => s
  | some k0 =>
    if c.ovr then s
    else if on || trigger then
      let alone := trigger && !on && !c.inGap
      let s1 := s.setCap n { c with
        inGap := false, bankTest := c.bankTest.map fun b => b + k0.costOf (.sample t ws c.next.isSome) }
      let s1 := appendItem (if alone then mark s1 n breakType t 0 else s1) n (.sample t ws false)
      if c.preTrigger && !trigger then trimPre s1 n t else if s1.noRoom n then spaceGone s n t else s1
    else if c.inGap then s
    else
      let s1 := mark s n 1 t 0
      let s1 := s1.setCap n { s1.cap n with inGap := true }
      if c.preTrigger then trimPre s1 n t else if s1.noRoom n then spaceGone s n t else s1

/-! ### Triggers -/

/-- A trigger at tick `t` in level `level` (R431 to R433, R461, R462, R483): the skein records it, END and the re-arm are
planned, an ARMED bench moves to CAPTURING, TRIGGERED is posted. -/
def triggerAt (s : State) (n t level : Nat) (forced : Bool) : State :=
  let c := s.cap n
  let post := (s.eff .sknPost n).toNat * 8
  let pre := (s.eff .sknPre n).toNat * 8
  let setT (k : Skein) : Skein :=
    { k with trig := some t, trigLevel := level, forced := forced, due := if post = 0 then none else some (t + post) }
  let seg := bitB (s.eff .sknCfg n) 0
  let doneThen := c.completed + (if c.next.isSome then 2 else 1)
  let rearm := if seg && decide (post ≠ 0) && !s.segLimit n doneThen then some (t + post - pre, true) else c.boundary
  let c := match c.next with
    | some k => { c with next := some (setT k), boundary := rearm }
    | none => { c with cur := c.cur.map setT, boundary := rearm }
  let s := s.setCap n c
  let s := if s.bstate n = .armed then s.setBState n .capturing else s
  postEvent s n 0x8301 (level + bN forced * 16)

/-- Answer the TRG_FORCE that a trigger carried out (R435). -/
def answerForce (s : State) (n t : Nat) : State :=
  match (s.seqr n).force with
  | none => s
  | some c => respond (s.setSeqr n { s.seqr n with force := none }) 0x0304 c .done 0 (lohi t) s.isReplaying

/-! ### One sample -/

/-- The channels, by pod, in which two samples differ. -/
def changedWords (a b : List Word) : List Word := (List.range 8).map fun p => wordAt a p ^^^ wordAt b p

/-- A test that the stuck-at monitor has asked for in the window of tick `t` and that still waits is asked for no more: the channel has
changed value in the same sample (R404). -/
def unaskTest (s : State) (t ch : Nat) : State :=
  if s.ref.asked.any fun a => a.1 == ch && a.2 / 8 == t / 8 then
    { s with ref := { s.ref with
      asked := s.ref.asked.filter fun a => a.1 != ch
      waiting := s.ref.waiting.filter fun x => !(decide (x.res = resChannel ch) && x.code == 0x0101 && !x.requested) } }
  else s

/-- The stuck flags of bench `n`'s channels that change value at the sample of tick `t` clear, and their quiet periods end (R394, R396,
R404). -/
def clearStuck (s : State) (n t : Nat) (ws : List Word) : State :=
  let c := s.cap n
  match (s.seqr n).prev with
  | none => s
  | some prev =>
    let now := changedWords prev ws
    let so := if c.lastTick / 8 = t / 8 then (List.range 8).map fun p => wordAt c.changed p ||| wordAt now p else now
    let s := s.setCap n { c with changed := so }
    s.each ((List.range 8).filter fun p => s.owns n p) fun s p =>
      let ch := wordAt now p
      if ch = 0 then s
      else
        let s := s.setPod p { s.pod p with stuck := (s.pod p).stuck &&& ~~~ ch }
        let s := { s with ref := { s.ref with
          quiet := s.ref.quiet.filter fun c => !(decide (c / 32 = p) && bitB ch (c % 32)) } }
        s.each (onesBelow 32 ch.toNat) fun s d => unaskTest s t (32 * p + d)

/-- The SMP entries of a sample (R821): in timing mode for each changed pod word, in state mode for every pod, and all of
them with CHANGED all ones after an arm, a re-arm or a GAP. -/
def recordSample (s : State) (n t : Nat) (ws : List Word) : State :=
  if s.recordsBench n then
    let all := (s.cap n).smpAll
    let prev := ((s.seqr n).prev).getD []
    let s := s.each ((List.range 8).filter fun p => s.owns n p) fun s p =>
      let ch : Word := if all then 0xFFFFFFFF else wordAt prev p ^^^ wordAt ws p
      if all ∨ s.stateMode n ∨ ch ≠ 0 then
        logEntry s n ⟨t, 9, p, BitVec.ofNat 64 ((wordAt ws p).toNat + ch.toNat * 2 ^ 32)⟩
      else s
    s.setCap n { s.cap n with smpAll := false }
  else s

/-- Evaluate and store one sample whose stored pod words are known (R412 to R416, R428). -/
def takeSample (s : State) (n t : Nat) (ws : List Word) (force : Bool) : State :=
  let s := recordSample (clearStuck s n t ws) n t ws
  let r := evalSample s n t ws force
  let s := r.1
  let s := match r.2.trigger with
    | some (level, forced) => triggerAt s n t level forced
    | none => s
  let s := writeMarks (s.setCap n { s.cap n with lastTick := t }) n t
  let s := storeSample s n t ws r.2.store r.2.trigger.isSome
  let s := if r.2.trigger.isSome ∧ (s.cap n).next.isNone then trimPre s n t else s
  if r.2.trigger.isSome then answerForce s n t else s

/-- One sample of bench `n` at tick `t`, whose comparators gave `raw`; a bench that is neither ARMED nor CAPTURING takes no sample, and
none before the START of its skein (R430). -/
def sampleStep (s : State) (n t : Nat) (raw : List Word) : State :=
  match (s.cap n).cur with
  | none => s
  | some k =>
    if !s.capturing n || decide (t < k.start) then s
    else
      let s := usesRegs s (benchUses n)
      takeSample s n t (s.storedWords n raw) (s.seqr n).force.isSome

/-- The words of samples taken while selected clock edges fall less than 4 ns apart are unspecified: free values (R384). -/
def freeWords (s : State) : List Word × State :=
  (List.range 8).foldl (fun acc _ => let d := acc.2.draw 32; (acc.1 ++ [W d.1], d.2)) ([], s)

/-- One base tick `t` in timing mode: a sample at each multiple of the sample interval (R378, R387). -/
def timingTick (s : State) (n : Nat) (pods : List PodInput) (last : Option Int) (t : Nat) : State × Option Int :=
  let now : Int := 625 * t
  let s := runPods s n pods last now
  (if t % sampleInterval (s.feRate n) = 0 then sampleStep s n t (s.rawWords n) else s, some now)

/-- One base tick `t` in state mode: a sample at the first selected edge in it (R381, R382, R384 to R386). -/
def stateTick (s : State) (n : Nat) (pods : List PodInput) (last : Option Int) (t : Nat) : State × Option Int :=
  let now : Int := 625 * t
  if s.clkUnowned n || (s.cap n).clkLost then
    let s := runPods s n pods last (now + 624)
    (s.setCap n { s.cap n with clkLost := true }, some (now + 624))
  else
    let c := runClock s n pods last.isNone now
    match c.1 with
    | [] => (clockQuiet (runPods c.2 n pods last (now + 624)) n now, some (now + 624))
    | e :: _ =>
      let s := clockEdges (runPods c.2 n pods last e) n c.1
      let f := if (s.cap n).clkOver then freeWords s else (s.rawWords n, s)
      (sampleStep f.2 n t f.1, some e)

/-- One base tick of bench `n`: what is due first, then the sample it brings; the second part is the time the comparators have reached. -/
def tickStep (n : Nat) (pods : List PodInput) (acc : State × Option Int) (t : Nat) : State × Option Int :=
  let s := runDue acc.1 n t
  if s.stateMode n then stateTick s n pods acc.2 t else timingTick s n pods acc.2 t

/-- The 8-tick window `w` of bench `n`, with the voltages at the balls (R376 to R388, R412, R413); the base-tick counter reaches its last
tick.  A bench that is replayed takes its samples from the log (R827). -/
def sampleWindow (s : State) (n w : Nat) (pods : List PodInput) : State :=
  if !s.live || s.replaysBench n then s
  else
    let s := { s with power := { s.power with baseTick := max s.power.baseTick (8 * w + 7) } }
    ((List.range 8).foldl (fun acc i => tickStep n pods acc (8 * w + i)) (s, none)).1

/-- SKN_STATUS.PHASE. -/
def Capture.phase (c : Capture) : Nat :=
  match c.cur with
  | none => 0
  | some k => if c.next.isSome then 3 else if k.trig.isSome then 2 else 1

/-- SKN_NUM: the number of the skein in progress, or of the next one. -/
def Capture.number (c : Capture) : Nat :=
  match c.next with
  | some k => k.num
  | none => c.nextNum

end Sys2Proof.Machine
end

