-- ==== Sys2Proof/Machine/Umpire.lean ====
section
/-! DEFINITION. The Umpire: kinds of engines, regulators, rally boundaries, the choice of the next job, and switching
(R594 to R620, R627 to R640). -/

namespace Sys2Proof.Machine

/-! ### Kinds -/

/-- The kind of an engine: 0 compression, 1 search, 2 decode, 3 interval (R594). -/
def engKind (e : Nat) : Nat := if e < 4 then 0 else if e < 6 then 1 else if e < 8 then 2 else 3

/-- The kind of engine a job needs (R594). -/
def JobKind.kind : JobKind → Nat
  | .stream => 0
  | .exportJob _ _ _ => 0
  | .verify _ _ _ => 0
  | .search _ => 1
  | .decode _ => 2
  | .measure _ _ => 3
  | .calibrate => 3

/-- The opcode of the command a job came from; a stream job came from none. -/
def JobKind.op : JobKind → BitVec 16
  | .stream => 0
  | .exportJob _ _ _ => 0x0502
  | .verify _ _ _ => 0x0503
  | .search _ => 0x0701
  | .decode _ => 0x0702
  | .measure _ _ => 0x0802
  | .calibrate => 0x0803

/-- The engines of the member. -/
def State.engineList (s : State) : List Nat := (List.range 9).filter s.member.hasEngine

/-- Engine `e` is in service. -/
def State.engineServes (s : State) (e : Nat) : Bool := s.member.hasEngine e && !s.isRetired (resEngine e)

/-- The in-service engines of a kind in a ply (R595). -/
def State.enginesOf (s : State) (ply kind : Nat) : List Nat :=
  s.engineList.filter fun e => decide (engKind e = kind) && decide (s.engPly e = ply) && s.engineServes e

/-- ENG_e_CFG.MODE in effect: interleave (R609); ignored for the interval unit (R610). -/
def State.interleaved (s : State) (e : Nat) : Bool := bitB (s.eff .engCfg e) 0 && decide (e ≠ 8)

/-! ### Regulators (R616 to R619) -/

/-- RATE in effect of path `k` of ply `y`. -/
def State.plyRate (s : State) (y k : Nat) : Nat := fld (s.eff .plyRate y k) 15 0

/-- BURST in effect, in bytes; a BURST of 0 acts as 1. -/
def State.plyBurst (s : State) (y k : Nat) : Nat := max 1 (fld (s.eff .plyBurst y k) 15 0) * 1024

/-- The level of a regulator at reset: its BURST of 64 KiB (R618). -/
def levelInit (_ : Nat) : Int := 65536

/-- The level L of path `k` of ply `y`; an unregulated path reads BURST × 1,024 (R617, R618). -/
def State.level (s : State) (y k : Nat) : Int :=
  if s.plyRate y k = 0 then (s.plyBurst y k : Int) else s.umpire.levels.get levelInit (3 * y + k)

/-- Write the level of path `k` of ply `y`. -/
def State.setLevel (s : State) (y k : Nat) (l : Int) : State :=
  { s with umpire := { s.umpire with levels := s.umpire.levels.put levelInit (3 * y + k) l } }

/-- A transfer of bench `n` may start on path `k`: L ≥ 0; in a replay every regulator is unregulated (R617, R827). -/
def State.mayStart (s : State) (n k : Nat) : Bool :=
  decide (s.rpl.state = .replaying) || decide (0 ≤ s.level (s.plyOf n) k)

/-- Charge bytes of bench `n` to path `k` of its ply (R616, R617). -/
def chargePath (s : State) (n k bytes : Nat) : State :=
  if s.rpl.state = .replaying ∨ s.plyRate (s.plyOf n) k = 0 then s
  else s.setLevel (s.plyOf n) k (s.level (s.plyOf n) k - bytes)

/-- The refill of one regulator (R617, R618). -/
def refillOne (s : State) (y k : Nat) : State :=
  if s.plyRate y k = 0 then s.setLevel y k (s.plyBurst y k)
  else s.setLevel y k (min (s.level y k + s.plyRate y k) (s.plyBurst y k))

/-- The refill of every regulator (R617). -/
def refillAll (s : State) : State :=
  s.each (List.range s.member.plies) fun s y => s.each (List.range 3) fun s k => refillOne s y k

/-- A level after a REGULATOR_SET has applied: clipped to the new BURST × 1,024, its debt kept (R638). -/
def clipLevels (s : State) : State :=
  s.each (List.range s.member.plies) fun s y => s.each (List.range 3) fun s k =>
    s.setLevel y k (min (s.level y k) (s.plyBurst y k))

/-- Capture SRAM bytes of an engine or the host: accounted and charged (R616, R621). -/
def moveSram (s : State) (n bytes : Nat) : State := chargePath (chargeSram s n bytes) n 0 bytes
/-- NAND bytes programmed for a bench. -/
def moveNandWrite (s : State) (n bytes : Nat) : State := chargePath (chargeNandWrite s n bytes) n 1 bytes
/-- NAND bytes read for a bench. -/
def moveNandRead (s : State) (n bytes : Nat) : State := chargePath (chargeNandRead s n bytes) n 1 bytes
/-- Bulk payload bytes of a bench. -/
def moveUsb (s : State) (n bytes : Nat) : State := chargePath (chargeUsb s n bytes) n 2 bytes

/-! ### Jobs -/

/-- The job with a number. -/
def State.job? (s : State) (id : Nat) : Option Job := s.umpire.jobs.find? fun j => j.id == id

/-- Replace a job. -/
def State.setJob (s : State) (j : Job) : State :=
  { s with umpire := { s.umpire with jobs := s.umpire.jobs.map fun (x : Job) => if x.id = j.id then j else x } }

/-- The job that an engine runs. -/
def State.jobOn (s : State) (e : Nat) : Option Job := (s.engine e).job.bind s.job?

/-- Add a job: it waits behind every job taken before it (R604). -/
def addJob (s : State) (n : Nat) (st : Stream) (tag : BitVec 8) (k : JobKind) (input : List (Nat × Nat × Item)) : State :=
  let id := s.umpire.nextJob
  { s with umpire := { s.umpire with
      jobs := s.umpire.jobs ++ [{ id := id, bench := n, stream := st, tag := tag, kind := k, state := .ready, input := input }],
      nextJob := (id + 1) % 2 ^ 16 } }

/-- The skein of bench `n` with a number, and whether it has ended. -/
def State.skeinOf (s : State) (n num : Nat) : Option (Skein × Bool) :=
  let c := s.cap n
  match c.cur with
  | some k => if k.num = num then some (k, false) else (c.kept.find? fun k => k.num == num).map fun k => (k, true)
  | none => (c.kept.find? fun k => k.num == num).map fun k => (k, true)

/-- The start of a loopback test that runs on a channel of bench `n`: its marker is written with the verdict (R397, R477). -/
def State.testLimit (s : State) (n : Nat) : Option Nat :=
  (s.ref.running.find? fun t => decide (resType t.res = 1) && decide (s.resOwner t.res = some n)).map RefTest.started

/-- The bytes of the streamed skein that may go into blocks, and whether they are all: none before the trigger, while R460 may still
discard its samples (R460, R466, R479, R495). -/
def State.streamAvail (s : State) (n : Nat) : List Byte × Bool :=
  match s.skeinOf n (s.cmp n).pos.skein with
  | none => ([], false)
  | some (k, ended) =>
    if ended then (k.recordBytes, true) else if k.trig.isNone then ([], false) else (k.closedBytes (s.testLimit n), false)

/-- The end of the stream block in progress, once something ends it (R499, R520). -/
def State.blockEnd (s : State) (n : Nat) : Option Nat :=
  let c := s.cmp n
  let a := s.streamAvail n
  let full := c.pos.inOff + 65536
  match c.cuts with
  | cut :: _ => some (min cut full)
  | [] => if full ≤ a.1.length then some full
    else if a.2 ∧ c.pos.inOff < a.1.length then some a.1.length else none

/-- Every table has been calibrated since the tables were lost (IU_STATUS.CAL_VALID). -/
def Interval.calValid (u : Interval) : Bool := (List.range 9).all fun i => u.done.contains i

/-- A measurement may be armed: the tables are valid and not due, and the unit is idle (R664). -/
def State.iuMayArm (s : State) : Bool :=
  s.iu.calValid && !s.iu.calDue && !s.iu.calPending && decide (s.iu.state = .idle)

/-- The path that the input of a search or decode job takes: capture SRAM from the bobbin, NAND from a stream (R616, R641). -/
def scanPath (payload : List Word) : Nat := if bitB (wordAt payload 0) 0 then 1 else 0

/-- The job has input for its current step and the tokens to move it (R603, R619). -/
def State.hasInput (s : State) (j : Job) : Bool :=
  match j.kind with
  | .stream => decide ((s.cmp j.bench).state = .running) && decide ((s.cmp j.bench).pos.inOff < (s.streamAvail j.bench).1.length)
      && s.mayStart j.bench 0
  | .exportJob _ _ _ => s.mayStart j.bench 0
  | .verify _ _ _ => s.mayStart j.bench 1
  | .search p => s.mayStart j.bench (scanPath p)
  | .decode p => s.mayStart j.bench (scanPath p)
  | .measure _ _ => s.iuMayArm
  | .calibrate => decide (s.iu.state = .idle)

/-- The job is ready (R603). -/
def State.isReadyJob (s : State) (j : Job) : Bool :=
  decide (j.state = .ready) && j.await.isNone && s.hasInput j

/-- A Referee test of the resource runs. -/
def State.testing (s : State) (r : Word) : Bool := s.ref.running.any fun t => decide (t.res = r)

/-- The engine may run the job: kind, ply and service (R595), no test of the engine running; IU_CALIBRATE runs whatever the
ply (R596). -/
def State.mayRun (s : State) (e : Nat) (j : Job) : Bool :=
  decide (engKind e = j.kind.kind) && s.engineServes e && !s.testing (resEngine e) &&
    (decide (j.kind = .calibrate) || decide (s.engPly e = s.plyOf j.bench))

/-! ### The choice (R604) -/

/-- The benches of ply `y` from the one after `p`, wrapping. -/
def State.rotation (s : State) (y p : Nat) : List Nat :=
  let all := s.benchList.filter fun n => decide (s.plyOf n = y)
  all.filter (fun n => decide (p < n)) ++ all.filter (fun n => decide (n ≤ p))

/-- The interval unit's registers with G fields, applied at engine 8's rally boundary (R655, R679). -/
def iuRegs : List Nat := [Reg.addr ⟨.iuCfg, 0, 0⟩, Reg.addr ⟨.iuTmoLo, 0, 0⟩, Reg.addr ⟨.iuTmoHi, 0, 0⟩, Reg.addr ⟨.iuCorr, 0, 0⟩]

/-- The first candidate of R604 for engine `e`: a ready job, or the one `e` runs. -/
def State.candidate (s : State) (e n : Nat) : Option Job :=
  let mine := s.umpire.jobs.filter fun j => decide (j.bench = n) && s.mayRun e j
  match mine.find? s.isReadyJob with
  | some j => some j
  | none => mine.find? fun j => decide (j.state = .running e) && s.hasInput j

/-- Mboron's record of a decision (R817): an entry when the job changes, a count kept for the next entry otherwise. -/
def recordDecision (s : State) (e : Nat) (old new : Option Nat) : State :=
  let x := s.engine e
  let keep := if old = new ∧ new.isSome then x.keep + 1 else x.keep
  if s.rpl.state ≠ .recording then s
  else if old = new ∧ keep ≤ 0xFFFF then s.setEngine e { x with keep := keep }
  else
    let bench := match new.bind s.job? with
      | none => 15
      | some j => if s.rplNames j.bench then j.bench else 14
    let s := s.setEngine e { x with keep := 0 }
    logPart s 4 (e + bench * 2 ^ 8 + min x.keep 0xFFFF * 2 ^ 16 + new.getD 0 * 2 ^ 32)

/-- The job waits for the verdict on engine `e` (R513). -/
def Job.awaits (j : Job) (e : Nat) : Bool := decide (j.await = some (resEngine e))

/-- A job that no other engine runs: engine `e` may be given it. -/
def Job.freeFor (j : Job) (e : Nat) : Bool := decide (j.state = .ready) || decide (j.state = .running e)

/-- The job that a recorded choice names (R816, R845): the job of the replay to which its number has been given, or else the oldest job
of its bench and kind that has no recorded number yet, to which it is given. -/
def replayChoice (s : State) (e bench num : Nat) : Option Nat × State :=
  if 14 ≤ bench then (none, s)
  else
    match s.rpl.jobMap.find? fun p => p.1 == num with
    | some p => (((s.job? p.2).filter fun j => j.freeFor e).map Job.id, s)
    | none =>
      let free (j : Job) : Bool := decide (j.bench = bench ∧ j.kind.kind = engKind e) && j.freeFor e && !(s.rpl.jobMap.any fun p => p.2 == j.id)
      match (sortBy Job.id (s.umpire.jobs.filter free)).head? with
      | some j => (some j.id, { s with rpl := { s.rpl with jobMap := s.rpl.jobMap ++ [(num, j.id)] } })
      | none => (none, s)

/-- Choose the next job of engine `e`, counting the decision (R604, R608); in a replay the recorded choice stands (R816,
R845). -/
def choose (s : State) (e : Nat) : Option Nat × State :=
  let y := s.engPly e
  let key := 4 * y + engKind e
  let s := s.bumpWrap .umpDecisions 0 0 31 0 1
  if s.isReplaying then
    match s.rpl.choices.find? fun c => c.1 == e with
    | some c => replayChoice { s with rpl := { s.rpl with choices := s.rpl.choices.erase c } } e c.2.1 c.2.2
    | none => ((s.engine e).job, s)
  else
    let p := s.umpire.ptr.get (fun _ => 0) key
    let pick := (s.rotation y p).findSome? fun n => (s.candidate e n).map fun j => (n, j.id)
    let pick := if e = 8 then
        match (s.umpire.jobs.find? fun j => decide (j.kind = .calibrate) && s.isReadyJob j) with
        | some j => some (p, j.id)
        | none => pick
      else pick
    let old := (s.engine e).job
    match pick with
    | none => (none, recordDecision s e old none)
    | some (n, id) =>
      let s := { s with umpire := { s.umpire with ptr := s.umpire.ptr.put (fun _ => 0) key n } }
      (some id, recordDecision s e old (some id))

/-! ### Rally boundaries and staged values (R183, R185 to R188, R599 to R601) -/

/-- The rally-boundary registers outside the bench windows. -/
def rallyRegs : List Nat :=
  (List.range 9).map (fun e => Reg.addr ⟨.engCfg, e, 0⟩) ++
  (List.range 4).flatMap fun y => Reg.addr ⟨.plyCfg, y, 0⟩ ::
    (List.range 3).flatMap fun k => [Reg.addr ⟨.plyRate, y, k⟩, Reg.addr ⟨.plyBurst, y, k⟩]

/-- GLB_STAGE.PENDING (R188). -/
def State.rallyPending (s : State) : Bool :=
  (rallyRegs ++ iuRegs).any fun a => decide ((s.regWord a ^^^ s.actWord a) &&& gBitsAt a ≠ 0)

/-- GLB_STAGE.HOLD (R188). -/
def State.rallyHeld (s : State) : Bool := bitB (s.rd .glbStage) 0

/-- BN_OWN.PLY of a bench whose HOLD is 0 becomes the one in effect (R187). -/
def applyPly (s : State) (n : Nat) : State :=
  if s.held n then s else applyReg s (Reg.addr ⟨.bnOwn, n, 0⟩) (maskW 9 8)

/-- Preempt the job of engine `e`, its context saved: the job stays ready behind the others (R600, R613). -/
def preempt (s : State) (e : Nat) : State :=
  match s.jobOn e with
  | none => s.setEngine e { s.engine e with job := none, chosen := none }
  | some j =>
    let taken := if j.kind = .stream then (s.streamAvail j.bench).1.length else j.taken
    let j := { j with state := .ready, saved := some e, taken := taken }
    let s := { s with umpire := { s.umpire with jobs := (s.umpire.jobs.filter fun (x : Job) => decide (x.id ≠ j.id)) ++ [j] } }
    s.setEngine e { s.engine e with job := none, chosen := none }

/-- After a ply change, a job that no longer belongs where it runs is preempted (R600, R601); the interval unit keeps its
measurement (R610). -/
def expelStrangers (s : State) : State :=
  s.each (List.range 8) fun s e =>
    match s.jobOn e with
    | none => s
    | some j => if s.plyOf j.bench = s.engPly e then s else preempt s e

/-- The engines of a ply that have passed their re-test rejoin at a rally boundary of the ply (R628). -/
def rejoinEngines (s : State) (y : Nat) : State :=
  s.each (s.engineList.filter fun e => decide (s.engPly e = y)) fun s e =>
    if s.ref.rejoining.contains (resEngine e) then
      let s := bookReturn s (resEngine e)
      s.each (s.openBenches.filter fun n => decide (s.plyOf n = s.engPly e)) fun s n => postEvent s n 0x8701 e
    else s

/-- Every pending rally-boundary value applies, in one cycle (R186 to R188, R599). -/
def applyRally (s : State) : State :=
  let s := if s.rallyHeld then s
    else clipLevels (s.each rallyRegs fun s a => applyReg s a (gBitsAt a))
  expelStrangers (s.each s.benchList applyPly)

/-- A rally boundary of engine `e` (R186, R599, R628). -/
def rallyBoundary (s : State) (e : Nat) : State :=
  let s := usesRegs s fun a => rallyRegs.contains a
  rejoinEngines (applyRally s) (s.engPly e)

/-- The engine concerned by a rally-boundary register runs no job (R185). -/
def State.rallyIdle (s : State) (a : Nat) : Bool :=
  match regAt a with
  | some ⟨.engCfg, e, _⟩ => (s.engine e).job.isNone
  | some ⟨_, y, _⟩ => s.engineList.all fun e => decide (s.engPly e ≠ y) || (s.engine e).job.isNone
  | none => true

/-- With no boundary in prospect, a pending rally-boundary value outside the bench windows applies at once (R185, R188). -/
def settleRally (s : State) (a : Nat) : State :=
  if a ∈ rallyRegs ∧ s.rallyIdle a ∧ !s.rallyHeld then expelStrangers (clipLevels (applyReg s a (gBitsAt a))) else s

/-- The same for BN_OWN.PLY of a bench (R185, R187). -/
def settlePly (s : State) (n : Nat) : State :=
  if s.engineList.all fun e => decide (s.engPly e ≠ s.plyOf n) || (s.engine e).job.isNone then applyPly s n else s

/-! ### Switching (R602, R603, R613 to R615) -/

/-- Put a job on engine `e`: the bank changes, the switch is counted (R613). -/
def startJob (s : State) (e : Nat) (id : Nat) : State :=
  match s.job? id with
  | none => s.setEngine e { s.engine e with job := none, chosen := none }
  | some j =>
    let s := s.setJob { j with state := .running e, saved := none }
    let x := s.engine e
    (s.setEngine e { x with job := some id, chosen := none, bank := !x.bank }).bumpWrap .engSwitch e 0 31 0 1

/-- A job whose saved context fails its check on restore does not run: ENG_CTX names the engine that saved it, and the job
waits for the verdict ("Engines and register banks"). -/
def failContext (s : State) (id : Nat) : State :=
  match s.job? id with
  | none => s
  | some j =>
    match j.saved with
    | none => s
    | some e => raiseFault (s.setJob { j with saved := none, await := some (resEngine e) }) (resEngine e) 0x0402

/-- Give engine `e` the chosen job; `ok` says that a restored context passes its check. -/
def giveEngine (s : State) (e : Nat) (choice : Option Nat) (ok : Bool) : State :=
  match choice with
  | none => s.setEngine e { s.engine e with job := none, chosen := none }
  | some id =>
    if ok ∨ ((s.job? id).bind Job.saved).isNone then startJob s e id
    else (failContext s id).setEngine e { s.engine e with job := none, chosen := none }

/-- Pending values of the interval unit apply (R188, R655). -/
def applyIu (s : State) : State :=
  if s.rallyHeld then s else s.each iuRegs fun s a => applyReg s a (gBitsAt a)

/-- The engine's job has left it: a rally boundary falls (R602, R655). -/
def freeEngine (s : State) (e : Nat) : State :=
  let s := rallyBoundary (s.setEngine e { s.engine e with job := none, chosen := none }) e
  if e = 8 then applyIu s else s

/-- Remove a job; the engine it ran on is free. -/
def dropJob (s : State) (id : Nat) : State :=
  match s.job? id with
  | none => s
  | some j =>
    let s := { s with umpire := { s.umpire with jobs := s.umpire.jobs.filter fun (x : Job) => decide (x.id ≠ id) } }
    match j.state with
    | .ready => s
    | .running e => freeEngine s e

/-- End a job with its completion event (R275, R298). -/
def endJob (s : State) (j : Job) (st : Status) (arg : Nat) : State :=
  complete (dropJob s j.id) j.stream j.kind.op j.tag st arg

/-! ### Registers -/

/-- The state an engine shows (ENG_e_STATUS.STATE). -/
def State.engState (s : State) (e : Nat) : Nat :=
  if s.onProbation (resEngine e) then 5
  else if s.isRetired (resEngine e) then 4
  else if s.testing (resEngine e) then 3
  else match s.jobOn e with
    | none => 0
    | some j => if s.hasInput j then 1 else 2

/-- ENG_e_STATUS as a role sees it: `own` is a bench whose jobs are shown, or every bench for `none` (R645). -/
def State.engStatus (s : State) (e : Nat) (own : Option Nat) : Word :=
  let shown := match s.jobOn e, own with
    | none, _ => (15, 0)
    | some j, none => (j.bench, j.id)
    | some j, some n => if j.bench = n then (j.bench, j.id) else (15, 0)
  pack [(s.engState e, 0), (shown.1, 8), (s.engPly e, 12), (bN (s.engine e).bank, 14), (shown.2, 16)]

/-- PLY_y_STATUS. -/
def State.plyStatus (s : State) (y : Nat) : Word :=
  pack [(bitsOf (s.benchList.filter fun n => decide (s.plyOf n = y)), 0),
    (bitsOf (s.engineList.filter fun e => decide (s.engPly e = y) && s.engineServes e), 8),
    (bN (s.enginesOf y 0).isEmpty, 24)]

/-- UMP_STATUS: a ready job of engine e's kind and ply finds no free engine. -/
def State.umpStatus (s : State) : Word :=
  W (bitsOf (s.engineList.filter fun e =>
    (s.umpire.jobs.any fun j => s.isReadyJob j && s.mayRun e j) &&
      (s.enginesOf (s.engPly e) (engKind e)).all fun g => (s.engine g).job.isSome))

/-- UMP_CTX. -/
def State.umpCtx (s : State) : Word :=
  pack [((s.umpire.jobs.filter fun j => j.saved.isSome).length, 0), (0x60, 8)]

end Sys2Proof.Machine
end

