-- ==== Sys2Proof/Machine/Lanes.lean ====
section
/-! DEFINITION. The storage lanes: hanks, pages, the bad-block table, the catalogue and relocation (R541 to R589). -/

namespace Sys2Proof.Machine

/-! ### Geometry (R541, R545, R546) -/

/-- Main-area bytes of a page. -/
def Lane.pageBytes (l : Lane) : Nat := l.geom.pageKib * 1024

/-- Hanks of one LUN. -/
def Lane.lunHanks (l : Lane) : Nat := l.geom.blocksPerLun / 4

/-- Main-area bytes of a hank. -/
def Lane.hankBytes (l : Lane) : Nat := 4 * l.geom.pagesPerBlock * l.pageBytes

/-- Hanks of the lane, those that lie wholly or partly beyond 2 TiB left out (R545). -/
def Lane.hankCount (l : Lane) : Nat :=
  let all := l.chips * l.geom.luns * l.lunHanks
  if l.hankBytes = 0 then 0 else min all (2 ^ 41 / l.hankBytes)

/-- The data hanks: all but hanks 0 to 3 of CE0, LUN 0 (R546). -/
def Lane.dataHanks (l : Lane) : List Nat := (List.range l.hankCount).filter fun h => decide (4 ≤ h)

/-- The four lane block numbers of a hank. -/
def Lane.blocksOf (l : Lane) (h : Nat) : List Nat :=
  let base := h / l.lunHanks * l.geom.blocksPerLun + 4 * (h % l.lunHanks)
  [base, base + 1, base + 2, base + 3]

/-- The hank of a lane block. -/
def Lane.hankOf (l : Lane) (b : Nat) : Nat :=
  b / l.geom.blocksPerLun * l.lunHanks + b % l.geom.blocksPerLun / 4

/-- The bad-block table lists the block. -/
def Lane.isBad (l : Lane) (b : Nat) : Bool := l.bad.any fun e => e.1 == b

/-- The good blocks of a hank. -/
def Lane.goodBlocks (l : Lane) (h : Nat) : List Nat := (l.blocksOf h).filter fun b => !l.isBad b

/-- The pages of a hank's good blocks (R547). -/
def Lane.capacity (l : Lane) (h : Nat) : Nat := (l.goodBlocks h).length * l.geom.pagesPerBlock

/-- The lane block that holds page `i` of a hank: pages of good blocks in page order, one page number after another (R547). -/
def Lane.blockOfPage (l : Lane) (h i : Nat) : Nat :=
  let g := l.goodBlocks h
  g.getD (i % max 1 g.length) 0

/-- The page key of page `p` of a lane block. -/
def Lane.keyOf (l : Lane) (b p : Nat) : Nat :=
  let h := l.hankOf b
  let g := l.goodBlocks h
  h * 4096 + p * g.length + g.idxOf b

/-- A page that nothing has programmed. -/
def blankPage (_ : Nat) : NandPage := { type := 0, bench := 0, fill := 0, seq := 0, session := 0, data := [] }

/-- The 16-byte page tag (R552). -/
def NandPage.tag (p : NandPage) : List Byte :=
  0x5A :: leBytes 1 (p.type % 16 + p.bench % 8 * 16) ++ leBytes 2 p.fill ++ leBytes 4 p.seq ++ leBytes 2 p.session ++
    List.replicate 6 0

/-- The spare area of a page of C codewords: tag, parity, 0xFF (R549, R550). -/
def NandPage.spare (p : NandPage) (c spareBytes : Nat) : List Byte :=
  let main := padTo (1024 * c) 0xFF p.data
  let cw (j : Nat) : List Byte := (main.drop (1024 * j)).take 1024 ++ (if j + 1 = c then p.tag else [])
  padTo spareBytes 0xFF (p.tag ++ (List.range c).flatMap fun j => padTo 126 0 ((Config.bchParity (cw j)).take 126))

/-- A free data hank that may be allocated: a good block, none of its blocks under test (R547, R567). -/
def State.hankFree (s : State) (x h : Nat) : Bool :=
  let l := s.lane x
  decide ((l.hank h).owner = .free) && !(l.goodBlocks h).isEmpty &&
    (l.blocksOf h).all fun b => !s.underTest (resBlock x b)

/-- The free data hanks of a lane. -/
def State.freeHanks (s : State) (x : Nat) : List Nat := (s.lane x).dataHanks.filter fun h => s.hankFree x h

/-- The lane is in service: READY (SL_Lx_STATUS.STATE). -/
def State.laneServes (s : State) (x : Nat) : Bool := decide ((s.lane x).state = .ready) && decide (x < s.member.lanes)

/-- The lanes named by SL_Sn_CFG.LANES that are in service (R564). -/
def State.lanesFor (s : State) (n : Nat) : List Nat :=
  (List.range 2).filter fun x => (fld (s.rd .slSCfg n) 1 0).testBit x && s.laneServes x

/-- The hanks bench `n` holds: SL_Sn_USED. -/
def State.hanksHeld (s : State) (n : Nat) : Nat :=
  (List.range 2).foldl (fun acc x =>
    acc + ((s.lane x).hanks.filter fun e => decide (e.2.owner = .bench n)).length) 0

/-! ### The bad-block table (R557 to R560) -/

/-- Program copy `k` of a record and read it back; a copy whose program fails stays as it was (R558). -/
def writeCopy {α : Type} (fails : Nat) (new : α) (c : Option α × Option α) (k : Nat) : Option α × Option α :=
  if fails.testBit k then c else if k = 0 then (some new, c.2) else (c.1, some new)

/-- Copy A is the one to be written first: it holds the lower GEN, or is not valid (R558). -/
def firstIsA {α : Type} (gen : α → Nat) : Option α × Option α → Bool
  | (none, _) => true
  | (some _, none) => false
  | (some a, some b) => decide (gen a ≤ gen b)

/-- Write both copies of a changed record, the one with the lower GEN first (R558). -/
def writeCopies {α : Type} (fails : Nat) (gen : α → Nat) (new : α) (c : Option α × Option α) : Option α × Option α :=
  let first := if firstIsA gen c then 0 else 1
  writeCopy fails new (writeCopy fails new c first) (1 - first)

/-- The valid copy with the higher GEN (R559). -/
def newestCopy {α : Type} (gen : α → Nat) : Option α × Option α → Option α
  | (some a, some b) => if gen a < gen b then some b else some a
  | (some a, none) => some a
  | (none, b) => b

/-- Programs of system records of lane `x` have failed: each is counted, and a block of its system hank is tested (R576). -/
def systemFailed (s : State) (x : Nat) : State :=
  let fails := (s.lane x).sysFail
  let s := s.setLane x { s.lane x with sysFail := 0 }
  s.each ((List.range 2).filter fun k => fails.testBit k) fun s k =>
    let s := s.bumpSat .slLFail x 0 15 0 1
    match ((s.lane x).goodBlocks (2 + k)).head? with
    | some b => raiseFault s (resBlock x b) 0x0501
    | none => s

/-- A change of a lane's table: GEN rises by 1, and both stored copies are written (R557, R558). -/
def changeTable (s : State) (x : Nat) (f : List (Nat × Nat) → List (Nat × Nat)) : State :=
  let l := s.lane x
  let t : TableCopy := ⟨(l.gen + 1) % 2 ^ 32, f l.bad⟩
  let c := writeCopies l.sysFail TableCopy.gen t (l.tableA, l.tableB)
  systemFailed (s.setLane x { l with bad := t.entries, gen := t.gen, tableA := c.1, tableB := c.2 }) x

/-- Enter a block in the table, in increasing BLOCK order (R557). -/
def enterBad (s : State) (x b origin : Nat) : State :=
  changeTable s x fun t => insertBy Prod.fst (b, origin) (t.filter fun e => e.1 != b)

/-- The lane's table overflows, or a system hank has no good block (R560). -/
def Lane.tableLost (l : Lane) : Bool :=
  decide (16380 < l.bad.length) || (l.goodBlocks 2).isEmpty || (l.goodBlocks 3).isEmpty

/-- A stored table of lane `x` (R557). -/
def tableBytes (t : TableCopy) (x : Nat) : List Byte :=
  let body := leBytes 4 0x54424244 ++ leBytes 4 t.gen ++ leBytes 2 t.entries.length ++ leBytes 1 x ++ List.replicate 5 0 ++
    t.entries.flatMap fun e => leBytes 4 (e.1 % 2 ^ 24 + e.2 % 4 * 2 ^ 28)
  body ++ leBytes 4 (crc32c body).toNat

/-- One entry of the table as SL_BBT_READ returns it. -/
def badWord (e : Nat × Nat) : Word := W (e.1 % 2 ^ 24 + e.2 % 4 * 2 ^ 28)

/-- The 80 bytes of a configuration record ("Bad-block tables", R348, R581). -/
def ConfRecord.bytes (r : ConfRecord) : List Byte :=
  let body := leBytes 4 0x47464344 ++ leBytes 4 r.gen ++ leBytes 4 (bN r.hash.isSome) ++ List.replicate 4 0 ++
    padTo 32 0 (r.hash.getD []) ++ ((List.range 8).flatMap fun n => leBytes 2 (r.sessions.get (fun _ => 0) n)) ++ List.replicate 12 0
  body ++ leBytes 4 (crc32c body).toNat

/-- The configuration record in force (R559, R581). -/
def Storage.record (t : Storage) : Option ConfRecord := newestCopy ConfRecord.gen (t.recordA, t.recordB)

/-- Write a changed configuration record, GEN one higher, into both copies on SLA, as R558 has it for a table; the Bool says that a copy
could be programmed (R348, R349, R581). -/
def writeRecord (s : State) (f : ConfRecord → ConfRecord) : Bool × State :=
  let old := s.storage.record.getD {}
  let new := { f old with gen := (old.gen + 1) % 2 ^ 32 }
  let fails := (s.lane 0).sysFail
  let c := writeCopies fails ConfRecord.gen new (s.storage.recordA, s.storage.recordB)
  let s := { s with storage := { s.storage with recordA := c.1, recordB := c.2 } }
  (!(fails.testBit 0 && fails.testBit 1), systemFailed s 0)

/-- Day of the calendar, in days since 2000-01-01. -/
def State.today (s : State) : Nat := s.cal.today

/-! ### Allocation (R564 to R568, R580, R588) -/

/-- The blocks of a hank that have passed their re-test rejoin at the hank's erase (R580). -/
def rejoinBlocks (s : State) (x h : Nat) : State :=
  s.each ((s.lane x).blocksOf h) fun s b =>
    if s.ref.rejoining.contains (resBlock x b) then
      bookReturn (changeTable s x fun t => t.filter fun e => e.1 != b) (resBlock x b)
    else s

/-- Erase a hank: its pages are gone and its count rises, held at 0xFFFF; its read counts start again (R568, R570). -/
def eraseHank (s : State) (x h : Nat) (owner : HankOwner) : State :=
  let s := rejoinBlocks s x h
  let l := s.lane x
  let k := l.hank h
  s.setLane x { l.setHank h { k with
        owner := owner, erases := satAdd 0xFFFF k.erases 1, pages := 0, closed := false, suspects := [], checkDay := s.today } with
      pages := l.pages.filter fun e => decide (e.1 / 4096 ≠ h),
      reads := l.reads.filter fun e => decide (l.hankOf e.1 ≠ h) }

/-- The free data hank with the lowest erase count, the lowest number on a tie (R568). -/
def State.bestHank (s : State) (x : Nat) : Option Nat :=
  (sortBy (fun h => ((s.lane x).hank h).erases) (s.freeHanks x)).head?

/-- Lanes whose re-test has passed rejoin at a hank allocation (R580). -/
def rejoinLanes (s : State) : State :=
  s.each (List.range 2) fun s x =>
    if s.ref.rejoining.contains (resLane x) then
      let s := (bookReturn s (resLane x)).setLane x { s.lane x with state := .ready }
      s.each (s.openBenches.filter fun n => (fld (s.rd .slSCfg n) 1 0).testBit x) fun s n => postEvent s n 0x8602 (x + 2 * 2)
    else s

/-- Draw a hank of lane `x` for an owner. -/
def drawHank (s : State) (x : Nat) (owner : HankOwner) : Option (Nat × State) :=
  match s.bestHank x with
  | none => none
  | some h => some (h, eraseHank s x h owner)

/-- The lanes of a bench in the order in which a new hank is sought: the other lane than the latest, and at first the one
with more free hanks (R564). -/
def State.laneOrder (s : State) (n : Nat) : List Nat :=
  let ls := s.lanesFor n
  match (s.cmp n).lastLane with
  | some x => ls.filter (fun y => y != x) ++ ls.filter (fun y => y == x)
  | none => if (s.freeHanks 0).length < (s.freeHanks 1).length then ls.reverse else ls

/-- The bench holds SL_Sn_CFG.QUOTA hanks (R565). -/
def State.atQuota (s : State) (n : Nat) : Bool :=
  let q := fld (s.rd .slSCfg n) 31 16
  decide (q ≠ 0) && decide (q ≤ s.hanksHeld n)

/-- A new hank for bench `n`; `none` when its storage is full (R565). -/
def newHank (s : State) (n : Nat) (minPage : Nat) : Option State :=
  let s := rejoinLanes s
  if s.atQuota n then none
  else
    let lanes := (s.laneOrder n).filter fun x => decide (minPage ≤ (s.lane x).pageBytes)
    lanes.findSome? fun x => (drawHank s x (.bench n)).map fun r =>
      r.2.setCmp n { r.2.cmp n with openHank := some (x, r.1), lastLane := some x }

/-! ### Which pages are kept (R567) -/

/-- The page SEQs of bench `n` in session `k` that hold data of a kept skein or of the stream in progress. -/
def State.liveSeqs (s : State) (n k : Nat) : List Nat :=
  let entries := s.storage.catalogue.filter fun e => decide (e.bench = n ∧ e.session = k)
  let c := s.cmp n
  let now := if (s.sess n).session = k then
      c.parts.map Prod.fst ++ (c.released.flatMap fun b => b.parts.map Prod.fst) ++ c.queued.map (fun q => q.2.2.1) ++
        (if c.slot.isSome then [c.pageSeq] else [])
    else []
  let tails := s.storage.tails.filter fun t => decide (t.bench = n ∧ t.session = k)
  (entries.flatMap fun e => e.parts.map Prod.fst) ++ (tails.flatMap fun t => t.parts.map Prod.fst) ++ now

/-- A page of lane `x` holds kept data. -/
def State.pageLive (s : State) (p : NandPage) : Bool :=
  if p.type = 4 then s.rpl.logs.any fun l => l.num == p.session
  else decide (p.type = 1) && (s.liveSeqs p.bench p.session).contains p.seq

/-- A hank still holds kept data, is open, or has a program issued. -/
def State.hankInUse (s : State) (x h : Nat) : Bool :=
  let l := s.lane x
  (l.pages.any fun e => decide (e.1 / 4096 = h) && s.pageLive e.2) || (l.issued.any fun i => decide (i.key / 4096 = h)) ||
    (s.benchList.any fun n => decide ((s.cmp n).openHank = some (x, h)) ||
      ((s.cmp n).queued.any fun q => decide (q.1 = x) && decide (q.2.1 / 4096 = h)))

/-- Free a hank; suspect blocks are tested before it is next allocated (R567, R576). -/
def freeHank (s : State) (x h : Nat) : State :=
  let l := s.lane x
  let k := l.hank h
  let s := s.setLane x { l.setHank h { k with owner := .free, suspects := [] } with
    pages := l.pages.filter fun e => decide (e.1 / 4096 ≠ h), relocate := l.relocate.filter fun y => y != h }
  s.each k.suspects fun s b => raiseFault s (resBlock x b.1) b.2

/-- Free every hank of a bench that holds no kept skein, abandoning a relocation of it (R567, R587). -/
def freeDeadHanks (s : State) (n : Nat) : State :=
  s.each (List.range 2) fun s x =>
    let owned := ((s.lane x).hanks.filter fun e => decide (e.2.owner = .bench n)).map Prod.fst
    s.each owned fun s h =>
      match (s.lane x).moving with
      | some (old, new) =>
        if h = new then s
        else if s.hankInUse x h then s
        else if h = old then freeHank (freeHank (s.setLane x { s.lane x with moving := none }) x new) x h
        else freeHank s x h
      | none => if s.hankInUse x h then s else freeHank s x h

/-! ### The catalogue -/

/-- The catalogue entries of a bench, oldest first. -/
def State.entriesOf (s : State) (n : Nat) : List CatEntry := s.storage.catalogue.filter fun e => e.bench == n

/-- The catalogue entry of a streamed skein. -/
def State.entry? (s : State) (n session skein : Nat) : Option CatEntry :=
  s.storage.catalogue.find? fun e => decide (e.bench = n ∧ e.session = session ∧ e.skein = skein)

/-- HEAD_SHARED of a stored skein's header (R470). -/
def CatEntry.headShared (e : CatEntry) : Bool := (e.header.getD 2 0).toNat.testBit 2

/-- A skein of bench `n` and a session is kept whose shared head is the tail of the one before it: in the catalogue or in the bobbin. -/
def State.keepsHead (s : State) (n session num : Nat) : Bool :=
  (s.storage.catalogue.any fun e => decide (e.bench = n ∧ e.session = session ∧ e.skein = num) && e.headShared) ||
    (decide ((s.sess n).session = session) &&
      (((s.cap n).all ++ (s.cap n).next.toList).any fun k => decide (k.num = num) && k.headShared))

/-- Delete a catalogue entry and free what it alone kept; a tail that a kept skein shares stays until that skein goes (R494, R567). -/
def dropEntry (s : State) (e : CatEntry) : State :=
  let s := { s with storage := { s.storage with catalogue := s.storage.catalogue.filter fun x => decide (x ≠ e) } }
  let mine : KeptTail := ⟨e.bench, e.session, (e.skein + 1) % 2 ^ 32, e.tail⟩
  let tails := (if e.tail = [] then [] else [mine]) ++ s.storage.tails
  freeDeadHanks { s with storage := { s.storage with
    tails := tails.filter fun t => s.keepsHead t.bench t.session t.keeper } } e.bench

/-- Bytes that the stored skeins of bench `n` occupy, tails kept for another skein included (R494). -/
def State.storedBytes (s : State) (n : Nat) : Nat :=
  (((s.storage.catalogue.filter fun e => e.bench == n).map CatEntry.bytes) ++
    ((s.storage.tails.filter fun t => t.bench == n).flatMap fun t => t.parts.map fun p => p.2.2)).foldl (· + ·) 0

/-- The page of bench `n` with a SEQ of a session: its lane and key. -/
def State.findPage (s : State) (n session seq : Nat) : Option (Nat × Nat × NandPage) :=
  (List.range 2).findSome? fun x =>
    let l := s.lane x
    let new := l.moving.map Prod.snd
    ((l.pages.find? fun e =>
        decide (e.2.type = 1 ∧ e.2.bench = n ∧ e.2.session = session ∧ e.2.seq = seq) && decide (some (e.1 / 4096) ≠ new))).map
      fun e => (x, e.1, e.2)

/-! ### Relocation begins (R569 to R574, R586) -/

/-- Some of the parts of a stream lie in hank `h` of lane `x`. -/
def State.partsIn (s : State) (x h n session : Nat) (parts : List (Nat × Nat × Nat)) : Bool :=
  parts.any fun p => match s.findPage n session p.1 with
    | some (y, key, _) => decide (y = x) && decide (key / 4096 = h)
    | none => false

/-- An SL_READ or a verify job reads a skein with data in hank `h` of lane `x` (R586). -/
def State.hankBeingRead (s : State) (x h : Nat) : Bool :=
  (s.storage.reads.any fun r => s.partsIn x h r.bench r.session r.left) ||
    s.umpire.jobs.any fun j => match j.kind with
      | .verify session skein _ =>
        match s.entry? j.bench session skein with
        | some e => s.partsIn x h j.bench session e.parts
        | none => false
      | _ => false

/-- Start the next relocation of a lane (R573, R574, R586). -/
def startMove (s : State) (x : Nat) : State :=
  let l := s.lane x
  if l.moving.isSome ∨ s.storage.suspended ∨ !s.laneServes x then s
  else match l.relocate.find? fun h => !s.hankBeingRead x h with
    | none => s
    | some old =>
      match drawHank s x (l.hank old).owner with
      | none => s
      | some (new, s) => s.setLane x { s.lane x with moving := some (old, new), relocate := l.relocate.filter fun h => h != old }

/-- Queue a hank for relocation (R569 to R572, R576). -/
def queueMove (s : State) (x h : Nat) : State :=
  let l := s.lane x
  if (l.hank h).owner = .free ∨ l.relocate.contains h ∨ (l.moving.map Prod.fst) = some h then startMove s x
  else startMove (s.setLane x { l with relocate := l.relocate ++ [h] }) x

/-! ### Lost pages (R582) -/

/-- Mark the skeins with data in a lost page DAMAGED; SL_UNCORR is posted once for each (R582). -/
def damageEntries (s : State) (x : Nat) (p : NandPage) : State :=
  let hit (e : CatEntry) : Bool :=
    decide (e.bench = p.bench ∧ e.session = p.session) && e.parts.any (fun q => q.1 == p.seq) && !e.damaged
  let hits := s.storage.catalogue.filter hit
  let s := { s with storage := { s.storage with
    catalogue := s.storage.catalogue.map fun (e : CatEntry) => if hit e then { e with damaged := true } else e } }
  s.each (hits.filter fun e => s.openBenches.contains e.bench) fun s e =>
    postEvent s e.bench 0x8601 (e.skein % 2 ^ 16 + x * 2 ^ 16)

/-! ### Reading pages (R553, R554, R570, R571, R576, R582) -/

/-- At most 8 zero bits: the codeword counts as erased (R553). -/
def erased (w : Codeword) : Bool := decide (w.zeros ≤ 8)

/-- The bits corrected in a codeword; an erased one counts none (R553). -/
def corrected (w : Codeword) : Nat := if erased w then 0 else w.errors

/-- The corrected-bit count of a page: the largest among its codewords (R554). -/
def pageCount (ws : List Codeword) : Nat := ws.foldl (fun m w => max m (corrected w)) 0

/-- A page is uncorrectable when any of its codewords has more than 72 bit errors (R549, R554). -/
def pageBad (ws : List Codeword) : Bool := ws.any fun w => decide (72 < corrected w)

/-- The corrected bits that SL_Lx_CORR counts for a page. -/
def pageCorrected (ws : List Codeword) : Nat := ws.foldl (fun k w => k + corrected w) 0

/-- The main area as read: an erased codeword is all 0xFF (R553). -/
def NandPage.asRead (p : NandPage) : List Byte :=
  if p.words = [] then p.data
  else p.data.mapIdx fun i b => match p.words[i / 1024]? with
    | some w => if erased w then 0xFF else b
    | none => b

/-- The bytes of a page as a read brings them; those of a lost page are free values (R553, R554, R590). -/
def pageAsRead (s : State) (p : NandPage) : List Byte × State :=
  if p.lost then
    (List.range p.data.length).foldl (fun acc _ => let d := acc.2.draw 8; (acc.1 ++ [BitVec.ofNat 8 d.1], d.2)) ([], s)
  else (p.asRead, s)

/-- Count a page read of its block (R570). -/
def countRead (s : State) (x key : Nat) : State :=
  let l := s.lane x
  let b := l.blockOfPage (key / 4096) (key % 4096)
  s.setLane x { l with reads := l.reads.put (fun _ => 0) b (l.reads.get (fun _ => 0) b + 1) }

/-- A page is still uncorrectable after two more reads: it is lost, its block is suspect, and the skeins with data in it are DAMAGED
(R576, R582). -/
def losePage (s : State) (x key : Nat) : State :=
  let l := s.lane x
  let p := l.pages.get blankPage key
  let h := key / 4096
  let l := { l with pages := l.pages.put blankPage key { p with lost := true } }
  let k := { l.hank h with suspects := (l.hank h).suspects ++ [(l.blockOfPage h (key % 4096), 0x0503)] }
  let s := (s.setLane x (l.setHank h k)).bumpSat .slLUncorr x 0 15 0 1
  if p.type = 1 then damageEntries s x p else s

/-- A read of a page other than a scrub read: it is counted; an uncorrectable page is lost, and a page with many corrected bits has its
hank queued for relocation (R554, R570, R571, R576). -/
def readPage (s : State) (x key : Nat) : State :=
  let s := countRead s x key
  let p := (s.lane x).pages.get blankPage key
  if p.lost then s
  else if pageBad p.words then losePage s x key
  else
    let s := s.bumpWrap .slLCorr x 0 31 0 (pageCorrected p.words)
    if fld (s.rd .slScrubCfg) 6 0 ≤ pageCount p.words then queueMove s x (key / 4096) else s

/-- Read parts of a stream: the bytes, whether every page was corrected, whether every page's lane serves, and the state after the
reads (R571, R579, R590, R621). -/
def readParts (s : State) (n session : Nat) : List (Nat × Nat × Nat) → List Byte × Bool × Bool × State
  | [] => ([], true, true, s)
  | (seq, off, len) :: rest =>
    match s.findPage n session seq with
    | none =>
      let r := readParts s n session rest
      (r.1, false, r.2.1 && r.2.2.1, r.2.2.2)
    | some (x, key, _) =>
      let s := readPage s x key
      let p := (s.lane x).pages.get blankPage key
      let b := pageAsRead s p
      let s := moveNandRead b.2 n (s.lane x).pageBytes
      let r := readParts s n session rest
      (((b.1.drop off).take len) ++ r.1, r.2.1 && !p.lost, r.2.2.1 && s.laneServes x, r.2.2.2)

/-! ### Ring and full storage (R565, R566) -/

/-- With RING set, delete the bench's oldest streamed skein (R566). -/
def ringDrop (s : State) (n : Nat) : Option State :=
  if bitB (s.rd .slSCfg n) 8 then
    match s.entriesOf n with
    | [] => none
    | e :: _ => some (postEvent (dropEntry s e) n 0x8603 (e.skein % 2 ^ 16))
  else none

/-- A new hank, streamed skeins dropped as RING allows until one is free; `fuel` bounds the drops. -/
def hankOrDrop (s : State) (n minPage : Nat) : Nat → Option State
  | 0 => newHank s n minPage
  | fuel + 1 =>
    match newHank s n minPage with
    | some t => some t
    | none =>
      match ringDrop s n with
      | some t => hankOrDrop t n minPage fuel
      | none => none

/-- Close the open hank of bench `n` and free what holds no kept skein (R567, R583). -/
def closeHank (s : State) (n : Nat) : State :=
  let s := match (s.cmp n).openHank with
    | none => s
    | some (x, h) => s.setLane x ((s.lane x).setHank h { (s.lane x).hank h with closed := true })
  freeDeadHanks (s.setCmp n { s.cmp n with openHank := none }) n

/-- A place for the next page of bench `n`: the next page of its open hank, where that lies on a lane of LANES in service, or the
first of a new one (R564). -/
def takeSlot (s : State) (n minPage : Nat) : Option (Nat × Nat × State) :=
  let room (s : State) : Option (Nat × Nat × State) :=
    match (s.cmp n).openHank with
    | none => none
    | some (x, h) =>
      let l := s.lane x
      let k := l.hank h
      if k.pages < l.capacity h ∧ !k.closed ∧ (s.lanesFor n).contains x ∧ minPage ≤ l.pageBytes then
        some (x, h * 4096 + k.pages, s.setLane x (l.setHank h { k with pages := k.pages + 1 }))
      else none
  match room s with
  | some r => some r
  | none => (hankOrDrop (if (s.cmp n).openHank.isSome then closeHank s n else s) n minPage (s.entriesOf n).length).bind room

/-! ### Programs (R561 to R563) -/

/-- The plane of the block that holds the page of a key ("Lanes, chip enables and hanks"). -/
def Lane.planeOf (l : Lane) (key : Nat) : Nat := l.blockOfPage (key / 4096) (key % 4096) % max 1 l.geom.planes

/-- The page number, in its block, of the page of a key (R547). -/
def Lane.rowOf (l : Lane) (key : Nat) : Nat := key % 4096 / max 1 (l.goodBlocks (key / 4096)).length

/-- The program operation issued last: a page, or the pages of one multi-plane program. -/
def Lane.lastOp (l : Lane) : List Issued :=
  let r := l.issued.reverse
  r.takeWhile Issued.joined ++ (r.dropWhile Issued.joined).take 1

/-- The page of a key may be part of the multi-plane program issued last: the same page number of a block of the same hank in another
plane (R547). -/
def Lane.mayJoin (l : Lane) (key : Nat) : Bool :=
  !l.lastOp.isEmpty && l.lastOp.all fun i =>
    decide (i.key / 4096 = key / 4096 ∧ l.rowOf i.key = l.rowOf key ∧ l.planeOf i.key ≠ l.planeOf key)

/-- Issue the queued pages of bench `n` that the regulator lets start, pages of distinct planes in one multi-plane program (R547, R616,
R617); `again` says that the page issued last was issued by the same call. -/
def pumpFrom (s : State) (n : Nat) (again : Bool) : Nat → State
  | 0 => s
  | fuel + 1 =>
    match (s.cmp n).queued with
    | [] => s
    | (x, key, seq, bytes) :: rest =>
      if s.mayStart n 1 then
        let page : NandPage :=
          { type := 1, bench := n, fill := bytes.length, seq := seq, session := (s.sess n).session, data := bytes }
        let l := s.lane x
        let s := (s.setCmp n { s.cmp n with queued := rest }).setLane x
          { l with issued := l.issued ++ [⟨key, page, again && l.mayJoin key⟩] }
        pumpFrom (moveNandWrite s n l.pageBytes) n true fuel
      else s

/-- Issue the queued pages of bench `n` that the regulator lets start. -/
def pumpPages (s : State) (n k : Nat) : State := pumpFrom s n false k

/-- Close the page buffer: its page waits for its program (R561). -/
def queuePage (s : State) (n : Nat) : State :=
  let c := s.cmp n
  match c.slot with
  | none => s
  | some (x, key) =>
    s.setCmp n { c with
      page := [], slot := none, pageSeq := (c.pageSeq + 1) % 2 ^ 32, queued := c.queued ++ [(x, key, c.pageSeq, c.page)] }

/-- Close the page buffer and issue what may start. -/
def closePage (s : State) (n : Nat) : State :=
  let s := queuePage s n
  pumpPages s n (s.cmp n).queued.length

/-- Hand bytes to the lane writer: the parts they occupy, or `none` when storage is full; `fuel` bounds the pages. -/
def handBytes (s : State) (n : Nat) (bs : List Byte) : Nat → Option (List (Nat × Nat × Nat) × State)
  | 0 => some ([], s)
  | fuel + 1 =>
    if bs = [] then some ([], s)
    else
      let withSlot : Option State :=
        if (s.cmp n).slot.isSome then some s
        else (takeSlot s n 0).map fun r => r.2.2.setCmp n { r.2.2.cmp n with slot := some (r.1, r.2.1) }
      match withSlot with
      | none => none
      | some s =>
        let c := s.cmp n
        let size := match c.slot with
          | some (x, _) => (s.lane x).pageBytes
          | none => 0
        let take := bs.take (size - c.page.length)
        let part := (c.pageSeq, c.page.length, take.length)
        let s := s.setCmp n { c with page := c.page ++ take }
        let s := if size ≤ (s.cmp n).page.length then queuePage s n else s
        (handBytes s n (bs.drop take.length) fuel).map fun r => (part :: r.1, r.2)

/-! ### Relocation ends (R573, R574) -/

/-- Complete the relocation under way: the pages, read and corrected, lie in the new hank, the old one is free (R571, R573). -/
def finishMove (s : State) (x : Nat) : State :=
  match (s.lane x).moving with
  | none => s
  | some (old, new) =>
    let l := s.lane x
    let s := s.each (l.pages.filter fun e => decide (e.1 / 4096 = old) && s.pageLive e.2) fun s e => readPage s x e.1
    let l := s.lane x
    let kept := l.pages.filter fun e => decide (e.1 / 4096 = old) && s.pageLive e.2
    let moved := kept.mapIdx fun i e =>
      (new * 4096 + i, { e.2 with data := e.2.asRead, words := if e.2.lost then e.2.words else [] })
    let l := { l with moving := none }
    let l := l.setHank new { l.hank new with owner := (l.hank old).owner, pages := moved.length, closed := true }
    let l := { l with pages := moved.foldl (fun m e => m.put blankPage e.1 e.2) l.pages }
    let s := freeHank (s.setLane x l) x old
    startMove (s.bumpWrap .slScrubCnt 0 0 31 0 1) x

/-- SL_SCRUB_STATUS (R574, R585). -/
def State.scrubStatus (s : State) : Word :=
  let aged (x : Nat) : Nat :=
    if s.storage.scrubDue.testBit x then
      ((s.lane x).hanks.filter fun e => decide (e.2.owner ≠ .free)).length else 0
  let paused := s.benchList.any fun n =>
    decide ((s.cmp n).state = .running) && decide (2 * s.bobbinFree n < s.bobbinBytes n)
  let st := if s.storage.scrubDue = 0 then 0 else if s.storage.suspended then 3 else if paused then 2 else 1
  pack [(st, 0), (aged 0 + aged 1, 8)]

/-! ### Registers -/

/-- The code of a lane state (SL_Lx_STATUS.STATE). -/
def LaneState.code : LaneState → Nat
  | .absent => 0 | .initialising => 1 | .ready => 2 | .retired => 3 | .probation => 4 | .unfit => 5

/-- SL_Lx_STATUS. -/
def Lane.status (l : Lane) : Word :=
  pack [(l.state.code, 0), (bN (!l.issued.isEmpty || l.moving.isSome), 3), (l.mode, 4), (bN l.nvddr2, 7), (l.ceUsed.toNat, 8)]

/-- SL_Lx_GEOM; 0 for a lane with no parameter page. -/
def Lane.geomWord (l : Lane) : Word :=
  if l.geom.pageKib = 0 then 0
  else pack [(if l.geom.pageKib = 4 then 0 else if l.geom.pageKib = 8 then 1 else 2, 0),
    (Nat.log2 l.geom.pagesPerBlock, 2), (Nat.log2 l.geom.planes, 6), (l.geom.luns - 1, 8)]

/-- SL_Lx_WEAR. -/
def Lane.wear (l : Lane) : Word :=
  let counts := l.dataHanks.map fun h => (l.hank h).erases
  match counts with
  | [] => 0
  | c :: t => pack [(t.foldl min c, 0), (t.foldl max c, 16)]

/-- SL_Lx_BAD. -/
def Lane.badReg (l : Lane) : Word := pack [(l.bad.length % 2 ^ 16, 0), (l.gen % 2 ^ 16, 16)]

end Sys2Proof.Machine
end

