-- ==== Sys2Proof/Machine/Streams.lean ====
section
/-! DEFINITION. Streams from a bobbin through a compression engine to a lane, exports, and the DATA that jobs send (R495 to
R540, R561 to R563, R730 to R732). -/

namespace Sys2Proof.Machine

/-! ### DATA containers (R730, R732, R741) -/

/-- Cut bytes into payloads of at most 16,384 bytes (R730); `fuel` bounds their number. -/
def cutPayloads : Nat → List Byte → List (List Byte)
  | 0, _ => []
  | fuel + 1, bs => if bs = [] then [] else bs.take 16384 :: cutPayloads fuel (bs.drop 16384)

/-- Free export staging of bench `n` (R522, R523). -/
def freeStaging (s : State) (n bytes : Nat) : State := s.setCap n { s.cap n with staging := (s.cap n).staging - bytes }

/-- Bytes that bench `n` sends for the command of tag `tag` on its bulk IN endpoint; with `done`, the last container carries
LAST and the completion follows it (R730, R732).  With the link gone the DATA is discarded and the command completes
PARTIAL (R741).  A replayed bench's containers go to the comparator (R827, R830).  `read` names the skein that the host has
then read. -/
def sendData (s : State) (n : Nat) (tag : BitVec 8) (bytes : List Byte) (done : Option (BitVec 16 × BitVec 8 × Nat))
    (staging : Nat) (read : Option Nat := none) : State :=
  let cuts := cutPayloads (bytes.length / 16384 + 1) bytes
  let st : Stream := .bench (Fin.ofNat 8 n)
  let gone (s : State) : State :=
    match done with
    | none => s
    | some (op, _, _) =>
      let sent := ((s.stream st).outstanding.find? fun a => decide (a.op = op ∧ a.tag = tag)).map Accepted.sent
      completeCode (freeStaging s n staging) st op tag Status.partial_.code (sent.getD 0)
  let finish (s : State) : State :=
    match done with
    | none => s
    | some (op, code, arg) => completeCode (freeStaging s n staging) st op tag code arg
  let checked := cuts.foldl (fun acc b => let r := outputItem acc.2 n (0x50 + n) b false; (acc.1 || r.1, r.2)) (false, s)
  let s := checked.2
  if checked.1 ∨ cuts = [] then finish s
  else if s.usb.link = .detached then gone s
  else
    let k := cuts.length
    let items := cuts.mapIdx fun i b =>
      let isLast := decide (i + 1 = k) && done.isSome
      ({ tag := tag, bytes := b, last := isLast, done := if isLast then done else none, staging := if isLast then staging else 0,
         read := if isLast then read else none } : DataItem)
    let e := s.endpoint (n + 1)
    s.setEndpoint (n + 1) { e with data := e.data ++ items }

/-! ### The stream of a bench -/

/-- The stream job of bench `n`. -/
def State.streamJob (s : State) (n : Nat) : Option Job :=
  s.umpire.jobs.find? fun j => decide (j.kind = .stream) && decide (j.bench = n)

/-- The streamed skeins that the bobbin holds, oldest first. -/
def State.streamedSkeins (s : State) (n : Nat) : List Skein := (s.cap n).all.filter fun k => k.streamed

/-- The code of a stop cause (CMP_Sn_STATUS.CAUSE). -/
def stopCode : StopCause → Nat
  | .storageFull => 1 | .laneRetired => 2 | .noEngine => 3

/-- Discard everything of bench `n` that is not durable; the open hank continues after its last page issued (R517, R533). -/
def discardUndurable (s : State) (n : Nat) : State :=
  let c := s.cmp n
  let s := s.setCmp n { c with
    pos := c.dur, cuts := [], released := [], page := [], slot := none,
    pageSeq := if c.slot.isSome then (c.pageSeq + 1) % 2 ^ 32 else c.pageSeq, queued := [] }
  match c.openHank with
  | none => s
  | some (x, h) =>
    let l := s.lane x
    let used := ((l.pages.map Prod.fst ++ l.issued.map Issued.key).filter fun k => decide (k / 4096 = h)).foldl
      (fun m k => max m (k % 4096 + 1)) 0
    s.setLane x (l.setHank h { l.hank h with pages := used })

/-- Remove the stream job of bench `n`. -/
def dropStreamJob (s : State) (n : Nat) : State :=
  match s.streamJob n with
  | none => s
  | some j => dropJob s j.id

/-- Full storage ends a segmented capture: the skein in progress ends FULL, but for one re-armed and before its trigger, which is
discarded and leaves its shared head to the skein before (R462, R468). -/
def endOnFullStorage (s : State) (n : Nat) : State :=
  if s.capturing n && bitB (s.eff .sknCfg n) 0 then
    let t := s.power.baseTick
    let s := runDue s n t
    let c := s.cap n
    match c.cur with
    | none => s
    | some k =>
      if k.headShared && k.trig.isNone && c.next.isNone then endCapture (s.setCap n { c with cur := none }) n 3
      else
        let k := if c.next.isSome then { k with tailShared := false } else k
        endCapture (endSkein (s.setCap n { c with next := none, cur := some k }) n t .full) n 3
  else s

/-- Stop the stream of bench `n` (R517); full storage also ends a segmented capture (R462). -/
def stopStream (s : State) (n : Nat) (cause : StopCause) : State :=
  if (s.cmp n).state = .running then
    let s := dropStreamJob (discardUndurable s n) n
    let s := postEvent (s.setCmp n { s.cmp n with state := .stopped, cause := some cause }) n 0x8501 (stopCode cause)
    if cause = .storageFull then endOnFullStorage s n else s
  else s

/-- The cause of a stop has gone (R519). -/
def State.causeGone (s : State) (n : Nat) : StopCause → Bool
  | .storageFull =>
    match (s.cmp n).openHank with
    | some (x, h) => decide (((s.lane x).hank h).pages < (s.lane x).capacity h) && (s.lanesFor n).contains x ||
        (!s.atQuota n && (s.lanesFor n).any fun x => !(s.freeHanks x).isEmpty)
    | none => !s.atQuota n && (s.lanesFor n).any fun x => !(s.freeHanks x).isEmpty
  | .laneRetired => !(s.lanesFor n).isEmpty ||
      (List.range 2).any fun x => (fld (s.rd .slSCfg n) 1 0).testBit x && s.ref.rejoining.contains (resLane x)
  | .noEngine => !(s.enginesOf (s.plyOf n) 0).isEmpty

/-- At the start of a skein the stream goes on with the first streamed skein that is not yet passed; those that are not streamed
are left out (R496). -/
def seekSkein (s : State) (n : Nat) : State :=
  let c := s.cmp n
  if c.state = .running ∧ c.pos.inOff = 0 then
    match (s.streamedSkeins n).find? fun k => decide ((k.num + 2 ^ 32 - c.pos.skein) % 2 ^ 32 < 2 ^ 31) with
    | some k => if k.num = c.pos.skein then s else s.setCmp n { c with pos := { skein := k.num } }
    | none => s
  else s

/-- Resume the stream of bench `n` after its last durable block (R519). -/
def resumeStream (s : State) (n : Nat) : State :=
  let c := s.cmp n
  match c.state, c.cause with
  | .stopped, some cause =>
    if s.causeGone n cause then
      let s := seekSkein (s.setCmp n { c with state := .running, cause := none, resumed := true }) n
      postEvent (addJob s n (.bench (Fin.ofNat 8 n)) 0 .stream []) n 0x8502 (min c.dur.index 0xFFFFF)
    else s
  | _, _ => s

/-- A stream begins with the oldest streamed skein the bobbin holds, after the blocks of it that are durable already, and is
stopped at once where its ply has no compression engine in service; none begins while the bench is RESETTING (R496, R517, R533). -/
def kickStream (s : State) (n : Nat) : State :=
  match (s.cmp n).state, s.streamedSkeins n with
  | .idle, k :: _ =>
    if s.bstate n = .resetting then s else
    let c := s.cmp n
    let goesOn := decide (c.dur.skein = k.num) && decide (0 < c.dur.inOff)
    let p : StreamPos := if goesOn then c.dur else { skein := k.num }
    let s := s.setCmp n { c with
      state := .running, cause := none, pos := p, dur := p, resumed := goesOn, cuts := [],
      parts := if goesOn then c.parts else [], bytes := if goesOn then c.bytes else 0, tail := if goesOn then c.tail else [] }
    let s := addJob s n (.bench (Fin.ofNat 8 n)) 0 .stream []
    if (s.enginesOf (s.plyOf n) 0).isEmpty then stopStream s n .noEngine else s
  | _, _ => s

/-! ### Durability (R516, R518, R562) -/

/-- Count `k` more record bytes of a streamed skein as gone from the bobbin (R515). -/
def releaseRecords (s : State) (n skein k : Nat) : State :=
  let c := s.cap n
  let f (x : Skein) : Skein := if x.num = skein ∧ x.streamed then { x with released := x.released + k } else x
  s.setCap n { c with cur := c.cur.map f, kept := c.kept.map f }

/-- The block holds bytes of its skein's shared tail (R464). -/
def State.holdsTail (s : State) (n : Nat) (b : Block) : Bool :=
  match s.skeinOf n b.skein with
  | some (k, _) => k.tailShared && decide (k.recordBytes.length < b.inOff + b.inLen + k.tailBytes.length)
  | none => false

/-- A block has become durable: the counts rise and its input leaves the bobbin (R515, R518). -/
def blockDurable (s : State) (n : Nat) (b : Block) : State :=
  let c := s.cmp n
  let s := s.setCmp n { c with
    dur := ⟨b.skein, b.inOff + b.inLen, b.index + 1⟩, parts := c.parts ++ b.parts, bytes := c.bytes + b.bytes,
    tail := c.tail ++ (if s.holdsTail n b then b.parts else []) }
  let s := (s.addAcc .cmpSInLo .cmpSInHi n b.inLen).addAcc .cmpSOutLo .cmpSOutHi n b.bytes
  releaseRecords (s.bumpWrap .cmpSBlk n 0 31 0 1) n b.skein b.inLen

/-- A page among the parts of a stream of bench `n` has been lost (R582). -/
def State.partsLost (s : State) (n : Nat) (parts : List (Nat × Nat × Nat)) : Bool :=
  parts.any fun p => match s.findPage n (s.sess n).session p.1 with
    | some (_, _, pg) => pg.lost
    | none => false

/-- The header of a skein has become durable: the skein enters the catalogue and leaves the bobbin; with a page already lost it is DAMAGED
(R562, R581, R582). -/
def headerDurable (s : State) (n : Nat) (b : Block) : State :=
  let c := s.cmp n
  let parts : List Byte × List DWord := match s.skeinOf n b.skein with
    | some (k, _) => (k.header n, k.descriptor n)
    | none => ([], [])
  let parts0 := c.parts ++ b.parts
  let entry : CatEntry :=
    { bench := n, session := (s.sess n).session, skein := b.skein, parts := c.parts ++ b.parts, bytes := c.bytes + b.bytes,
      damaged := s.partsLost n parts0, header := parts.1, desc := parts.2, tail := c.tail }
  let s := { s with storage := { s.storage with catalogue := s.storage.catalogue ++ [entry] } }
  let s := s.setCmp n { c with dur := { skein := (b.skein + 1) % 2 ^ 32 }, parts := [], bytes := 0, tail := [] }
  let s := s.setCap n { s.cap n with kept := (s.cap n).kept.filter fun k => decide (k.num ≠ b.skein) || !k.streamed }
  if (s.streamedSkeins n).isEmpty then (dropStreamJob s n).setCmp n { s.cmp n with state := .idle } else s

/-- Take every block that has become durable off the list of those released (R516); `fuel` bounds their number. -/
def settleDurable (s : State) (n : Nat) : Nat → State
  | 0 => s
  | fuel + 1 =>
    match (s.cmp n).released with
    | [] => s
    | b :: rest =>
      if b.wait = [] then
        let s := s.setCmp n { s.cmp n with released := rest }
        settleDurable (if b.isHeader then headerDurable s n b else blockDurable s n b) n fuel
      else s

/-- A page of bench `n` is reported programmed (R516, R563). -/
def pageDurable (s : State) (n seq : Nat) : State :=
  let c := s.cmp n
  let s := s.setCmp n { c with released := c.released.map fun b => { b with wait := b.wait.filter fun q => q != seq } }
  settleDurable s n (s.cmp n).released.length

/-- Hand a block or a header to the lane writer; a bench whose storage is full stops (R517, R561, R565).  A replayed bench
writes nothing to NAND: its block counts as durable (R827). -/
def release (s : State) (n : Nat) (b : Block) (bytes : List Byte) : State :=
  if s.replaysBench n then
    let s := s.setCmp n { s.cmp n with released := (s.cmp n).released ++ [b] }
    settleDurable s n (s.cmp n).released.length
  else
    match handBytes s n bytes (bytes.length / 4096 + 2) with
    | none => stopStream s n .storageFull
    | some (parts, s) =>
      let b := { b with parts := parts, wait := parts.map Prod.fst }
      let s := s.setCmp n { s.cmp n with released := (s.cmp n).released ++ [b] }
      pumpPages s n (s.cmp n).queued.length

/-! ### Blocks -/

/-- The header of a skein follows its LAST block; the page then ends (R561, R562). -/
def releaseHeader (s : State) (n : Nat) (k : Skein) : State :=
  let b : Block := { skein := k.num, index := 0, inOff := 0, inLen := 0, last := false, isHeader := true, bytes := 64, parts := [], wait := [] }
  let s := release s n b (k.header n)
  if (s.cmp n).state = .running then
    let s := closePage s n
    let s := s.setCmp n { s.cmp n with pos := { skein := (k.num + 1) % 2 ^ 32 } }
    s
  else s

/-- Charge an engine's step that encodes `len` bytes of bench `n` (R526, R621). -/
def chargeEncode (s : State) (n e len : Nat) : State := moveSram (chargeEngine s n e (len / 4) false) n len

/-- An engine's checker finds a mismatch: the block is discarded, CMP_SELFCHECK is raised, and the job waits for the verdict
(R512). -/
def failSelfcheck (s : State) (e : Nat) (j : Job) : State :=
  let s := (s.setJob { j with await := some (resEngine e) }).bumpSat .cmpEngChk e 0 15 0 1
  let s := { s with ref := { s.ref with selfchecks := s.ref.selfchecks ++ [(resEngine e, j.bench)] } }
  raiseFault s (resEngine e) 0x0401

/-- The stream block in progress ends on engine `e` (R497 to R502, R511, R512). -/
def endStreamBlock (s : State) (e : Nat) (j : Job) (ok : Bool) : State :=
  let n := j.bench
  let c := s.cmp n
  match s.blockEnd n, s.skeinOf n c.pos.skein with
  | some fin, some (k, ended) =>
    let len := fin - c.pos.inOff
    let s := chargeEncode s n e len
    if ok then
      let all := s.streamAvail n
      let input := (all.1.drop c.pos.inOff).take len
      let last := ended && decide (fin = all.1.length)
      let flushed := decide (c.cuts.head? = some fin) && decide (len < 65536)
      let S := strideOf k.cmpCfg k.transition k.storedPods.length
      let h : BlockHead := {
        method := 0, pmode := false, last := last, flushed := flushed, resumed := c.resumed, stride := S, kinit := 0,
        bench := n, inLen := len, inOff := c.pos.inOff, skein := k.num, index := c.pos.index }
      let bytes := encodeBlock k.cmpCfg S h input
      let b : Block := {
        skein := k.num, index := c.pos.index, inOff := c.pos.inOff, inLen := len, last := last, isHeader := false,
        bytes := bytes.length, parts := [], wait := [] }
      let s := (outputItem s n (0x40 + n) bytes false).2
      let s := (s.bumpWrap .cmpEngBlk e 0 31 0 1).setCmp n { s.cmp n with
        pos := ⟨k.num, fin, c.pos.index + 1⟩, resumed := false, engine := e, cuts := c.cuts.filter fun x => decide (fin < x) }
      let s := release s n b bytes
      if (s.cmp n).state ≠ .running then s
      else if last then releaseHeader s n k
      else if flushed then closePage s n else s
    else failSelfcheck s e j
  | _, _ => s

/-- A skein of which every record byte is in blocks has ended: its header follows with no LAST block, and so does that of a
skein with no record of its own. -/
def finishEmptyTail (s : State) (n : Nat) : State :=
  let c := s.cmp n
  match s.skeinOf n c.pos.skein with
  | some (k, true) =>
    if c.state = .running ∧ k.streamed ∧ c.pos.inOff = k.recordBytes.length ∧
        !c.released.any (fun b => b.isHeader && b.skein == k.num) then releaseHeader s n k else s
  | _ => s

/-- Pass the headers of the skeins that leave no byte for a block, one after another; `fuel` bounds their number. -/
def finishTails (s : State) (n : Nat) : Nat → State
  | 0 => s
  | fuel + 1 =>
    let t := finishEmptyTail (seekSkein s n) n
    if (t.cmp n).pos.skein = (s.cmp n).pos.skein then t else finishTails t n fuel

/-- The bytes of the streamed skein's records that an engine has taken: all there are while one runs the job, those it had taken at its
preemption while the job waits with a saved context (R520). -/
def State.streamTaken (s : State) (n : Nat) : Nat :=
  match s.streamJob n with
  | some j =>
    if j.state ≠ .ready then (s.streamAvail n).1.length
    else if j.saved.isSome then min j.taken (s.streamAvail n).1.length else 0
  | none => 0

/-- A flush of bench `n`: the block in progress ends at the last byte the engine has taken; the answer is its IN_LEN, or 0
where no engine has taken input (R520, R530, R535). -/
def flushStream (s : State) (n : Nat) : Nat × State :=
  let c := s.cmp n
  let from_ := c.cuts.getLast?.getD c.pos.inOff
  let taken := s.streamTaken n
  if c.state = .running ∧ from_ < taken then
    let len := min (taken - from_) 65536
    (len, if len < 65536 then s.setCmp n { c with cuts := c.cuts ++ [from_ + len] } else s)
  else (0, s)

/-- The capture or the stream of bench `n` has moved on: its stream begins, or ends skeins that left no bytes. -/
def followCapture (s : State) (n : Nat) : State :=
  let s := kickStream (finishTails s n ((s.cap n).kept.length + 1)) n
  finishTails s n ((s.cap n).kept.length + 1)

/-! ### Exports (R522 to R524) -/

/-- The block of an export at offset `off` of a skein's records, and the bytes it takes. -/
def exportBlock (n : Nat) (k : Skein) (cfg : Word) (off index : Nat) : List Byte × Nat × Bool :=
  let all := k.recordBytes
  let input := (all.drop off).take 65536
  let last := decide (all.length ≤ off + 65536)
  let S := strideOf cfg k.transition k.storedPods.length
  let h : BlockHead := {
    method := 0, pmode := false, last := last, flushed := false, resumed := false, stride := S, kinit := 0, bench := n,
    inLen := input.length, inOff := off, skein := k.num, index := index }
  (encodeBlock cfg S h input, input.length, last)

/-- A block of an export ends on engine `e` (R522 to R524); a skein with no record byte has no block and is its header alone (R498). -/
def endExportBlock (s : State) (e : Nat) (j : Job) (skein : Nat) (cfg : Word) (outMax : Nat) (ok : Bool) : State :=
  let n := j.bench
  match s.skeinOf n skein with
  | none => s
  | some (k, _) =>
    let r := if k.recordBytes = [] then ([], 0, true) else exportBlock n k cfg (65536 * j.step) j.step
    let s := chargeEncode s n e r.2.1
    if !ok ∧ r.1 ≠ [] then failSelfcheck s e j
    else
      let s := moveSram (if r.1 = [] then s else s.bumpWrap .cmpEngBlk e 0 31 0 1) n r.1.length
      let hdr := if j.step = 0 then ({ k with cmpCfg := cfg } : Skein).header n else []
      let out := j.out ++ hdr ++ r.1
      if outMax < out.length then freeStaging (endJob s j .noSpace 0) n outMax
      else if r.2.2 then
        sendData (dropJob s j.id) n j.tag out (some (0x0502, Status.done.code, out.length)) outMax (some skein)
      else s.setJob { j with step := j.step + 1, out := out }

/-! ### Verification (R525) -/

/-- A slice of parts: `len` bytes from stream offset `off`. -/
def sliceParts : List (Nat × Nat × Nat) → Nat → Nat → List (Nat × Nat × Nat)
  | [], _, _ => []
  | (q, o, l) :: t, off, len =>
    if l ≤ off then sliceParts t (off - l) len
    else
      let take := min len (l - off)
      if take = 0 then [] else (q, o + off, take) :: sliceParts t 0 (len - take)

/-- The bytes of a catalogue entry as they were programmed, its header left out. -/
def State.entryBytes (s : State) (e : CatEntry) : List Byte :=
  let all := e.parts.flatMap fun p => match s.findPage e.bench e.session p.1 with
    | some (_, _, pg) => (pg.data.drop p.2.1).take p.2.2
    | none => List.replicate p.2.2 0
  all.take (all.length - 64)

/-- The blocks of a stream: the offset of each and its bytes' number; bytes that make no whole block, such as those of a block whose
OUT_LEN runs past them, are one failing block (R510, R525); `fuel` bounds them. -/
def blockSpans : Nat → Nat → List Byte → List (Nat × Nat)
  | 0, _, _ => []
  | fuel + 1, off, bs =>
    match readBlock bs with
    | none => if bs = [] then [] else [(off, bs.length)]
    | some (b, rest) => (off, 0x24 + b.payload.length) :: blockSpans fuel (off + 0x24 + b.payload.length) rest

/-- IN_OFF that block `i` of a stream should carry: the IN_LENs of the blocks before it. -/
def expectedInOff : Nat → List Byte → Nat
  | 0, _ => 0
  | i + 1, bs =>
    match readBlock bs with
    | none => 0
    | some (b, rest) => b.head.inLen + expectedInOff i rest

/-- A lane that a catalogue entry has data on is not in service: its fault code (R579). -/
def State.entryRetired (s : State) (e : CatEntry) : Option Nat :=
  e.parts.findSome? fun p => match s.findPage e.bench e.session p.1 with
    | some (x, _, _) => if s.laneServes x then none else some (s.retireCode (resLane x))
    | none => none

/-- One block of a verify job is checked (R510, R525). -/
def endVerifyStep (s : State) (e : Nat) (j : Job) (session skein : Nat) (fail : Option Nat) : State :=
  let n := j.bench
  match s.entry? n session skein with
  | none => endJob s j .done j.step
  | some en =>
    match s.entryRetired en with
    | some code => endJob s j .retired code
    | none =>
      let all := s.entryBytes en
      let spans := blockSpans (all.length / 0x24 + 1) 0 all
      match spans[j.step]? with
      | none =>
        match fail with
        | some _ => endJob s j .verifyMismatch j.step
        | none => endJob s j .done j.step
      | some (off, len) =>
        let r := readParts s n session (sliceParts en.parts off len)
        let s := r.2.2.2
        let good := r.2.1 && (match readBlock r.1 with
          | some (b, _) => blockGood b n skein j.step (expectedInOff j.step all)
          | none => false)
        let cycles := match readBlock r.1 with
          | some (b, _) => decodeCycles b
          | none => 0
        let s := chargeEngine s n e cycles true
        let fail := if good then fail else fail.or (some j.step)
        if j.step + 1 = spans.length then
          match fail with
          | some _ => endJob s j .verifyMismatch spans.length
          | none => endJob s j .done spans.length
        else s.setJob { j with step := j.step + 1, kind := .verify session skein fail }

end Sys2Proof.Machine
end

