-- ==== Sys2Proof/Machine/Jobs.lean ====
section
/-! DEFINITION. The steps of engine jobs, and what a retire, a let and a return of an engine do to them (R594 to R600, R609 to
R612, R626 to R629, R644). -/

namespace Sys2Proof.Machine

/-! ### Step boundaries -/

/-- The engine changes to the job chosen for it, or keeps the one it runs; a job that no longer may run there is not taken (R602 to
R604, R613), and one that awaits the engine's own verdict stays for it (R513, R531); `ok` says that a restored context passes its
check. -/
def switchTo (s : State) (e : Nat) (choice : Option Nat) (ok : Bool) : State :=
  let may : Bool := match choice.bind s.job? with
    | some j => s.mayRun e j
    | none => false
  match s.jobOn e with
  | none => giveEngine s e (if may then choice else none) ok
  | some j =>
    if j.awaits e ∨ (may ∧ choice = some j.id) then s.setEngine e { s.engine e with chosen := none }
    else giveEngine (preempt s e) e (if may then choice else none) ok

/-- A job ends because no in-service engine of its kind is left in its ply (R597). -/
def loseJob (s : State) (j : Job) (code : Nat) : State :=
  match j.kind with
  | .stream => stopStream s j.bench .noEngine
  | .exportJob _ _ out => freeStaging (endJob s j .retired code) j.bench out
  | .calibrate => if s.engineServes 8 then s else endJob s j .retired code
  | _ => endJob s j .retired code

/-- The fault code for a job that has no engine of its kind in service: that of a retired engine of the kind in its ply; the engines'
type code where the ply has none. -/
def State.orphanCode (s : State) (j : Job) : Nat :=
  match s.engineList.find? fun e => decide (engKind e = j.kind.kind) && decide (s.engPly e = s.plyOf j.bench) && s.isRetired (resEngine e) with
  | some e => s.retireCode (resEngine e)
  | none => 0x0400

/-- Values that have applied at a rally boundary may leave a ply without an in-service engine of a kind: its jobs of that kind end (R372,
R597). -/
def sweepOrphans (s : State) : State :=
  s.each s.umpire.jobs fun s j =>
    if (s.job? j.id).isSome ∧ (s.enginesOf (s.plyOf j.bench) j.kind.kind).isEmpty then loseJob s j (s.orphanCode j) else s

/-- A step has ended on engine `e`: in interleave mode this is a rally boundary, at which the next job is chosen (R609); a job whose block
has failed its self-check has not ended its step (R531). -/
def afterStep (s : State) (e : Nat) : State :=
  if s.interleaved e && !((s.jobOn e).any fun j => j.awaits e) then
    let r := choose (rallyBoundary s e) e
    sweepOrphans (switchTo r.2 e r.1 true)
  else sweepOrphans s

/-- The records of 16 bytes that a search or decode job has ready, and those it may send now: the last one waits for the end of
the job, so that LAST has a container (R732). -/
def stageResults (results : List (List Byte)) (sent : Nat) (final : Bool) : List (List Byte) :=
  let fresh := results.drop sent
  if final then fresh else fresh.dropLast

/-- A step of a search or decode job ends (R598, R624 to R626): its records are sent, and after the last step the job completes
with the number of records. -/
def endScanStep (s : State) (e : Nat) (j : Job) : State :=
  let n := j.bench
  let d := s.draw 24
  let total := inputBytes j.input
  let before := inputUpTo (j.step - 1) 0 j.input
  let upTo := inputUpTo j.step 0 j.input
  let stepBytes := inputBytes upTo - (if j.step = 0 then 0 else inputBytes before)
  let opB := match j.kind with
    | .search p => bitB (wordAt p 0) 1
    | .decode p => decide (fld (wordAt p 0) 3 2 = 1) || decide (fld (wordAt p 0) 3 2 = 2)
    | _ => false
  let inSram : Bool := match j.kind with
    | .search p => scanPath p == 0
    | .decode p => scanPath p == 0
    | _ => false
  let s := chargeEngine d.2 n e d.1 opB
  let s := if inSram then moveSram s n stepBytes else s
  let final := decide (total ≤ (j.step + 1) * 65536)
  let results := match j.kind with
    | .search p => searchResults p upTo
    | .decode p => decodeResults p upTo final
    | _ => []
  let ends := final || j.stop.isSome
  let send := stageResults results j.sent ends
  let count := j.sent + send.length
  if ends then
    let code : BitVec 8 × Nat := match j.stop with
      | some (c, arg) => if c ≠ Status.partial_.code then (c, arg)
        else (if final then Status.done.code else c, min count 0xFFFFF)
      | none => (Status.done.code, min count 0xFFFFF)
    sendData (dropJob s j.id) n j.tag send.flatten (some (j.kind.op, code.1, code.2)) 0
  else
    let s := sendData s n j.tag send.flatten none 0
    s.setJob { j with step := j.step + 1, sent := count }

/-- A job that was told to stop ends at the end of its step (R294, R644); an export or verify job sends nothing more. -/
def stopAtStep (s : State) (j : Job) : State :=
  match s.job? j.id with
  | none => s
  | some k =>
    match k.stop, k.kind with
    | some (c, arg), .exportJob _ _ out =>
      completeCode (freeStaging (dropJob s k.id) k.bench out) k.stream k.kind.op k.tag c arg
    | some (c, arg), .verify _ _ _ =>
      completeCode (dropJob s k.id) k.stream k.kind.op k.tag c (if c = Status.partial_.code then k.step else arg)
    | _, _ => s

/-- The step of the job that engine `e` runs ends; `ok` is the outcome of a block's self-check (R499, R511, R598). -/
def endStep (s : State) (e : Nat) (ok : Bool) : State :=
  match s.jobOn e with
  | none => s
  | some j =>
    if j.await.isSome ∨ !s.hasInput j then s
    else match j.kind with
      | .stream => if (s.blockEnd j.bench).isSome then afterStep (followCapture (endStreamBlock s e j ok) j.bench) e else s
      | .exportJob skein cfg out => afterStep (stopAtStep (endExportBlock s e j skein cfg out ok) j) e
      | .verify session skein fail => afterStep (stopAtStep (endVerifyStep s e j session skein fail) j) e
      | .search _ => afterStep (endScanStep s e j) e
      | .decode _ => afterStep (endScanStep s e j) e
      | .measure _ _ => s
      | .calibrate => s

/-! ### Stopping jobs (R294, R644) -/

/-- Tell the engine job of a command to stop at the end of its current step; a job that has not started a step ends at
once. -/
def tellStop (s : State) (j : Job) (code : BitVec 8) (arg : Nat) : State :=
  match j.kind, j.state with
  | .measure _ done, .ready => completeCode (dropJob s j.id) j.stream j.kind.op j.tag code (if code = Status.partial_.code then done else arg)
  | .stream, _ => s
  | _, .running _ => s.setJob { j with stop := some (code, arg) }
  | k, .ready =>
    if j.saved.isSome then s.setJob { j with stop := some (code, arg) }
    else
      let s := match k with
        | .exportJob _ _ out => freeStaging s j.bench out
        | _ => s
      let count := match k with
        | .verify _ _ _ => j.step
        | _ => j.sent
      completeCode (dropJob s j.id) j.stream k.op j.tag code (if code = Status.partial_.code then count else arg)

/-- The engine job of a command. -/
def State.jobOf (s : State) (st : Stream) (tag : BitVec 8) : Option Job :=
  s.umpire.jobs.find? fun j => decide (j.stream = st) && j.tag == tag && decide (j.kind ≠ .stream)

/-! ### Engines leave and return (R597, R627 to R629, R513, R514) -/

/-- Post ENG_STATE to every open bench of an engine's ply (R629, R647). -/
def postEngState (s : State) (e state : Nat) : State :=
  s.each (s.openBenches.filter fun n => decide (s.plyOf n = s.engPly e)) fun s n => postEvent s n 0x8701 (e + state * 16)

/-- After a let the jobs that waited for the verdict run again, from the start of their step (R513, "Engines and register
banks"). -/
def wakeJobs (s : State) (res : Word) : State :=
  { s with umpire := { s.umpire with
    jobs := s.umpire.jobs.map fun (j : Job) => if j.await = some res then { j with await := none, saved := none } else j } }

/-- Where a ply has no in-service engine of a kind, its jobs of that kind end (R597). -/
def orphanJobs (s : State) (code : Nat) : State :=
  s.each s.umpire.jobs fun s j =>
    if (s.job? j.id).isSome ∧ (s.enginesOf (s.plyOf j.bench) j.kind.kind).isEmpty then loseJob s j code else s

/-- The retire of an engine takes effect (R514, R597, R627, R629): its job resumes elsewhere from the start of its step. -/
def retireEngine (s : State) (e code : Nat) : State :=
  let s := match s.jobOn e with
    | none => s
    | some j => s.setJob { j with state := .ready, saved := none, await := none }
  let s := s.setEngine e { s.engine e with job := none, chosen := none }
  orphanJobs (postEngState (wakeJobs s (resEngine e)) e 4) code

/-- The lists of engine, ply and level words of ENG_QUERY (R641, R645). -/
def State.engQueryWords (s : State) (n : Nat) (own : Option Nat) : List Word :=
  let y := s.plyOf n
  ((List.range 9).map fun e => if s.member.hasEngine e then s.engStatus e own else 0) ++
    [s.eff .plyCfg y, s.plyStatus y] ++ ((List.range 3).map fun k => W (unsigned 32 (s.level y k))) ++
    (List.range 3).map fun k => s.eff .plyRate y k

end Sys2Proof.Machine
end

