-- ==== Sys2Proof/Machine/Interval.lean ====
section
/-! DEFINITION. The interval unit: arming, edges, the measurement equation, records, calibration and the crystal correction
(R648 to R689). -/

namespace Sys2Proof.Machine

/-! ### Settings -/

/-- START_SRC in effect; 5 to 7 act as 0. -/
def State.iuStartSrc (s : State) : Nat :=
  let v := fld (s.eff .iuCfg) 2 0
  if v ≤ 4 then v else 0

/-- An edge of a sense fits STOP_EDGE in effect; 0b11 acts as 0b00. -/
def State.iuStopSense (s : State) (falling : Bool) : Bool :=
  match fld (s.eff .iuCfg) 10 9 with
  | 1 => falling
  | 2 => true
  | _ => !falling

/-- STOPs wanted. -/
def State.iuWanted (s : State) : Nat := fld (s.eff .iuCfg) 15 12 + 1

/-- TIMEOUT in coarse ticks; 0 means 2^40 (R653). -/
def State.iuTimeout (s : State) : Nat :=
  let v := (s.eff .iuTmoLo).toNat + fld (s.eff .iuTmoHi) 7 0 * 2 ^ 32
  if v = 0 then 2 ^ 40 else v

/-- CAL_LOG2; values outside 16 to 22 act as 20. -/
def State.calLog2 (s : State) : Nat :=
  let v := fld (s.rd .iuCtrl) 20 16
  if 16 ≤ v ∧ v ≤ 22 then v else 20

/-- IU_CTRL.AUTO_RECAL. -/
def State.autoRecal (s : State) : Bool := bitB (s.rd .iuCtrl) 8

/-- POS of an entry in 1/256 ps (R661). -/
def State.iuPos (s : State) (interp code : Nat) : Nat :=
  fld (s.iu.tables.get (fun _ => 0) (1024 * interp + code)) 19 0

/-! ### Events -/

/-- The source gives events: source 4 only from an owned pod, while its channel is neither retired nor tested (R649). -/
def State.iuSees (s : State) (src : Nat) : Bool :=
  if src = 4 then
    let ch := fld (s.eff .iuCfg) 23 16
    match s.iu.bench with
    | some n => s.owns n (ch / 32) && s.inService (ch / 32) (ch % 32) && !(s.ref.held.any fun h => h.1 == ch)
    | none => false
  else true

/-- The latest recorded event of a source in this measurement. -/
def Interval.latest (u : Interval) (src : Nat) : Option IuEvent :=
  ((u.start.toList ++ u.stops).filter fun e => e.src == src).getLast?

/-- The interpolator that takes the next event of a source (R648, R650). -/
def Interval.nextInterp (u : Interval) (src : Nat) : Nat :=
  if src = 4 then 8
  else match u.latest src with
    | none => 2 * src
    | some e => if e.interp = 2 * src then 2 * src + 1 else 2 * src

/-- The time of an event after the arm in 1/256 ps (R657). -/
def State.iuTime (s : State) (e : IuEvent) : Int := (e.coarse * 640000 : Nat) - (s.iuPos e.interp e.code : Nat)

/-- The event falls too soon after the previous one recorded on its source: 8 ns, 16 ns on source 4 (R650). -/
def State.iuTooSoon (s : State) (e : IuEvent) : Bool :=
  match s.iu.latest e.src with
  | none => false
  | some p => decide (s.iuTime e - s.iuTime p < (if e.src = 4 then 4096000 else 2048000))

/-- A measurement is armed. -/
def State.iuArmed (s : State) : Bool := decide (s.iu.state = .waitStart) || decide (s.iu.state = .collecting)

/-- The count C of a measurement has reached `coarse`, 2.5 ns each after the arm: base ticks have gone by with it (R651). -/
def iuClock (s : State) (coarse : Nat) : State :=
  if s.iuArmed then { s with power := { s.power with baseTick := max s.power.baseTick (s.iu.armTick + 4 * coarse) } } else s

/-- START of the measurement (R652, R653). -/
def iuStart (s : State) (src : Nat) (falling : Bool) (coarse code : Nat) : State :=
  if s.iu.state = .waitStart ∧ src = s.iuStartSrc ∧ falling = bitB (s.eff .iuCfg) 3 ∧ coarse ≤ s.iuTimeout ∧ s.iuSees src then
    let e : IuEvent := ⟨src, falling, s.iu.nextInterp src, code, coarse⟩
    { s with iu := { s.iu with state := .collecting, start := some e } }
  else s

/-- A STOP edge: recorded, or counted LATE or LOST (R650, R652, R653, R676). -/
def iuStop (s : State) (src : Nat) (falling : Bool) (coarse code : Nat) : State :=
  if s.iu.state = .collecting ∧ (fld (s.eff .iuCfg) 8 4).testBit src ∧ s.iuStopSense falling ∧ s.iuSees src then
    let e : IuEvent := ⟨src, falling, s.iu.nextInterp src, code, coarse⟩
    if s.iuTimeout < coarse then { s with iu := { s.iu with late := satAdd 255 s.iu.late 1 } }
    else if s.iuWanted ≤ s.iu.stops.length then s
    else if s.iuTooSoon e then { s with iu := { s.iu with lost := satAdd 255 s.iu.lost 1 } }
    else { s with iu := { s.iu with stops := s.iu.stops ++ [e] } }
  else s

/-! ### Results (R654, R657, R658, R669) -/

/-- T of a STOP in 1/16 ps (R657, R658): T_raw × (1 − CORR × 10^-9), halves rounded upwards. -/
def State.iuT (s : State) (start stop : IuEvent) : Int :=
  let raw := s.iuTime stop - s.iuTime start
  (2 * raw * (1000000000 - s.iu.corr) + 16000000000) / 32000000000

/-- The STOPs with their intervals, in the order of R654. -/
def State.iuOrdered (s : State) : List (Int × IuEvent) :=
  match s.iu.start with
  | none => []
  | some st =>
    let all := s.iu.stops.map fun e => (s.iuT st e, e)
    let bySrc := sortBy (fun p : Int × IuEvent => p.2.src) all
    sortBy (fun p : Int × IuEvent => (p.1 + 2 ^ 60).toNat) bySrc

/-- One record of 16 bytes as four words (R669). -/
def iuRecord (first : Nat) (kind : Nat) (stale : Bool) (b8 b9 half : Nat) (meas : Nat) : List Word :=
  [W first, W (first / 2 ^ 32 % 2 ^ 24 + (kind + bN stale * 4) * 2 ^ 24), pack [(b8 % 256, 0), (b9 % 256, 8), (half % 2 ^ 16, 16)],
    W meas]

/-- The records of the measurement (R669). -/
def State.iuRecords (s : State) (meas : Nat) : List (List Word) :=
  let u := s.iu
  let startRec := match u.start with
    | some e => [iuRecord ((u.armTick + 4 * e.coarse) % 2 ^ 56) 0 u.stale e.src (e.interp + bN e.falling * 16) e.code meas]
    | none => []
  let stops := s.iuOrdered.mapIdx fun i p =>
    iuRecord (unsigned 56 p.1) 1 u.stale (p.2.src + i * 8) (p.2.interp + bN p.2.falling * 16) p.2.code meas
  let timeout := decide (u.stops.length < s.iuWanted)
  startRec ++ stops ++
    [iuRecord 0 2 u.stale u.stops.length (bN u.start.isSome + bN timeout * 2 + bN u.chLost * 4) (u.late + u.lost * 256) meas]

/-- IU_RESw: word `w` of the record IU_RES_IDX selects. -/
def State.iuResWord (s : State) (w : Nat) : Word :=
  let i := fld (s.rd .iuResIdx) 4 0
  let kindOf (r : List Word) : Nat := fld (wordAt r 1) 25 24
  let r := s.iu.results.find? fun r =>
    if i = 0 then kindOf r == 0
    else if i ≤ 16 then kindOf r == 1 && fld (wordAt r 2) 7 3 == i - 1
    else kindOf r == 2
  wordAt (r.getD []) w

/-! ### Arming and reporting (R651, R655, R656, R664, R670, R674) -/

/-- Arm a measurement for a bench, or for none (R651). -/
def iuArm (s : State) (n : Option Nat) : State :=
  { s with iu := { s.iu with
      state := .waitStart, bench := n, goPending := false, armTick := s.power.baseTick,
      corr := signed 32 (s.eff .iuCorr).toNat, start := none, stops := [], late := 0, lost := 0, chLost := false, stale := false } }

/-- The configuration of a bench that nothing has set (R656). -/
def iuConfigInit (_ : Nat) : Word × Word × Word := (0x20, 0x17D78400, 0)

/-- Survo firmware writes a bench's configuration to IU_CFG and IU_TMO, and sets GO once it is in effect (R656): while GLB_STAGE.HOLD is
1 the unit stays idle with the job (R188, R201). -/
def iuArmBench (s : State) (n : Nat) : State :=
  let c := s.iu.configs.get iuConfigInit n
  let s := ((s.wr .iuCfg 0 0 c.1).wr .iuTmoLo 0 0 c.2.1).wr .iuTmoHi 0 0 c.2.2
  if s.rallyHeld then s else iuArm (applyIu s) (some n)

/-- Start a calibration (R659, R663, R665). -/
def iuStartCal (s : State) : State :=
  { s with iu := { s.iu with
    state := .calibrating, calPending := false, calDue := false, calTemp := s.iu.temp, calNext := 0, calRejected := none } }

/-- With no measurement armed, a calibration or a GO that waits starts (R664); in a replay neither does (R675). A job that holds the
engine and has not armed, while GLB_STAGE.HOLD keeps its configuration from taking effect, lets a calibration start. -/
def iuPump (s : State) : State :=
  let busy : Bool := match s.jobOn 8 with
    | some j => decide (j.kind = .calibrate)
    | none => (s.engine 8).job.isSome
  if s.iu.state ≠ .idle ∨ busy ∨ s.rpl.state = .replaying ∨ !s.live ∨ !s.engineServes 8 then s
  else if s.iu.calPending ∨ (s.iu.calDue ∧ s.autoRecal) then iuStartCal s
  else if s.iu.goPending ∧ s.iuMayArm ∧ (s.engine 8).job.isNone then iuArm s none else s

/-- Engine 8 has been given a job: it arms the measurement of its bench, or calibrates (R656, R664); in a replay it does neither, and a
calibration job completes at once (R675). -/
def iuBegin (s : State) : State :=
  match s.jobOn 8 with
  | none => s
  | some j =>
    match j.kind with
    | .measure _ _ => if s.replaysBench j.bench then s else if s.iuMayArm then iuArmBench s j.bench else s
    | .calibrate =>
      if s.isReplaying then endJob s j .done s.iu.calTemp.toNat else if s.iu.state = .idle then iuStartCal s else s
    | _ => s

/-- The records of a completed measurement of a job: Mboron records them, the result store of the bench takes them, and they
are sent, but on a session over two-wire (R670, R687, R820); after the last measurement, or once a JOB_CANCEL has been taken, the
job completes (R644). -/
def deliverRecords (s : State) (j : Job) (left done : Nat) (recs : List (List Word)) : State :=
  let n := j.bench
  let s := { s with iu := { s.iu with results := recs, byBench := s.iu.byBench.put (fun _ => []) n recs } }
  let s := s.each recs fun s r =>
    logBench (logBench s n 0xA ((wordAt r 0).toNat + (wordAt r 1).toNat * 2 ^ 32)) n 0xB
      ((wordAt r 2).toNat + (wordAt r 3).toNat * 2 ^ 32)
  let bytes := if (s.sess n).transport = .twoWire then [] else recs.flatMap bytesOfWords
  if left ≤ 1 then
    sendData (dropJob s j.id) n j.tag bytes (some (0x0802, Status.done.code, done + 1)) 0
  else if j.stop.isSome then
    sendData (dropJob s j.id) n j.tag bytes (some (0x0802, Status.partial_.code, done + 1)) 0
  else
    let s := sendData s n j.tag bytes none 0
    let j := { j with kind := .measure (left - 1) (done + 1), state := .ready }
    let s := { s with umpire := { s.umpire with jobs := (s.umpire.jobs.filter fun (x : Job) => decide (x.id ≠ j.id)) ++ [j] } }
    freeEngine s 8

/-- The measurement ends, at its last STOP or when C reaches TIMEOUT (R653): the result registers fill, IU_MEAS counts, GO clears, and the unit's rally boundary falls (R655,
R670, R674). -/
def iuReport (s : State) : State :=
  if s.iu.state = .waitStart ∨ s.iu.state = .collecting then
    let meas := match (s.jobOn 8).map Job.kind with
      | some (.measure _ d) => d
      | _ => 0
    let recs := s.iuRecords meas
    let s := if s.iu.stops.length < s.iuWanted then iuClock s s.iuTimeout else s
    let held := (s.power.baseTick - s.iu.armTick) / 8
    let s := { s with iu := { s.iu with state := .idle, bench := none, start := none, stops := [], results := recs } }
    let s := s.bumpWrap .iuMeas 0 0 31 0 1
    match s.jobOn 8 with
    | some j =>
      match j.kind with
      | .measure left d => iuPump (sweepOrphans (deliverRecords (chargeEngine s j.bench 8 held false) j left d recs))
      | _ => s
    | none => iuPump (sweepOrphans (applyIu (rallyBoundary s 8)))
  else s

/-- A bench's measurement is abandoned (R681, R682). -/
def iuAbandon (s : State) (n : Nat) : State :=
  if s.iu.bench = some n ∧ (s.iu.state = .waitStart ∨ s.iu.state = .collecting) then
    { s with iu := { s.iu with state := .idle, bench := none, start := none, stops := [] } }
  else s

/-- Engine 8 is retired: a measurement or a calibration that runs is discarded (R682). -/
def iuDiscard (s : State) : State :=
  { s with iu := { s.iu with state := .idle, bench := none, start := none, stops := [] } }

/-- A channel was retired or tested: a measurement routed from it has lost events (R684). -/
def iuChannelLost (s : State) (ch : Nat) : State :=
  let uses := s.iuStartSrc == 4 || (fld (s.eff .iuCfg) 8 4).testBit 4
  if (s.iu.state = .waitStart ∨ s.iu.state = .collecting) ∧ uses ∧ fld (s.eff .iuCfg) 23 16 = ch then
    { s with iu := { s.iu with chLost := true } }
  else s

/-! ### Calibration (R659 to R665, R689) -/

/-- `num / den` in whole units, rounded as the A9 rounds (log entry 6). -/
def roundUnit (num den : Nat) : Nat :=
  num / den + (if num % den ≠ 0 ∧ Config.roundsUp num den then 1 else 0)

/-- A table entry (R659, R661): the hits of the codes before, of the code, and N = 2^log2. -/
def tableEntry (before hits log2 : Nat) : Word :=
  let w := min 0xFFF (roundUnit (640000 * hits) (2 ^ log2))
  let pos := roundUnit (640000 * (2 * before + hits)) (2 ^ (log2 + 1))
  pack [(pos % 2 ^ 20, 0), (w, 20)]

/-- The entries of a table from its hits. -/
def tableEntries (log2 : Nat) : Nat → List Nat → List Word
  | _, [] => []
  | before, n :: t => tableEntry before n log2 :: tableEntries log2 (before + n) t

/-- A new table is accepted (R660). -/
def tableGood (log2 : Nat) (hits : List Nat) : Bool :=
  (hits.all fun n => decide (2500 * n ≤ 10 * 2 ^ log2)) && decide ((hits.filter fun n => n == 0).length ≤ 16)

/-- The calibration of all nine interpolators has ended (R660, R663, R686, R689). -/
def iuCalDone (s : State) : State :=
  let rej := s.iu.calRejected
  let s := { s with iu := { s.iu with state := .idle, calFail := rej.isSome } }
  match (s.jobOn 8).filter fun j => decide (j.kind = .calibrate) with
  | some j =>
    match rej with
    | some i => iuPump (endJob s j .verifyMismatch i)
    | none => iuPump (endJob s j .done s.iu.calTemp.toNat)
  | none =>
    let arg := s.iu.calTemp.toNat + bN rej.isSome * 256
    let s := s.each (s.openBenches.filter fun n => decide (s.plyOf n = s.engPly 8)) fun s n => postEvent s n 0x8801 arg
    iuPump (if s.iu.state = .idle then iuBegin s else s)

/-- A calibration that was told to stop ends after an interpolator (R294). -/
def iuCalStopped (s : State) : State :=
  match s.jobOn 8 with
  | none => s
  | some j =>
    match decide (j.kind = .calibrate), j.stop with
    | true, some (c, arg) =>
      iuPump (completeCode (dropJob { s with iu := { s.iu with state := .idle } } j.id) j.stream j.kind.op j.tag c arg)
    | _, _ => s

/-- One interpolator's calibration ends with its hits by code (R659, R660). -/
def iuCalStep (s : State) (hits : List Nat) : State :=
  if s.iu.state = .calibrating then
    let i := s.iu.calNext
    let hits := (List.range 1024).map fun c => hits.getD c 0
    let s := if tableGood s.calLog2 hits then
        let entries := tableEntries s.calLog2 0 hits
        let tables := (entries.mapIdx fun c w => (1024 * i + c, w)).foldl (fun m e => m.put (fun _ => 0) e.1 e.2) s.iu.tables
        { s with iu := { s.iu with tables := tables, done := if s.iu.done.contains i then s.iu.done else s.iu.done ++ [i] } }
      else raiseFault { s with iu := { s.iu with calFail := true, calRejected := s.iu.calRejected.or (some i) } }
        (resEngine 8) 0x0404
    let s := { s with iu := { s.iu with calNext := i + 1 } }
    if i = 8 then iuCalDone s else iuCalStopped s
  else s

/-- IU_TEMP.TEMP is updated; a difference of 5 °C from CAL_TEMP makes a calibration due while AUTO_RECAL is 1 (R663, R665,
R678). -/
def iuTemp (s : State) (t : BitVec 8) : State :=
  let s := { s with iu := { s.iu with temp := t } }
  let diff := (t.toInt - s.iu.calTemp.toInt).natAbs
  let due := s.autoRecal && decide (5 ≤ diff)
  let measuring := decide (s.iu.state = .waitStart) || decide (s.iu.state = .collecting)
  iuPump { s with iu := { s.iu with calDue := s.iu.calDue || due, stale := s.iu.stale || (due && measuring) } }

/-! ### The crystal correction (R666 to R668) -/

/-- The ageing term: the nearest integer to AGE × D / 365.25, halves away from zero (R666). -/
def ageTerm (age : Int) (days : Nat) : Int :=
  let n := 4 * age.natAbs * days
  let q : Nat := (2 * n + 1461) / 2922
  if age < 0 then -(q : Int) else q

/-- Recompute IU_CORR (R666, R667). -/
def updateCorr (s : State) : State :=
  let days := if s.cal.set then s.cal.today - s.part.iuTrimDay else 0
  let corr := signed 32 s.part.iuTrim.toNat + ageTerm (signed 32 (s.rd .iuAge).toNat) days
  let s := s.wr .iuCorr 0 0 (W (unsigned 32 corr))
  let s := { s with iu := { s.iu with ageStale := !s.cal.set } }
  if s.iu.state = .waitStart ∨ s.iu.state = .collecting then s else applyIu s

/-! ### Registers -/

/-- The code of a unit state. -/
def IuState.code : IuState → Nat
  | .idle => 0 | .waitStart => 1 | .collecting => 2 | .calibrating => 4

/-- IU_STATUS. -/
def State.iuStatus (s : State) : Word :=
  let u := s.iu
  pack [(u.state.code, 0), (bN u.calValid, 3), (bN u.calDue, 4), (bN u.calFail, 5), (bN u.ageStale, 6),
    (u.stops.length, 8), (u.bench.getD 15, 16)]

/-- IU_STATUS as a student of bench `n` sees it (R688). -/
def State.iuStatusFor (s : State) (n : Nat) : Word :=
  match s.iu.bench with
  | some m => if m = n then s.iuStatus else setFld (setFld s.iuStatus 19 16 15) 12 8 0
  | none => s.iuStatus

/-- IU_CTRL.GO and CAL_GO (class H): 1 while the operation waits or runs. -/
def State.iuGoBits (s : State) : Nat :=
  bN (s.iu.goPending || decide (s.iu.state = .waitStart) || decide (s.iu.state = .collecting)) +
    2 * bN (s.iu.calPending || decide (s.iu.state = .calibrating))

end Sys2Proof.Machine
end

