-- ==== Sys2Proof/Machine/TwoWire.lean ====
section
/-! DEFINITION. The two-wire interface as controller: alert messages, retry and back-off, TW_XFER, and the applying of its
staged values (R702 to R716, R721). -/

namespace Sys2Proof.Machine

/-- The A9's own target address (R52, R691). -/
def State.ownAddr (s : State) : Nat := 0x4C + s.boot.straps.twa.toNat

/-- The 8 bytes of an alert message (R708); `last` marks the last attempt. -/
def alertBytes (own : Nat) (a : Alert) (last : Bool) : List Byte :=
  let body := leBytes 1 own ++ leBytes 1 (a.pri % 4 + a.src % 4 * 4 + bN last * 16) ++ leBytes 1 (a.bench % 16) ++ [a.id] ++
    leBytes 2 a.code ++ [a.arg]
  body ++ [xorBytes body]

/-- TW_RETRY_LIMIT in effect; 0 acts as 1. -/
def State.retryLimit (s : State) : Nat := max 1 (fld (s.eff .twRetryLimit) 7 0)

/-- TW_STRETCH_MAX in effect, in µs; below 400 it acts as 400 (R700). -/
def State.stretchMax (s : State) : Nat := max 400 (fld (s.eff .twStretchMax) 15 0)

/-- The registers whose pending values apply at a STOP (R183). -/
def twRegs : List Nat :=
  [Reg.addr ⟨.twCfg, 0, 0⟩, Reg.addr ⟨.twStretchMax, 0, 0⟩, Reg.addr ⟨.twRetryLimit, 0, 0⟩, Reg.addr ⟨.twBackoff, 0, 0⟩]

/-- A STOP: pending two-wire values apply (R183), and pads whose re-test has passed rejoin (R751). -/
def twStop (s : State) : State :=
  let s := usesRegs s fun a => twRegs.contains a
  let s := s.each twRegs fun s a => applyReg s a (gBitsAt a)
  let s := if s.ref.rejoining.contains resPads then
      let s := bookReturn s resPads
      { s with tw := { s.tw with retired := false, stuck := false } }
    else s
  twKick { s with tw := { s.tw with busy := false, ctrl := false } }

/-- The bus is free: a STOP has been seen since the last START, and neither line is held low (R702, R711). -/
def State.busFree (s : State) : Bool := !s.tw.busy && !s.tw.stuck

/-- The A9 may start a controller transfer: it runs, the quiet period is over, the bus is free and the pads serve (R702, R711). -/
def State.mayControl (s : State) : Bool := s.live && s.boot.quietOver && s.busFree && !s.tw.retired

/-- Enter SENDING with the alert that R708 chooses, or IDLE where nothing is to be sent. -/
def twChoose (s : State) : State :=
  if s.tw.alerts ≠ [] ∧ s.hostAddr ≠ 0 then
    let s := setCState s .sending
    { s with tw := { s.tw with sending := nextAlert s.tw.alerts } }
  else
    let s := setCState s .idle
    { s with tw := { s.tw with sending := none } }

/-- An alert message has failed: the counter rises and the state moves on (R709). -/
def alertFailed (s : State) : State :=
  let r := min 255 (s.tw.retries + 1)
  let s := { s with tw := { s.tw with retries := r } }
  match s.tw.cstate with
  | .sending =>
    let s := { s with tw := { s.tw with sending := none } }
    if r < s.retryLimit then setCState s .wait
    else if s.tw.alerts.any fun a => a.pri == 0 then setCState s .backoff
    else setCState s .parked
  | .last => setCState { s with tw := { s.tw with sending := none } } .parked
  | _ => s

/-- All 8 bytes of the alert message have been acknowledged (R708, R709). -/
def alertSent (s : State) (a : Alert) : State :=
  let s := s.bumpSat .twCnt 0 0 15 0 1
  twChoose { s with tw := { s.tw with alerts := s.tw.alerts.erase a, retries := 0, sending := none } }

/-- Count what ended a controller transfer (TW_CNT). -/
def countXfer (s : State) : XferOut → State
  | .done _ => s
  | .nack _ => s.bumpSat .twCnt 0 0 31 24 1
  | .lost => s.bumpSat .twCnt 0 0 23 16 1
  | .timeout => s.bumpSat .twCnt 0 0 31 24 1

/-- The TWD entries of the read bytes after the first six (R816); `fuel` bounds their number. -/
def logMore : Nat → State → List Byte → State
  | 0, s, _ => s
  | fuel + 1, s, rd => if rd = [] then s else logMore fuel (logPart s 7 (leNat (rd.take 8))) (rd.drop 8)

/-- Mboron's TW and TWD entries of a controller transfer of `n` bytes to `addr` (R816, R820). -/
def logTransfer (s : State) (addr : Nat) (read : Bool) (n outcome : Nat) (rd : List Byte) : State :=
  let s := logPart s 6 (addr % 2 ^ 7 + bN read * 2 ^ 7 + n % 64 * 2 ^ 8 + outcome % 4 * 2 ^ 14 + leNat (rd.take 6) * 2 ^ 16)
  logMore (rd.length / 8 + 1) s (rd.drop 6)

/-- The entries of a transfer by its outcome. -/
def logOut (s : State) (addr : Nat) (read : Bool) (all : Nat) : XferOut → State
  | .done rd => logTransfer s addr read all 0 rd
  | .nack n => logTransfer s addr read n 1 []
  | .lost => logTransfer s addr read 0 2 []
  | .timeout => logTransfer s addr read 0 3 []

/-- One alert message of `a` with its outcome (R701, R705, R708, R709). -/
def sendAlert (s : State) (a : Alert) (last : Bool) (out : XferOut) : State :=
  let s := { s with tw := { s.tw with message := alertBytes s.ownAddr a last } }
  let s := logOut (countXfer s out) s.hostAddr false 8 out
  twStop (match out with
    | .done _ => alertSent s a
    | .nack _ | .lost | .timeout => alertFailed s)

/-- Alerts have been removed under R712: PARKED turns to IDLE with the counter at 0 (R709), and a choice not yet being sent is made
anew. -/
def removedAlerts (s : State) (as : List Alert) : State :=
  let s := { s with tw := { s.tw with alerts := s.tw.alerts.filter fun a => !as.contains a } }
  twKick (if s.tw.cstate = .parked ∧ as ≠ [] then
      { (setCState s .idle) with tw := { (setCState s .idle).tw with retries := 0 } }
    else s)

/-! ### TW_XFER (R721) -/

/-- How a TW_XFER ends, from the outcomes of its attempts: the losses so far, the status, the write bytes acknowledged, the
bytes read.  Outcomes past the end of the list are losses. -/
def runXfer (s : State) (addr wlen rlen : Nat) : Nat → List XferOut → Status × Nat × Nat × List Byte × State
  | losses, [] => (.partial_, losses, 0, [], s)
  | losses, o :: rest =>
    let s := logOut (countXfer s o) addr (decide (0 < rlen)) (if 0 < rlen then rlen else wlen) o
    match o with
    | .done rd => (.done, losses, wlen, rd.take rlen, s)
    | .nack n => (.partial_, losses, min n wlen, [], s)
    | .timeout =>
      let d := s.draw 8
      (.partial_, losses, d.1 % (wlen + 1), [], d.2)
    | .lost => if 4 ≤ losses then (.partial_, losses + 1, 0, [], s) else runXfer s addr wlen rlen (losses + 1) rest

/-- Perform a TW_XFER and post its completion (R721). -/
def performXfer (s : State) (c : Cmd) (outs : List XferOut) : State :=
  if s.tw.retired then complete s c.stream 0x0903 c.tag .retired (s.retireCode resPads)
  else
    let r := runXfer s (pf c 2 6 0) (pf c 2 13 8) (pf c 2 21 16) 0 outs
    let s := r.2.2.2.2
    let s := { s with tw := { s.tw with xferRead := r.2.2.2.1 } }
    complete (twStop s) c.stream 0x0903 c.tag r.1 (r.2.2.1 + r.2.2.2.1.length * 2 ^ 6 + bN (decide (0 < r.2.1)) * 2 ^ 12)

/-- The TW_XFERs that waited start once the bus is free and no back-off runs (R702, R716); retired pads end them at once (R721). -/
def releaseXfers (s : State) : State :=
  if s.tw.retired || (s.busFree && decide (s.tw.cstate ≠ .backoff)) then
    let w := s.tw.xfers
    let s := { s with tw := { s.tw with xfers := [] } }
    s.each w fun s x => performXfer s x.1 x.2
  else s

/-- Pad loopback let: up to nine SCL pulses, a STOP, and one failure counted (R711). -/
def padsLet (s : State) : State := releaseXfers (twStop (alertFailed { s with tw := { s.tw with stuck := false } }))

/-! ### Registers -/

/-- TW_STATUS. -/
def State.twStatus (s : State) : Word :=
  let t := s.tw
  pack [(t.cstate.code, 0), (bN t.busy, 3), (bN t.ctrl, 4), (bN t.stuck, 5), (bN t.retired, 6), (t.retries, 8)]

/-- TW_ALERT_PEND. -/
def State.alertPend (s : State) : Word :=
  let top := match s.tw.alerts with
    | [] => 0
    | a :: t => t.foldl (fun m b => min m b.pri) a.pri
  pack [(s.tw.alerts.length, 0), (top, 8), (bN s.attn, 10)]

end Sys2Proof.Machine
end

