-- ==== Sys2Proof/Machine/RefereeTests.lean ====
section
/-! DEFINITION. The Referee's tests and what their verdicts do to each type of resource (R751 to R773, R229 to R231, R395 to
R398, R576 to R580, R711). -/

namespace Sys2Proof.Machine

/-! ### The start of a test -/

/-- The value the A9 stores for a channel while its loopback test runs: its last value; a free value where no sample has been
evaluated yet (R397). -/
def lastValue (s : State) (ch : Nat) : Bool × State :=
  match (s.ownerOf (ch / 32)).bind fun n => (s.seqr n).prev with
  | some ws => (channelOf ws ch, s)
  | none => let d := s.draw 1; (d.1 == 1, d.2)

/-- The bench whose bobbin holds a bank. -/
def bankBench (b : Nat) : Option Nat := if b < 80 then some (b / 10) else none

/-- A loopback test starts on a channel of a bench that captures: its TEST marker is due at its start (R397, R477). -/
def noteTest (s : State) (ch : Nat) : State :=
  match s.ownerOf (ch / 32) with
  | some n =>
    if s.capturing n then s.setCap n { s.cap n with tests := (s.cap n).tests ++ [(s.power.baseTick, ch)] } else s
  | none => s

/-- What the start of a test does to its resource (R229, R397, R600, R684, R763). -/
def startEffect (s : State) (res : Word) : State :=
  let i := resIndex res
  match resType res with
  | 1 =>
    let v := lastValue s i
    noteTest (iuChannelLost { v.2 with ref := { v.2.ref with held := v.2.ref.held ++ [(i, v.1)] } } i) i
  | 2 =>
    let q := s.queue i
    s.setQueue i { q with testing := true, saved := q.words, stages := [] }
  | 3 =>
    match bankBench i with
    | some n => s.setCap n { s.cap n with bankTest := some 0 }
    | none => s
  | 4 =>
    match s.jobOn i with
    | some j => if j.await.isSome then s else preempt s i
    | none => s
  | _ => s

/-- A waiting test may start: tests of one type run one at a time (R754); the interval unit is tested with no measurement or
calibration in progress. -/
def State.testReady (s : State) (t : RefTest) : Bool :=
  !(s.ref.running.any fun r => decide (resType r.res = resType t.res)) &&
    (decide (t.res ≠ resEngine 8) || decide (s.iu.state = .idle)) && !(s.isReplaying && t.requested)

/-- Start the first waiting test of a type (R754). -/
def startTest (s : State) (type : Nat) : State :=
  match s.ref.waiting.find? fun t => decide (resType t.res = type) with
  | none => s
  | some t =>
    if s.live && s.testReady t then
      let s := { s with ref := { s.ref with
        waiting := s.ref.waiting.eraseP fun (x : RefTest) => decide (resType x.res = type),
        running := s.ref.running ++ [{ t with started := s.power.baseTick }] } }
      startEffect s t.res
    else s

/-! ### Channels -/

/-- Insert a marker before the first item of its tick or later. -/
def insertMarker (m : Item) : List Item → List Item
  | [] => [m]
  | x :: t => if m.tick ≤ x.tick then m :: x :: t else x :: insertMarker m t

/-- ARG of a TEST marker whose test has lasted from `start` to tick `now` (R477). -/
def testArg (ch start now : Nat) : Nat := ch + min 0xFFFF (now - start) * 2 ^ 8

/-- An item with the duration of a test that started at `start` filled in where it is its TEST marker. -/
def Item.timed (ch start now : Nat) : Item → Item
  | .marker y t a sh => .marker y t (if y = 4 ∧ t = start ∧ a = ch then testArg ch start now else a) sh
  | .sample t w sh => .sample t w sh

/-- The test of a channel ends: its TEST marker gets its duration, wherever it stands by now (R397, R477). -/
def timeTest (s : State) (ch start : Nat) : State :=
  match s.ownerOf (ch / 32) with
  | none => s
  | some n =>
    let c := s.cap n
    let now := s.power.baseTick
    let f (k : Skein) : Skein := { k with items := k.items.map (Item.timed ch start now), head := k.head.map (Item.timed ch start now) }
    let kept := c.kept.map f
    let before (k : Skein) : Option Skein := kept.find? fun x => decide ((x.num + 1) % 2 ^ 32 = k.num) && x.tailShared
    let g (k : Skein) : Skein := match before k with
      | some x => { k with headData := x.tailBytes }
      | none => k
    s.setCap n { c with
      cur := c.cur.map fun k => g (f k), next := c.next.map f, kept := kept.map g
      tests := c.tests.map fun x => if x = (start, ch) then (start, testArg ch start now) else x }

/-- The TEST marker of a test that a replay injects with its verdict, at its start (R397, R477); inside a shared range it carries SHARED
(R469). -/
def markTest (s : State) (ch start : Nat) : State :=
  match s.ownerOf (ch / 32) with
  | none => s
  | some n =>
    let c := s.cap n
    match c.cur with
    | none => s
    | some k =>
      let t := max start k.start
      let shared := match c.next with
        | some x => decide (x.start ≤ t)
        | none => false
      let m : Item := .marker 4 t (testArg ch start s.power.baseTick) shared
      s.setCap n { c with cur := some { k with items := insertMarker m k.items } }

/-- The channel is compared and stored again: the hold of its test ends (R397). -/
def unholdChannel (s : State) (ch : Nat) : State :=
  { s with ref := { s.ref with held := s.ref.held.filter fun h => h.1 != ch } }

/-- Post STUCK (R395, R401). -/
def postStuck (s : State) (ch : Nat) (v : Verdict) : State :=
  match s.ownerOf (ch / 32) with
  | some n => if s.bstate n = .closed then s else postEvent s n 0x8202 (ch + v.code * 2 ^ 8)
  | none => s

/-- A retired channel: its RETIRE marker falls at the next sample (R398, R477), and a measurement routed from it has lost
events (R684). -/
def retireChannel (s : State) (ch : Nat) : State :=
  let s := iuChannelLost s ch
  match s.ownerOf (ch / 32) with
  | some n => if s.capturing n then s.setCap n { s.cap n with marks := (s.cap n).marks ++ [(5, ch)] } else s
  | none => s

/-! ### Queues and capture SRAM -/

/-- Restore a queue after a let (R229). -/
def restoreQueue (s : State) (i : Nat) : State :=
  let q := s.queue i
  s.setQueue i { q with testing := false, stages := stacked q.saved, saved := [] }

/-- Take a queue out of service (R230). -/
def retireQueue (s : State) (i : Nat) : State :=
  noteFlush (s.setQueue i { s.queue i with
    testing := false, retired := true, saved := [], stages := [], wlock := none }) i

/-- A queue returns empty (R231). -/
def rejoinQueue (s : State) (i : Nat) : State :=
  s.setQueue i { s.queue i with
    testing := false, retired := false, saved := [], stages := [], held := QWord.idle, wlock := none }

/-- Two byte ranges of a bobbin of `size` bytes meet; the first one may wrap. -/
def rangesMeet (size off len lo hi : Nat) : Bool :=
  decide (0 < len ∧ ((off < hi ∧ lo < off + len) ∨ lo + size < off + len))

/-- A skein has records in bank `b` (of 10) of a bobbin, from byte `skip` of its space on. -/
def Skein.inBank (k : Skein) (size b skip : Nat) : Bool :=
  rangesMeet size ((k.offset * 64 + skip) % max 1 size) (k.occupied - skip) (b * 16384) ((b + 1) * 16384)

/-- The bytes of a skein before its shared tail. -/
def Skein.beforeTail (k : Skein) : Nat :=
  64 + (k.recordsOf k.tailShared k.startPos (k.items.filter fun x => !x.shared)).flatten.length

/-- The skeins of a bench that lose data with a bank, oldest first: number, and whether the lost data lay in a shared range,
in which case the skein after it is lost too (R765, R781); `carry` says so of the skein before. -/
def lostSkeins (size b : Nat) : Bool → List Skein → List (Nat × Bool)
  | _, [] => []
  | carry, k :: rest =>
    let tail := k.tailShared && k.inBank size b k.beforeTail
    let hit := carry || k.inBank size b 0
    (if hit then [(k.num, carry || tail)] else []) ++ lostSkeins size b tail rest

/-- Post DATA_LOST (R775). -/
def postLost (s : State) (n num : Nat) (shared : Bool) : State := postEvent s n 0x8B02 (num % 2 ^ 16 + bN shared * 2 ^ 16)

/-- The retire of a bank of a bobbin (R765, R781): the bobbin shrinks; the skein in progress, where it has records there, ends
STOPPED; completed skeins with records there are deleted. -/
def retireBank (s : State) (n b : Nat) : State :=
  let size := s.bobbinBytes n
  let c := s.cap n
  let lost := lostSkeins size b false (c.all ++ c.next.toList)
  let keptNums := c.kept.map Skein.num
  let now := (c.cur.map Skein.num).toList ++ (c.next.map Skein.num).toList
  let s := s.setCap n { c with
    lostBanks := c.lostBanks + 1, bankTest := none, kept := c.kept.filter fun k => !(lost.any fun p => p.1 == k.num) }
  let s := s.each (lost.filter fun p => keptNums.contains p.1) fun s p => postLost s n p.1 p.2
  if lost.any fun p => now.contains p.1 then
    let s := s.each (lost.filter fun p => now.contains p.1 && p.2) fun s p => postLost s n p.1 true
    let s := s.setCap n { s.cap n with next := none }
    endCapture (endSkein s n s.power.baseTick .stopped) n 1
  else s

/-- The shared tail of skein `num` has changed in the bobbin: the skein whose head it is reads it as it stands (R464, R493). -/
def blankHead (s : State) (n num : Nat) : State :=
  let c := s.cap n
  match c.kept.find? fun k => k.num == num with
  | none => s
  | some k =>
    let f (x : Skein) : Skein := if x.num = (num + 1) % 2 ^ 32 ∧ x.headShared ∧ k.tailShared then { x with headData := k.tailBytes } else x
    s.setCap n { c with kept := c.kept.map f, cur := c.cur.map f }

/-- The read of the failing word is performed once more after a let (R755, R764); whether it fails again, and which word it is,
are free values.  On a failure the word reads as 8 zero bytes, DATA_LOST is posted, and the error is a new one. -/
def repeatRead (s : State) (b : Nat) : State :=
  match bankBench b with
  | none => s
  | some n =>
    let again := s.draw 1
    let pick := again.2.draw 32
    let word := pick.2.draw 32
    let size := s.bobbinBytes n
    let here := (s.cap n).kept.filter fun k => k.inBank size (b % 10) 0
    match again.1, here[pick.1 % max 1 here.length]? with
    | 1, some k =>
      let s := word.2
      let w := word.1 % (k.recordBytes.length / 8 + 1)
      let s := s.setCap n { s.cap n with
        kept := (s.cap n).kept.map fun (x : Skein) => if x.num = k.num then { x with holes := x.holes ++ [w] } else x }
      let s := blankHead s n k.num
      raiseFault (postLost s n k.num false) (resSram b) 0x0301
    | _, _ => again.2

/-! ### Blocks and lanes -/

/-- ORIGIN of a block retired with a fault code; for a requested test a free value other than 0b00 (R557, R576). -/
def originOf (s : State) (code : Nat) : Nat × State :=
  if code = 0x0501 then (1, s) else if code = 0x0502 then (2, s) else if code = 0x0503 then (3, s)
  else let d := s.draw 2; (1 + d.1 % 3, d.2)

/-- Post SL_LANE_STATE to the open benches whose LANES names the lane. -/
def postLaneState (s : State) (x : Nat) : State :=
  s.each (s.openBenches.filter fun n => (fld (s.rd .slSCfg n) 1 0).testBit x) fun s n =>
    postEvent s n 0x8602 (x + (s.lane x).state.code * 2)

/-- Bench `n` has undurable data on lane `x`: bytes waiting for a page there, or a released block that is not durable and has a page
programmed there (R532, R578). -/
def State.undurableOn (s : State) (n x : Nat) : Bool :=
  let c := s.cmp n
  (match c.slot with
    | some (y, _) => y == x
    | none => false) || c.queued.any (fun q => q.1 == x) ||
    ((s.lane x).issued.any fun i => i.page.bench == n && i.page.type == 1) ||
    c.released.any fun b => b.parts.any fun p => match s.findPage n (s.sess n).session p.1 with
      | some (y, _, _) => y == x
      | none => false

/-- The tests of blocks of a lane are abandoned, and the blocks stay suspect (R761); a command that asked for one completes
RETIRED. -/
def abandonBlocks (s : State) (x code : Nat) : State :=
  let isIt (t : RefTest) : Bool := decide (resType t.res = 5) && decide (resIndex t.res / 2 ^ 24 = x)
  let gone := (s.ref.waiting ++ s.ref.running).filter isIt
  let s := { s with ref := { s.ref with
    waiting := s.ref.waiting.filter fun t => !isIt t, running := s.ref.running.filter fun t => !isIt t,
    probation := s.ref.probation.filter fun r => !(gone.any fun t => decide (t.res = r)) } }
  s.each gone fun s t =>
    let b := resIndex t.res % 2 ^ 24
    let l := s.lane x
    let h := l.hankOf b
    let s := if t.requested then s
      else s.setLane x (l.setHank h { l.hank h with suspects := (l.hank h).suspects ++ [(b, t.code)] })
    match t.by_ with
    | some (op, st, tag) => complete s st op tag .retired code
    | none => s

/-- The retire of a lane takes effect (R142, R517, R578, R761): streams with undurable data on it, and those it leaves without a lane,
stop, and those whose LANES names the other lane in service resume at once. -/
def retireLane (s : State) (x code : Nat) : State :=
  let hit := s.benchList.filter fun n => decide ((s.cmp n).state = .running) && s.undurableOn n x
  let l := s.lane x
  let s := match l.moving with
    | some (_, new) => freeHank s x new
    | none => s
  let s := s.setLane x { s.lane x with state := .retired, moving := none, relocate := [], issued := [] }
  let s := if s.isReady || decide (s.boot.error ≠ 0) then s else { s with boot := { s.boot with error := 0x20 } }
  let s := postLaneState (abandonBlocks s x code) x
  let left := s.benchList.filter fun n => (fld (s.rd .slSCfg n) 1 0).testBit x && (s.lanesFor n).isEmpty
  let s := s.each (hit ++ left) fun s n => stopStream s n .laneRetired
  s.each hit resumeStream

/-- Retire lane `x` without a test: LANE_TABLE (R560, R760). -/
def loseTable (s : State) (x : Nat) : State :=
  if s.isRetired (resLane x) then s else retireLane (retireUntested s (resLane x) 0x0603) x 0x0603

/-- A retired block is entered in its lane's table; a table that overflows retires the lane (R557, R560, R576); the lane test
follows (R577). -/
def retireBlock (s : State) (x b code : Nat) : State :=
  let o := originOf s code
  let s := enterBad o.2 x b o.1
  if (s.lane x).tableLost then loseTable s x else raiseFault s (resLane x) 0x0602

/-! ### Register banks -/

/-- Survo firmware restores a bench window: it rewrites BN_CTRL and BN_OWN from its record of their last write, every other C
and G field returns to its reset value with fresh parity, BN_STAGE.PARITY clears (R210). -/
def restoreWindow (s : State) (n : Nat) : State :=
  let lo := 0x2000 + n * 0x800
  let isKept (a : Nat) : Bool := decide (a < lo ∨ lo + 0x800 ≤ a) || decide (a = lo) || decide (a = lo + 0xC)
  let bits (a : Nat) : Word := match regAt a with
    | some r => r.name.row.bits .a
    | none => 0
  let s := s.each (s.badParity.filter fun x => decide (x.addr = lo ∨ x.addr = lo + 0xC)) fun s x =>
    if x.inEffect then s.setActWord x.addr x.word else s.setRegWord x.addr x.word
  let s := s.each ((s.regs.map Prod.fst).filter fun a => !isKept a) fun s a =>
    s.setRegWord a ((regDefault a &&& ~~~ bits a) ||| (s.regWord a &&& bits a))
  let s := s.each ((s.act.map Prod.fst).filter fun a => !isKept a) fun s a => s.setActWord a (regDefault a)
  let s := { s with badParity := s.badParity.filter fun x => isKept x.addr }
  s.setSess n { s.sess n with parity := false, restoreDue := false }

/-- After a let of a bench window's bank: a window whose mismatch was found while its bench was CLOSED or RESETTING is restored,
that of a RESETTING bench after its reset (R210). -/
def windowLet (s : State) (n : Nat) : State :=
  if (s.sess n).restoreDue ∧ s.bstate n ≠ .resetting then restoreWindow s n else s

/-- The bench of a register bank. -/
def bankWindow (b : Nat) : Option Nat := if 4 ≤ b ∧ b < 12 then some (b - 4) else none

/-- FAULTED once a bank has left or rejoined: the code of a retired bank outside the bench windows (R767). -/
def refreshFaulted (s : State) : State :=
  let f := s.ref.retired.find? fun r => decide (resType r.1 = 7) && (bankWindow (resIndex r.1)).isNone
  { s with ref := { s.ref with faulted := f.map Prod.snd } }

/-! ### Verdicts -/

/-- A channel's test has ended in a let: the stuck-at monitor asks for no further one until its value changes (R396). -/
def quietChannel (s : State) (ch : Nat) : State :=
  { s with ref := { s.ref with quiet := if s.ref.quiet.contains ch then s.ref.quiet else s.ref.quiet ++ [ch] } }

/-- The effects of a let on its resource (R228 to R229, R395, R396, R513, R576, R711, R764). -/
def letEffect (s : State) (t : RefTest) : State :=
  let i := resIndex t.res
  match resType t.res with
  | 1 =>
    let s := quietChannel s i
    if t.code = 0x0101 then postStuck s i .let_ else s
  | 3 => if t.code = 0x0301 then repeatRead s i else s
  | 4 => wakeJobs s t.res
  | 7 =>
    match bankWindow i with
    | some n => windowLet s n
    | none => s
  | 8 => if t.requested && !s.tw.stuck then s else padsLet s
  | _ => s

/-- The effects of a retire on its resource (R230, R395, R398, R514, R576, R578, R597, R711, R765 to R767). -/
def retireEffect (s : State) (t : RefTest) : State :=
  let i := resIndex t.res
  match resType t.res with
  | 1 =>
    let s := retireChannel s i
    if t.code = 0x0101 then postStuck s i .retire else s
  | 2 => retireQueue s i
  | 3 =>
    match bankBench i with
    | some n => retireBank s n (i % 10)
    | none => s
  | 4 => retireEngine (if i = 8 then iuDiscard s else s) i (if t.requested then typeCode t.res else t.code)
  | 5 => retireBlock s (i / 2 ^ 24) (i % 2 ^ 24) t.code
  | 6 => retireLane s i (if t.requested then typeCode t.res else t.code)
  | 7 => if (bankWindow i).isNone then refreshFaulted s else s
  | 8 => releaseXfers { s with tw := { s.tw with retired := true } }
  | _ => s

/-- What ends with a test whatever its verdict: the hold of a channel and its TEST marker, the march test of a queue, the
buffering of a bank (R229, R397, R763). -/
def endEffect (s : State) (t : RefTest) : State :=
  let i := resIndex t.res
  match resType t.res with
  | 1 => unholdChannel (timeTest s i t.started) i
  | 2 => restoreQueue s i
  | 3 =>
    match bankBench i with
    | some n => s.setCap n { s.cap n with bankTest := none }
    | none => s
  | _ => s

/-- What a rejoin does to its resource (R231, R382, R580, R628, R751, R771). -/
def rejoinEffect (s1 : State) (res : Word) : State :=
  let i := resIndex res
  match resType res with
  | 2 => rejoinQueue s1 i
  | 3 =>
    match bankBench i with
    | some n => s1.setCap n { s1.cap n with lostBanks := (s1.cap n).lostBanks - 1 }
    | none => s1
  | 4 => postEngState s1 i 0
  | 5 =>
    let x := i / 2 ^ 24
    changeTable s1 x fun t => t.filter fun e => e.1 != i % 2 ^ 24
  | 6 => postLaneState (s1.setLane i { s1.lane i with state := .ready }) i
  | 7 =>
    match bankWindow i with
    | some n => windowLet s1 n
    | none => refreshFaulted s1
  | 8 => { s1 with tw := { s1.tw with retired := false, stuck := false } }
  | _ => s1

/-- A resource rejoins: at the boundary of its type, or at once where it has none (R771 to R774). -/
def rejoinNow (s : State) (res : Word) : State := rejoinEffect (bookReturn s res) res

/-- The resource rejoins at the verdict of its re-test: a queue, a register bank, a pool granule, a channel of a pod that no
bench owns, an engine of a ply whose engines run no job, and the pads while the bus is idle (R751). -/
def State.rejoinsAtOnce (s : State) (res : Word) : Bool :=
  let i := resIndex res
  match resType res with
  | 1 => (s.ownerOf (i / 32)).isNone
  | 2 => true
  | 3 => decide (80 ≤ i)
  | 4 => s.engineList.all fun e => decide (s.engPly e ≠ s.engPly i) || (s.engine e).job.isNone
  | 7 => true
  | 8 => !s.tw.busy
  | _ => false

/-- A re-test ends (R771, R779): on a pass the resource waits for its boundary, its retired bit and its probation standing
until then; on a failure it stays retired. -/
def retestVerdict (s : State) (t : RefTest) (pass : Bool) : State :=
  let code := typeCode t.res
  if pass then
    let s := reportVerdict s t.res code .let_ false true
    let s := { s with ref := { s.ref with rejoining := s.ref.rejoining ++ [t.res] } }
    let s := if resType t.res = 1 then quietChannel s (resIndex t.res) else s
    if s.rejoinsAtOnce t.res then rejoinNow s t.res else s
  else
    let s := reportVerdict s t.res code .retire false true
    let s := { s with ref := { s.ref with probation := s.ref.probation.filter fun r => decide (r ≠ t.res) } }
    match resType t.res with
    | 2 => retireQueue s (resIndex t.res)
    | 6 => postLaneState (s.setLane (resIndex t.res) { s.lane (resIndex t.res) with state := .retired }) (resIndex t.res)
    | _ => s

/-- The command or the GO that asked for a test is answered (R786); a command whose deadline has expired by then with TIMEOUT (R294). -/
def answerTest (s : State) (t : RefTest) (pass : Bool) : State :=
  match t.by_, t.late with
  | some (op, st, tag), some d => complete s st op tag .timeout d
  | some (op, st, tag), none =>
    if pass then complete s st op tag .done 0 else complete s st op tag .retired (typeCode t.res)
  | none, _ =>
    if t.requested then { s with ref := { s.ref with go := false, result := if pass then 1 else 2 } } else s

/-- CMP_SELFCHECK events: with the verdict on a compression engine, to the benches whose job has failed its self-check on it (R512,
R540). -/
def postSelfcheck (s : State) (res : Word) (v : Verdict) (benches : List Nat) : State :=
  s.each benches fun s n => postEvent s n 0x8503 (resIndex res + v.code * 2 ^ 8)

/-- The benches that wait for the verdict on an engine that has failed a self-check; they are told once. -/
def takeSelfchecks (s : State) (res : Word) : List Nat × State :=
  ((s.ref.selfchecks.filter fun x => decide (x.1 = res)).map Prod.snd,
    { s with ref := { s.ref with selfchecks := s.ref.selfchecks.filter fun x => decide (x.1 ≠ res) } })

/-- A skein boundary of the bench that owns a channel or a bobbin bank, due by now, comes before the verdict on it (R402, R782). -/
def dueFirst (s : State) (res : Word) : State :=
  if resType res = 1 ∨ resType res = 3 then
    match s.resOwner res with
    | some n => if s.capturing n then followCapture (runDue s n s.power.baseTick) n else s
    | none => s
  else s

/-- The verdict of the test that runs on a type of resource (R753 to R759, R771). -/
def endTest (s : State) (type : Nat) (pass : Bool) : State :=
  match s.ref.running.find? fun t => decide (resType t.res = type) with
  | none => s
  | some t =>
    let s := dueFirst s t.res
    let s := { s with ref := { s.ref with running := s.ref.running.filter fun x => decide (resType x.res ≠ type) } }
    let s := endEffect s t
    let s := if t.retest then retestVerdict s t pass
      else
        let w := takeSelfchecks s t.res
        let r := bookVerdict w.2 t pass
        if r.1 then postSelfcheck (retireEffect r.2 t) t.res .retire w.1
        else postSelfcheck (letEffect r.2 t) t.res .let_ w.1
    answerTest s t pass

/-- A loopback test that Survo firmware runs for FE_HEALTH on one channel, start to verdict (R397, R409). -/
def testChannel (s : State) (ch : Nat) (pass : Bool) : State :=
  let t : RefTest := ⟨resChannel ch, 0x0100, s.power.baseTick, true, false, none, none⟩
  if s.isRetired t.res ∨ s.underTest t.res then s
  else
    let r := bookVerdict (iuChannelLost s ch) t pass
    if r.1 then retireEffect r.2 t else letEffect r.2 t

/-- A resource that has passed its re-test reaches the boundary of its type (R751, R771): for channels and bobbin banks only
while the bench takes no capture, whose own boundaries are the arm and the re-arm. -/
def reachBoundary (s : State) (res : Word) : State :=
  if s.ref.rejoining.contains res then
    match resType res, s.resOwner res with
    | 1, some n => if s.capturing n then s else rejoinNow s res
    | 3, some n => if s.capturing n then s else rejoinNow s res
    | _, _ => rejoinNow s res
  else s

/-! ### REF_TEST (R786, R788) -/

/-- The block of a lane holds data of a kept skein. -/
def State.blockKept (s : State) (x b : Nat) : Bool :=
  let l := s.lane x
  l.pages.any fun e => decide (l.blockOfPage (e.1 / 4096) (e.1 % 4096) = b) && s.pageLive e.2

/-- Why REF_TEST of a resource is refused (R786, R788). -/
def State.testRefused (s : State) (r : Word) : Refuse :=
  let i := resIndex r
  if !s.resExists r then some (.badArg, 2)
  else if s.isRetired r || s.underTest r || s.onProbation r then some (.badState, 0)
  else if resType r = 5 ∧ s.blockKept (i / 2 ^ 24) (i % 2 ^ 24) then some (.badState, 0)
  else if resType r = 7 then
    match bankWindow i with
    | some n => if s.bstate n = .closed ∨ s.bstate n = .halted then none else some (.badState, 0)
    | none => none
  else none

end Sys2Proof.Machine
end

