-- ==== Sys2Proof/Machine/Usb.lean ====
section
/-! DEFINITION. The USB host link: attach and loss, bulk frames, bulk containers (R722 to R750). -/

namespace Sys2Proof.Machine

/-! ### The link -/

/-- The code of a link state (USB_STATUS.LINK). -/
def Link.code : Link → Nat
  | .detached => 0 | .highSpeed => 1 | .superSpeed => 2 | .suspended => 3

/-- USB_STATUS. -/
def State.usbStatus (s : State) : Word :=
  pack [(s.usb.link.code, 0), (s.usb.addr.toNat, 2), (bN s.usb.fsReject, 16)]

/-- USB_ID (R725). -/
def State.usbId (s : State) : Word := pack [(s.part.vid.toNat, 0), (0xA909, 16)]

/-- The link carries data: attached, enumerated, not suspended. -/
def State.usbUp (s : State) : Bool :=
  s.live && s.usb.enumerated && (decide (s.usb.link = .highSpeed) || decide (s.usb.link = .superSpeed))

/-- The A9 may enable its pull-up: VBUS and the USB rails are present, and no Full-Speed host has been rejected (R54, R150,
R724). -/
def State.mayAttach (s : State) : Bool := s.power.vbus && s.part.usbSupplied && s.power.usbRails && !s.usb.fsReject

/-- Attach: SS_DIS takes effect (R723). -/
def attach (s : State) : State :=
  if s.mayAttach then { s with usb := { s.usb with pullup := true, hsOnly := bitB (s.rd .usbCtrl) 0 } } else s

/-! ### Loss of the link (R30, R31, R345, R370, R741) -/

/-- End the administrator session: staging that no commit has taken is discarded (R345, R370). -/
def endAdmin (s : State) : State :=
  { s with fw := { s.fw with admin := none, staging := if s.fw.commit.isSome then s.fw.staging else none } }

/-- Take away the engine work of a command, its staging and its measurement. -/
def dropWork (s : State) (st : Stream) (tag : BitVec 8) : State :=
  match s.jobOf st tag with
  | none => s
  | some j =>
    let s := match j.kind with
      | .exportJob _ _ out => freeStaging s j.bench out
      | .measure _ _ => iuAbandon s j.bench
      | _ => s
    dropJob s j.id

/-- Complete with PARTIAL every ACCEPTED command of bench `n` that was sending DATA; ARG is the bytes sent (R741). -/
def loseData (s : State) (n : Nat) : State :=
  let st : Stream := .bench (Fin.ofNat 8 n)
  let e := s.endpoint (n + 1)
  let sending (a : Accepted) : Bool := decide (0 < a.sent) || e.data.any fun d => d.tag == a.tag
  let hit := (s.stream st).outstanding.filter sending
  let staged := e.data.foldl (fun k d => k + d.staging) 0
  let s := freeStaging (s.setEndpoint (n + 1) { e with data := [], partialOut := [], rest := none }) n staged
  let s := { s with storage := { s.storage with
    reads := s.storage.reads.filter fun r => !(r.bench == n && hit.any fun a => a.tag == r.tag) } }
  s.each hit fun s a => complete (dropWork s st a.tag) st a.op a.tag .partial_ a.sent

/-- A bench opened over USB becomes DETACHED; its RSP frames are discarded (R30, R31). -/
def detachBench (s : State) (n : Nat) : State :=
  let x := s.sess n
  if x.state ≠ .closed ∧ x.transport = .usb then
    let s := s.setSess n { x with detached := true }
    let st : Stream := .bench (Fin.ofNat 8 n)
    flushQueue (s.setStream st { s.stream st with held := [] }) (n * 8 + 1)
  else s

/-- The link detaches, or the bus is reset (R30, R345, R741, R746). -/
def linkLost (s : State) (busReset : Bool) : State :=
  let s := if busReset then s.bumpSat .usbCnt 0 0 23 16 1
    else if s.usb.link = .detached then s else s.bumpSat .usbCnt 0 0 31 24 1
  let s := s.each s.benchList detachBench
  let s := s.each s.benchList loseData
  let s := flushQueue (s.setStream .adminUsb { s.stream .adminUsb with held := [], events := [] }) 67
  let s := s.setEndpoint 9 {}
  let s := if s.fw.admin = some .usb then endAdmin s else s
  { s with usb := { s.usb with
      link := if busReset then s.usb.speed else .detached, addr := 0, enumerated := false, remoteWakeup := false,
      signalling := false } }

/-- The A9 takes its pull-up away (R724, R744). -/
def dropPullup (s : State) : State :=
  let s := if s.usb.link = .detached then s else linkLost s false
  { s with usb := { s.usb with pullup := false } }

/-- VBUS crosses its threshold (R63, R724). -/
def vbusTo (s : State) (high : Bool) : State :=
  let s := { s with power := { s.power with vbus := high } }
  if high then s
  else
    let s := dropPullup s
    { s with usb := { s.usb with fsReject := false } }

/-- The link attaches at the speed that host and A9 reach (R723). -/
def linkUp (s : State) (superSpeed : Bool) : State :=
  if s.usb.link ≠ .detached then s
  else
    let l : Link := if superSpeed && !s.usb.hsOnly then .superSpeed else .highSpeed
    { s with usb := { s.usb with link := l, speed := l } }

/-- An upper-case hexadecimal digit. -/
def hexDigit (d : Nat) : Byte := if d < 10 then BitVec.ofNat 8 (0x30 + d) else BitVec.ofNat 8 (0x37 + d)

/-- The values of R725 in the order of its table: class, idVendor, idProduct, bcdDevice, the serial number's digits, and the bulk
packet size of the present speed.  In USB recovery idProduct is 0xA9F0 (R136). -/
def State.descriptorData (s : State) : List Byte :=
  let v := s.boot.version
  leBytes 1 0xFF ++ leBytes 2 s.part.vid.toNat ++ leBytes 2 (if s.boot.phase = .recovery then 0xA9F0 else 0xA909) ++
    [BitVec.ofNat 8 (fld v 15 0), BitVec.ofNat 8 (fld v 31 16)] ++
    ((List.range 16).map fun i => hexDigit (s.part.uid.toNat / 2 ^ (60 - 4 * i) % 16)) ++
    leBytes 2 (if s.usb.speed = .superSpeed then 1024 else 512)

/-- One request on endpoint 0 (R725, R736, R745). -/
def controlRequest (s : State) (superSpeed : Bool) (req : CtlReq) : State :=
  if !s.live || !s.usb.pullup then s
  else
    let s := linkUp s superSpeed
    let u := { s.usb with stall := false, ctlData := [] }
    match req with
    | .getDescriptor => { s with usb := { u with ctlData := s.descriptorData } }
    | .setAddress a => { s with usb := { u with addr := a } }
    | .setConfiguration => { s with usb := { u with enumerated := true } }
    | .setRemoteWakeup on => { s with usb := { u with remoteWakeup := on } }
    | .unsupported => { s with usb := { u with stall := true } }

/-! ### Bulk OUT (R727 to R729, R735) -/

/-- The queue that an OUT endpoint feeds (R726, R727). -/
def State.outQueue (s : State) (ep : Nat) : Option Nat :=
  if 1 ≤ ep ∧ ep ≤ s.member.benches then some ((ep - 1) * 8) else if ep = 9 then some 66 else none

/-- Push one frame of 16 words: the first queue word tagged MARK (R225, R727). -/
def pushFrame (s : State) (q : Nat) (ws : List Word) : State :=
  match frameWords ws with
  | [] => s
  | d :: t => t.foldl (fun s d => pushHost s q .bulkOut d .data) (pushHost s q .bulkOut d .mark)

/-- Push every complete frame of the words; the rest is the partial frame (R727); `fuel` bounds the frames. -/
def pushFrames (s : State) (q : Nat) (ws : List Word) : Nat → List Word × State
  | 0 => (ws, s)
  | fuel + 1 => if ws.length < 16 then (ws, s) else pushFrames (pushFrame s q (ws.take 16)) q (ws.drop 16) fuel

/-- Words arrive on a bulk OUT endpoint; the A9 NAKs them while an earlier frame waits for its queue (R727, R729). -/
def bulkOut (s : State) (ep : Nat) (ws : List Word) : State :=
  match s.outQueue ep with
  | none => s
  | some q =>
    if !s.usbUp || (s.queue q).waiting.any fun w => decide (w.1 = .bulkOut) then s
    else
      let s := if ep < 9 then moveUsb s (ep - 1) (4 * ws.length) else s
      let all := (s.endpoint ep).partialOut ++ ws
      let r := pushFrames s q all (all.length / 16)
      r.2.setEndpoint ep { r.2.endpoint ep with partialOut := r.1 }

/-- A bulk OUT transfer ends inside a frame (R728). -/
def partialFrame (s : State) (ep : Nat) : State :=
  match s.outQueue ep with
  | none => s
  | some _ =>
    if !s.usbUp then s
    else (s.setEndpoint ep { s.endpoint ep with partialOut := [] }).bumpSat .usbCnt 0 0 15 0 1

/-! ### Bulk IN (R730 to R734) -/

/-- The queue whose words an IN endpoint sends as RSP containers. -/
def inRsp (ep : Nat) : Nat := if ep = 9 then 67 else (ep - 1) * 8 + 1

/-- The EVT queue an IN endpoint sends. -/
def inEvt (ep : Nat) : Nat := (ep - 1) * 8 + 2

/-- The unit may read the queue: no march test, no retire, no reset. -/
def State.readable (s : State) (q : Nat) : Bool := !(s.queue q).testing && !(s.queue q).retired && !s.queueResetting q

/-- A response frame is ready: its first word stands in stage 0, and the others are behind it. -/
def State.rspReady (s : State) (ep : Nat) : Bool :=
  s.readable (inRsp ep) && !(s.queue (inRsp ep)).isEmpty && decide (8 ≤ (s.queue (inRsp ep)).count)

/-- An event word is ready. -/
def State.evtReady (s : State) (ep : Nat) : Bool :=
  if ep = 9 then !(s.stream .adminUsb).events.isEmpty
  else s.readable (inEvt ep) && !(s.queue (inEvt ep)).isEmpty

/-- Words of a kind wait on the endpoint, ready or not. -/
def State.kindWaits (s : State) (ep k : Nat) : Bool :=
  if k = 1 then decide (0 < (s.queue (inRsp ep)).count)
  else if ep = 9 then !(s.stream .adminUsb).events.isEmpty else decide (0 < (s.queue (inEvt ep)).count)

/-- The kind whose first word entered its queue first among those that wait (R733); a RSP frame where the order of no word is
known. -/
def State.nextKind (s : State) (ep : Nat) : Option Nat :=
  match (s.endpoint ep).order.find? fun k => s.kindWaits ep k with
  | some k => some k
  | none => if s.rspReady ep then some 1 else if s.evtReady ep then some 2 else none

/-- Deliver `k` words of a queue to a unit, which waits for each to fall to stage 0. -/
def deliverMany (s : State) (q : Nat) : Nat → List QWord × State
  | 0 => ([], s)
  | k + 1 =>
    let r := deliver (settleQueue s q) q
    let t := deliverMany r.2 q k
    (r.1 :: t.1, t.2)

/-- The number of event words of the next EVT container: up to 16, ended before a POISON word, which travels alone (R730,
R731). -/
def evtRun : Nat → List QWord → Nat
  | 0, _ => 0
  | _, [] => 0
  | k + 1, w :: t => if wordParity w.data w.tag = w.par ∧ w.tag ≠ .poison then 1 + evtRun k t else 0

/-- A container is sent. -/
def sendContainer (s : State) (ep : Nat) (c : Container) : State :=
  let s := s.setEndpoint ep { s.endpoint ep with sent := some c }
  if ep < 9 then moveUsb s (ep - 1) c.payload.length else s

/-- The container of queue words. -/
def wordsContainer (kind : Nat) (ws : List QWord) : Container :=
  ⟨kind, 0, ws.any fun w => decide (w.tag = .poison), false, ws.flatMap fun w => bytesOfDWord w.data⟩

/-- Send the next response frame (R731). -/
def sendRsp (s : State) (ep : Nat) : State :=
  let r := deliverMany s (inRsp ep) 8
  sendContainer r.2 ep (wordsContainer 1 r.1)

/-- Send the next event words (R731). -/
def sendEvt (s : State) (ep : Nat) : State :=
  if ep = 9 then
    let x := s.stream .adminUsb
    let ds := x.events.take 16
    let s := s.setStream .adminUsb { x with events := x.events.drop 16 }
    let e := s.endpoint 9
    let s := s.setEndpoint 9 { e with order := ds.foldl (fun o _ => o.erase 2) e.order }
    sendContainer s 9 ⟨2, 0, false, false, ds.flatMap bytesOfDWord⟩
  else
    let k := max 1 (evtRun 16 (s.queue (inEvt ep)).words)
    let r := deliverMany s (inEvt ep) k
    sendContainer r.2 ep (wordsContainer 2 r.1)

/-- The skein that the host has read to its end (R82). -/
def markRead (s : State) (n : Nat) (num : Option Nat) : State :=
  let c := s.cap n
  s.setCap n { c with kept := c.kept.map fun k => if num = some k.num then { k with hostRead := true } else k }

/-- Send the next DATA container; after the LAST one the command completes (R732). -/
def sendItem (s : State) (ep : Nat) (d : DataItem) (rest : List DataItem) : State :=
  let n := ep - 1
  let st : Stream := .bench (Fin.ofNat 8 n)
  let s := s.setEndpoint ep { s.endpoint ep with data := rest }
  let x := s.stream st
  let s := s.setStream st { x with outstanding := x.outstanding.map fun a =>
    if a.tag = d.tag then { a with sent := a.sent + d.bytes.length } else a }
  let s := sendContainer s ep ⟨3, d.tag, false, d.last, d.bytes⟩
  match d.done with
  | none => s
  | some (op, code, arg) => completeCode (markRead (freeStaging s n d.staging) n d.read) st op d.tag code arg

/-- What an IN endpoint sends next: the rest of a container cut short (3 for DATA, 4 for RSP or EVT), else RSP (1) or EVT (2) in the
order of their first words, ahead of DATA that the regulator of the USB path lets start (R617, R733, R734, R750). -/
def State.nextIn (s : State) (ep : Nat) : Option Nat :=
  let e := s.endpoint ep
  let data : Option Nat := if !e.data.isEmpty && s.mayStart (ep - 1) 2 then some 3 else none
  if !s.usbUp || (s.outQueue ep).isNone then none
  else if e.rest.isSome then some 4
  else if (e.data.head?.map DataItem.rest).getD false then data
  else match s.nextKind ep with
    | some 1 => if s.rspReady ep then some 1 else none
    | some 2 => if s.evtReady ep then some 2 else none
    | _ => data

/-- Send what is left of a RSP or EVT container (R750). -/
def sendRest (s : State) (ep : Nat) : State :=
  s.setEndpoint ep { s.endpoint ep with sent := (s.endpoint ep).rest, rest := none }

/-- The A9 sends the next ready container of an IN endpoint. -/
def bulkIn (s : State) (ep : Nat) : State :=
  match s.nextIn ep, (s.endpoint ep).data with
  | some 1, _ => sendRsp s ep
  | some 2, _ => sendEvt s ep
  | some 3, d :: rest => sendItem s ep d rest
  | some 4, _ => sendRest s ep
  | _, _ => s

/-- The container sent last ends after `k` bytes of its payload; the others wait as the rest of it (R750). -/
def cutSent (s : State) (ep k : Nat) : State :=
  let e := s.endpoint ep
  match e.sent with
  | some c =>
    if k < c.payload.length then
      s.setEndpoint ep { e with sent := some { c with payload := c.payload.take k }, rest := some { c with payload := c.payload.drop k } }
    else s
  | none => s

/-- CLEAR_FEATURE falls during the container that an IN endpoint is sending, `k` bytes of its payload gone: it ends there, and the rest is
a new container of the same TYPE and TAG (R750). -/
def cutContainer (s : State) (ep k : Nat) : State :=
  match s.nextIn ep, (s.endpoint ep).data with
  | some 3, d :: rest =>
    if k < d.bytes.length then
      let first := { d with bytes := d.bytes.take k, done := none, staging := 0, read := none }
      let left := { d with bytes := d.bytes.drop k, rest := true }
      sendItem s ep first (left :: rest)
    else bulkIn s ep
  | some _, _ => cutSent (bulkIn s ep) ep k
  | none, _ => s

/-- CLEAR_FEATURE(ENDPOINT_HALT): on an OUT endpoint a partial frame is discarded; on an IN endpoint a container under way is cut short
(R735, R750). -/
def clearHalt (s : State) (ep : BitVec 8) (gone : Option Nat) : State :=
  if ep.toNat < 128 then s.setEndpoint ep.toNat { s.endpoint ep.toNat with partialOut := [] }
  else match gone with
    | some k => cutContainer s (ep.toNat - 128) k
    | none => s

/-! ### Suspend and resume (R742 to R745) -/

/-- The host suspends the link (R742). -/
def suspendLink (s : State) : State :=
  match s.usb.link with
  | .highSpeed | .superSpeed => { s with usb := { s.usb with link := .suspended } }
  | _ => s

/-- The link is back from suspend. -/
def resumeLink (s : State) : State :=
  if s.usb.link = .suspended then { s with usb := { s.usb with link := s.usb.speed, signalling := false } } else s

/-- A wake other than a USB wake, with the link suspended and remote wakeup enabled, makes the A9 signal it (R745). -/
def signalWakeup (s : State) : State :=
  if s.live ∧ s.usb.link = .suspended ∧ s.usb.remoteWakeup ∧ s.power.lastWake ≠ .usb ∧ s.power.lastWake ≠ .powerOn then
    { s with usb := { s.usb with signalling := true } }
  else s

end Sys2Proof.Machine
end

