-- ==== Sys2Proof/Machine/Power.lean ====
section
/-! DEFINITION. Clocks, power states, the Distaff watcher, and the two depths of reset (R77 to R118, R125 to R128, R853). -/

namespace Sys2Proof.Machine

/-! ### Arming (R101, R184, R462) -/

/-- The arm of bench `n` at the present base tick: its skein boundary falls at once, and the bench enters ARMED, or CAPTURING in
segmented capture (R25, R184, R462). -/
def armBench (s : State) (n : Nat) : State :=
  let t := s.power.baseTick
  let s := s.setCap n { s.cap n with boundary := some (t, false), completed := 0 }
  let s := performBoundary s n
  if s.bstate n = .idle then s.setBState n (if bitB (s.eff .sknCfg n) 0 then .capturing else .armed) else s

/-! ### Power states -/

/-- The code of a power state as PWR_STATUS.PREV_STATE and PSTATE give it (R104). -/
def PState.code : PState → Nat
  | .off => 0 | .sleep => 1 | .doze => 2 | .awake => 3

/-- The code of a wake source (PWR_STATUS.LAST_WAKE). -/
def WakeSource.code : WakeSource → Nat
  | .powerOn => 0 | .distaff => 1 | .timer => 2 | .twoWire => 3 | .usb => 4

/-- PWR_STATUS.PREV_STATE is 0 until the first wake. -/
def prevCode (p : PState) : Nat := if p = .sleep then 1 else if p = .doze then 2 else 0

/-- PWR_STATUS. -/
def State.pwrStatus (s : State) : Word :=
  let p := s.power
  pack [(bN p.refused, 3), (prevCode p.prevState, 4), (p.lastWake.code, 8), (p.wakeRule, 12)]

/-- PWR_CTRL.BOBBIN_RET. -/
def State.bobbinRetained (s : State) : Bool := bitB (s.rd .pwrCtrl) 0

/-- Something of R82 stands against an entry to `target`. -/
def State.entryBlocked (s : State) (target : PState) : Bool :=
  (s.benchList.any fun n => s.capturing n || decide (s.bstate n = .resetting)) ||
    !s.umpire.jobs.isEmpty ||
    ((List.range 2).any fun x => !(s.lane x).issued.isEmpty) || (s.benchList.any fun n => !(s.cmp n).queued.isEmpty) ||
    (decide (target = .sleep) && !s.bobbinRetained &&
      s.benchList.any fun n => (s.cap n).kept.any fun k => !k.hostRead)

/-- Ask for an entry: the scrub and the relocations are suspended first (R585); a refused entry sets REFUSED, an accepted one
clears it and waits for the host to read the response (R82, R83, R86); in a replay the A9 stays AWAKE (R828).  The Bool says
accepted. -/
def requestEntry (s : State) (target : PState) : Bool × State :=
  if s.entryBlocked target then (false, { s with power := { s.power with refused := true } })
  else if s.isReplaying then (true, { s with power := { s.power with refused := false } })
  else (true, { s with
    power := { s.power with refused := false, entry := some target }, storage := { s.storage with suspended := true } })

/-- The entry under way has ended: a K write to PWR_ENTER that was held one deep is carried out (R176). -/
def heldEntry (s : State) : State :=
  match s.power.entryHeld with
  | none => s
  | some t => (requestEntry { s with power := { s.power with entryHeld := none } } t).2

/-- The entry starts (R83 to R85, R783, R820): it waits for every Referee test; a word in a CMD queue or the admin command chain
abandons it; otherwise a link that is not suspended detaches (R744) and the fast clocks stop. -/
def startEntry (s : State) : State :=
  match s.power.entry with
  | none => s
  | some target =>
    if !s.live || !(s.ref.running.isEmpty && s.ref.waiting.isEmpty) then s
    else if (List.range 67).any fun q => (isCmdQueue q || decide (q = 66)) && decide (0 < (s.queue q).count) then
      heldEntry { s with
        power := { s.power with entry := none, refused := true }, storage := { s.storage with suspended := false } }
    else
      let s := if s.usb.link = .suspended then s else dropPullup s
      let s := logPart s 0xD (2 + target.code * 2 ^ 8)
      { s with power := { s.power with state := target, entry := none, elapsed := 0, bobbinRet := s.bobbinRetained } }

/-- The place of a wake source in the order of R111. -/
def WakeSource.rank : WakeSource → Nat
  | .distaff => 0 | .timer => 1 | .twoWire => 2 | .usb => 3 | .powerOn => 4

/-- The power state with a wake source recorded (R89). -/
def Power.record (p : Power) (src : WakeSource) (rule : Nat) : Power :=
  { p with lastWake := src, prevState := p.state, wakeRule := if src = .distaff then rule else p.wakeRule }

/-- A wake source asks for AWAKE, or for DOZE: it acts in SLEEP and DOZE, and begins a wake or raises a wake to DOZE under way to
AWAKE; of the sources of one AON tick the first in the order of R111 is recorded (R87 to R89, R110 to R112). -/
def wakeFor (s : State) (src : WakeSource) (rule : Nat) (target : PState) : State :=
  let p := s.power
  let begun : Power := { p.record src rule with waking := some target, wakeTick := p.atick }
  let asleep := decide (p.state = .sleep) || decide (p.state = .doze)
  match p.waking with
  | none => if p.state = .sleep ∨ (p.state = .doze ∧ target = .awake) then { s with power := begun } else s
  | some w =>
    if asleep && decide (p.wakeTick = p.atick) then
      let q := if src.rank < p.lastWake.rank then p.record src rule else p
      { s with power := { q with waking := some (if target = .awake then .awake else w) } }
    else if asleep && decide (w = .doze) && decide (target = .awake) then { s with power := begun }
    else s

/-! ### The Distaff log (R104 to R107) -/

/-- The word of a log entry (R104). -/
def distaffEntry (seq : BitVec 8) (type : Nat) (p : PState) (pulse level : Bool) (ch rule atick : Nat) : DWord :=
  BitVec.ofNat 64 (atick % 2 ^ 40 + rule % 16 * 2 ^ 40 + ch % 16 * 2 ^ 44 + bN level * 2 ^ 48 + bN pulse * 2 ^ 49 +
    p.code * 2 ^ 50 + type % 16 * 2 ^ 52 + seq.toNat * 2 ^ 56)

/-- DST_LOG_RPTR. -/
def State.distaffRptr (s : State) : Nat := fld (s.rd .dstLogRptr) 12 0

/-- Entries the log holds. -/
def State.distaffHeld (s : State) : Nat := (s.distaff.wptr + 8192 - s.distaffRptr) % 8192

/-- Write a log entry (R104 to R106); nothing is written while LOG_EN is 0. -/
def distaffLog (s : State) (type : Nat) (pulse level : Bool) (ch rule : Nat) : State :=
  if !bitB (s.rd .dstCtrl) 2 then s
  else
    let full := decide (4096 ≤ s.distaffHeld)
    if full && bitB (s.rd .dstCtrl) 1 then s.bumpSat .dstLogLost 0 0 23 0 1
    else
      let d := s.distaff
      let e := distaffEntry d.seq type s.power.state pulse level ch rule s.power.atick
      let w := (d.wptr + 1) % 8192
      let s := { s with distaff := { d with
        log := d.log.put (fun _ => 0) (d.wptr % 4096) e, wptr := w, seq := d.seq + 1 } }
      if full then (s.wr .dstLogRptr 0 0 (W ((w + 4096) % 8192))).bumpSat .dstLogLost 0 0 23 0 1 else s

/-- A software write to DST_LOG_RPTR (R107). -/
def writeRptr (s : State) (v : Nat) : State :=
  if (s.distaff.wptr + 8192 - v % 8192) % 8192 ≤ 4096 then s.wr .dstLogRptr 0 0 (W (v % 8192)) else s

/-! ### Arms (R101, R102, R162) -/

/-- An ARM action takes effect: the bench is armed, or an ARM_REFUSED entry is written. -/
def distaffArm (s : State) (n rule : Nat) : State :=
  if s.bstate n = .idle ∧ n < s.member.benches ∧ s.survoRuns then armBench s n
  else distaffLog s 2 false false 0 rule

/-- An ARM action of a live rule: in a replay it finds its bench CLOSED (R829). -/
def liveArm (s : State) (n rule : Nat) : State :=
  if s.isReplaying then distaffLog s 2 false false 0 rule else distaffArm s n rule

/-! ### The decision table (R95 to R103) -/

/-- M of channel `w`. -/
def State.filterM (s : State) (w : Nat) : Nat := fld (s.rd .dstFilt (w / 4)) (8 * (w % 4) + 6) (8 * (w % 4) + 4) + 1

/-- N of channel `w`, a setting with N > M or 2 N ≤ M acting as N = M (R96). -/
def State.filterN (s : State) (w : Nat) : Nat :=
  let n := fld (s.rd .dstFilt (w / 4)) (8 * (w % 4) + 2) (8 * (w % 4)) + 1
  let m := s.filterM w
  if m < n ∨ 2 * n ≤ m then m else n

/-- The filtered level of a channel from its last tick values (R95). -/
def filterLevel (m n : Nat) (history : BitVec 8) (old : Bool) : Bool :=
  let ones := ((List.range m).filter fun i => history.getLsbD i).length
  if n ≤ ones then true else if n ≤ m - ones then false else old

/-- What one tick gives for a channel: whether its value came from a latched pulse, and its new filtered level (R94, R95). -/
structure TickValue where
  pulse : Bool
  level : Bool
  deriving DecidableEq, Repr

/-- The tick of the sixteen channels: latches read and cleared, values filtered (R94 to R96). -/
def distaffValues (s : State) (levels : BitVec 16) : List TickValue × State :=
  let d := s.distaff
  let step (acc : List TickValue × Store (BitVec 8)) (w : Nat) : List TickValue × Store (BitVec 8) :=
    let l := levels.getLsbD w
    let pulse := decide (l = d.level.getLsbD w) && d.rise.getLsbD w && d.fall.getLsbD w
    let v := l != pulse
    let h := (acc.2.get (fun _ => 0) w <<< 1) ||| (if v then 1 else 0)
    (acc.1 ++ [⟨pulse, filterLevel (s.filterM w) (s.filterN w) h (d.filtered.getLsbD w)⟩], acc.2.put (fun _ => 0) w h)
  let r := (List.range 16).foldl step ([], d.history)
  let f := BitVec.ofNat 16 (bitsOf ((List.range 16).filter fun w => (r.1.getD w ⟨false, false⟩).level))
  (r.1, { s with distaff := { d with level := levels, rise := 0, fall := 0, history := r.2, filtered := f } })

/-- Rule `i` fires: on the filtered levels `old` and `new` of its channel and the counters at the start of the tick (R97, R99). -/
def ruleFires (s : State) (counts : List Nat) (old new : Bool) (rule : Word) : Bool :=
  let chan := match fld rule 26 24 with
    | 0 => !old && new
    | 1 => old && !new
    | 2 => old != new
    | 3 => new
    | 4 => !new
    | 5 => true
    | _ => false
  let c := fld rule 22 21
  let atLimit := decide (fld (s.rd .dstLim c) 23 0 ≤ counts.getD c 0)
  let qual := !bitB rule 23 || (atLimit != bitB rule 20)
  bitB rule 31 && chan && qual

/-- The threshold of the Distaff comparators of pod `p` in mV (R93). -/
def State.distaffThreshold (s : State) (p : Nat) : Nat := 300 + 200 * fld (s.rd .dstThr) (4 * p + 3) (4 * p)

/-- The comparator levels of the sixteen channels at a tick, from the voltages at their balls in mV (R93, R94): accuracy 50 mV,
hysteresis 100 mV. -/
def distaffLevels (s : State) (mv : List Int) : BitVec 16 × State :=
  let r := (List.range 16).foldl (fun (acc : Nat × State) w =>
    let b := acc.2.compare (s.distaffThreshold (w / 2)) 100 50 (s.distaff.level.getLsbD w) (mv.getD w 0)
    (acc.1 + bN b.1 * 2 ^ w, b.2)) (0, s)
  (BitVec.ofNat 16 r.1, r.2)

/-- The actions of a rule that fired (R98, R101, R103, R816); a clear comes before a write of the same tick (R113). -/
def fireRule (s : State) (i : Nat) (rule : Word) (v : TickValue) : State :=
  let c := fld rule 19 18
  let s := match fld rule 17 16 with
    | 1 => s.bumpSat .dstCnt c 0 23 0 1
    | 2 => if s.distaff.written.contains c then s else s.wrFld .dstCnt c 0 23 0 0
    | _ => s
  let ch := fld rule 30 27
  let s := if bitB rule 9 then distaffLog s 0 v.pulse v.level ch i else s
  let s := if bitB rule 8 then latchAlert s (fld rule 7 6) 0 15 i (BitVec.ofNat 8 (ch + bN v.level * 16)) else s
  let s := logPart s 5 (i + fld rule 15 14 * 2 ^ 4 + fld rule 13 13 * 2 ^ 6 + fld rule 12 10 * 2 ^ 7 + fld rule 8 8 * 2 ^ 10 +
    s.power.atick % 2 ^ 40 * 2 ^ 24)
  let arm := bitB rule 13
  let s := if arm || fld rule 15 14 == 2 then wakeFor s .distaff i .awake
    else if fld rule 15 14 = 1 then wakeFor s .distaff i .doze else s
  if !arm then s
  else if s.power.state = .awake then liveArm s (fld rule 12 10) i
  else { s with power := { s.power with arms := s.power.arms ++ [(fld rule 12 10, i)] } }

/-- Rules that ask for AWAKE act before rules that ask for DOZE in the choice of the wake of one tick (R112; log entry 63). -/
def State.wakeFirst (s : State) (fired : List Nat) : Option Nat :=
  fired.find? fun i => bitB (s.rd .dstRule i) 13 || fld (s.rd .dstRule i) 15 14 == 2

/-- The decision table of one tick (R97 to R103): which rules fire is settled on the state at the start of the tick. -/
def distaffRules (s : State) (old : BitVec 16) (vs : List TickValue) : State :=
  if !bitB (s.rd .dstCtrl) 0 then s
  else
    let counts := (List.range 4).map fun c => fld (s.rd .dstCnt c) 23 0
    let value (i : Nat) : TickValue := vs.getD (fld (s.rd .dstRule i) 30 27) ⟨false, false⟩
    let fired := (List.range 16).filter fun i =>
      ruleFires s counts (old.getLsbD (fld (s.rd .dstRule i) 30 27)) (value i).level (s.rd .dstRule i)
    let s := match s.wakeFirst fired with
      | some i => wakeFor s .distaff i .awake
      | none => s
    s.each fired fun s i => fireRule s i (s.rd .dstRule i) (value i)

/-- One AON tick (R78, R79, R93 to R103, R113, R791, R803): the counters, the calendar, Distaff.  With VAON alone present Distaff is
stopped (R80). -/
def aonTick (s : State) (mv : List Int) : State :=
  let awake := s.live
  let p := s.power
  let s := { s with power := { p with
    atick := if p.state = .off then p.atick else (p.atick + 1) % 2 ^ 48
    elapsed := if p.state = .awake then 0 else p.elapsed + 1 } }
  let s := if awake then
      let c := s.cal.nextBt
      { s with cal := c, power := { s.power with baseTick := max s.power.baseTick c.bt } }
    else s
  let s := calendarTick s
  if s.power.state = .off then s
  else
    let s := usesRegs s fun a => decide (0x1000 ≤ a ∧ a < 0x2000)
    let old := s.distaff.filtered
    let l := distaffLevels s mv
    let r := distaffValues l.2 l.1
    let s := distaffRules r.2 old r.1
    { s with distaff := { s.distaff with written := [] } }

/-! ### The return to AWAKE (R79, R90 to R92, R101, R109) -/

/-- The base tick of a return to AWAKE after `elapsed` AON ticks, and the eighths carried (R79). -/
def resumeTick (base eighths elapsed : Nat) : Nat × Nat :=
  let t := base * 8 + eighths + elapsed * 390625
  (t / 8 % 2 ^ 56, t % 8)

/-- A bobbin is treated as empty (R92). -/
def emptyBobbin (s : State) (n : Nat) : State :=
  s.setCap n { s.cap n with cur := none, next := none, kept := [], staging := 0 }

/-- What SLEEP has cost, once the fast domain is restored, in AWAKE or in DOZE: the bobbins without BOBBIN_RET, the interval unit's
tables (R80, R91, R92, R663). -/
def sleepLosses (s : State) : State :=
  if s.power.prevState = .sleep then
    let s := if s.power.bobbinRet then s else s.each s.benchList emptyBobbin
    { s with iu := { s.iu with done := [], calPending := true } }
  else s

/-- The wake timeline reaches its end (R79, R90 to R92, R101, R109, R572, R663); the latched ARM actions act one after another (log
entry 62). -/
def finishWake (s : State) : State :=
  match s.power.waking with
  | none => s
  | some .doze =>
    let s := sleepLosses s
    { s with power := { s.power with state := .doze, waking := none } }
  | some _ =>
    let p := s.power
    let t := resumeTick p.baseTick p.eighths p.elapsed
    let s := { s with
      power := { p with
        state := .awake, waking := none, baseTick := t.1, eighths := t.2, elapsed := 0, wakeBt := t.1,
        wakeAtick := p.atick % 2 ^ 32, arms := [] },
      cal := { s.cal with bt := t.1, btFrac := 0 },
      storage := { s.storage with suspended := false, scrubDue := bitsOf ((List.range 2).filter fun x => s.laneServes x) } }
    let s := logPart (sleepLosses s) 0xD 3
    let s := distaffLog s 1 false false 0 0
    let s := s.each p.arms fun s a => liveArm s a.1 a.2
    let s := if s.usb.link = .suspended then (if p.lastWake = .usb then resumeLink s else s) else attach s
    heldEntry (iuPump (twKick s))

/-! ### Resets (R125 to R128, R853, R118, R717) -/

/-- A lane across a reset of the fast domain: its contents stay, its programs and relocation are lost, its hanks are closed
(R584), and its state waits for the table load. -/
def Lane.afterReset (l : Lane) : Lane :=
  let freed := l.moving.map Prod.snd
  let pages := l.pages.filter fun e => decide (some (e.1 / 4096) ≠ freed)
  let used (h : Nat) : Nat := (pages.filter fun e => decide (e.1 / 4096 = h)).foldl (fun m e => max m (e.1 % 4096 + 1)) 0
  { l with
    state := .absent, nvddr2 := false, mode := 0, ceUsed := 0, issued := [], relocate := [], moving := none, pages := pages,
    hanks := Store.update Hank.init (fun h k =>
      if some h = freed then { k with owner := .free, pages := 0 } else { k with closed := true, pages := used h }) l.hanks }

/-- The boot-status CAUSE of a reset, with every other boot field as it stands before the boot ROM runs; the straps keep the
levels of the last sampling until they are sampled again (R125, R156). -/
def Boot.restart (b : Boot) (cause : BitVec 8) : Boot :=
  { cause := cause, straps := b.straps, copyA := b.copyA, copyB := b.copyB }

/-- Mboron across a reset: the logs stay, a recording's up to its last programmed page (R840). -/
def Mboron.afterReset (r : Mboron) : Mboron := { logs := r.logs, nextLog := r.nextLog }

/-- The fast domain is held in reset (R126, R128, R853): every fast-domain register at its reset value, every session closed,
every job, queue, capture and pending alert gone; the AON domain, the NAND, the pods' rails and the supplies as they were. -/
def fastReset (s : State) (cause : BitVec 8) : State :=
  { s with
    regs := s.regs.keep fun a => decide (0x1000 ≤ a ∧ a < 0x2000),
    act := s.act.keep fun a => decide (0x1000 ≤ a ∧ a < 0x2000),
    badParity := s.badParity.filter fun p => decide (0x1000 ≤ p.addr ∧ p.addr < 0x2000),
    parityAddr := 0, busErr := 0, paths := [], queues := [],
    power := { s.power with
      state := .awake, fastReset := true, baseTick := 0, eighths := 0, elapsed := 0, entry := none, entryHeld := none,
      waking := none, arms := [], writeProtect := true },
    boot := s.boot.restart cause,
    cal := { s.cal with bt := 0, btFrac := 0, commit := s.cal.commit, answer := none },
    sessions := Store.update Session.init (fun _ x => { session := x.session }) s.sessions,
    seqs := [], caps := [], cmps := [], pods := [], streams := [], engines := [], umpire := {},
    lanes := Store.update Lane.init (fun _ l => l.afterReset) s.lanes,
    storage := { catalogue := s.storage.catalogue, tails := s.storage.tails, recordA := s.storage.recordA, recordB := s.storage.recordB },
    iu := { temp := s.iu.temp }, tw := { pointer := 0x1140 }, usb := {}, ref := {}, rpl := s.rpl.afterReset,
    fw := { age := s.fw.age, retained := s.fw.retained, credHash := s.fw.credHash } }

/-- The reset of PART_RESET takes place once the host has read the response or 5 ms have passed (R366). -/
def partResetDue (s : State) : State :=
  match s.fw.partReset with
  | none => s
  | some (st, t) =>
    let read := (s.stream st).held.isEmpty && decide ((s.queue (rspQueue st)).count = 0)
    if s.live ∧ (read ∨ t ≤ s.power.baseTick) then fastReset s 6 else s

/-- A cold reset: the AON domain clears too (R125, R769, R795, R852). -/
def coldResetState (s : State) : State :=
  let t := fastReset s 1
  calendarColdInit { t with
    regs := [], act := [], badParity := [],
    power := { fastReset := true, writeProtect := true, nresetLow := s.power.nresetLow, trip := s.power.trip, tj := s.power.tj,
               hot := s.power.hot, vbus := s.power.vbus, usbLow := s.power.usbLow },
    distaff := {}, sessions := [], fw := {} }

end Sys2Proof.Machine
end

