-- ==== Sys2Proof/Machine/Startup.lean ====
section
/-! DEFINITION. The first second: the boot ROM, recovery, the bad-block tables, pod discovery and READY (R129 to R163,
R541 to R545, R551, R555, R559, R560, R581, R768). -/

namespace Sys2Proof.Machine

/-! ### The boot-status block (R142) -/

/-- The code of PHASE. -/
def Phase.code : Phase → Nat
  | .none => 0 | .rom => 1 | .fwStart => 2 | .bbt => 3 | .pods => 4 | .ready => 6 | .recovery => 0xE | .failed => 0xF

/-- The 8 bytes of the boot-status block; CHECK reads 0 until the boot ROM first fills the block. -/
def Boot.statusBytes (b : Boot) : List Byte :=
  let body : List Byte := [BitVec.ofNat 8 b.phase.code, b.cause, b.flags, b.error, b.fwMajor, b.fwMinor, b.memberByte]
  body ++ [if b.phase = .none then 0 else xorBytes body]

/-- PWR_BOOT0. -/
def Boot.word0 (b : Boot) : Word := W (leNat (b.statusBytes.take 4))
/-- PWR_BOOT1. -/
def Boot.word1 (b : Boot) : Word := W (leNat (b.statusBytes.drop 4))

/-- Write the boot fields. -/
def setBoot (s : State) (f : Boot → Boot) : State := { s with boot := f s.boot }

/-! ### Images (R132 to R143) -/

/-- ERROR of the first check of R134 that an image fails, and none for an image that passes (R143; log entry 66). -/
def imageError (v : ImageView) : Option (BitVec 8) :=
  if !v.nandId then some 0x10
  else if !v.eccOk then some 0x11
  else if v.magic ≠ 0x4F525653 ∨ 229248 < v.length then some 0x12
  else if !v.keyOk then some 0x13
  else if !v.sigOk then some 0x14
  else none

/-- Start an image: FW_START, or the BBT step at once on a member without lanes (R129, R131); its BUILD is a free value. -/
def startImage (s : State) (v : ImageView) (copyB : Bool) : State :=
  let d := s.draw 32
  let lanes := decide (0 < s.member.lanes)
  setBoot d.2 fun b => { b with
    phase := if lanes then .fwStart else .bbt, bbtDone := !lanes, runningB := copyB, rewritten := false, version := v.version,
    build := W d.1, fwMajor := BitVec.ofNat 8 (fld v.version 23 16), fwMinor := BitVec.ofNat 8 (fld v.version 7 0),
    flags := if copyB then b.flags ||| 4 else b.flags }

/-- Enter USB recovery, or FAILED where the board ties the USB rails to VSS (R133, R139). -/
def enterRecovery (s : State) : State :=
  setBoot s fun b => { b with phase := if s.power.usbRails then .recovery else .failed }

/-- Pod discovery begins once the BBT step has ended and the quiet period is over (R131). -/
def tryPods (s : State) : State :=
  if s.boot.phase = .bbt ∧ s.boot.bbtDone ∧ s.boot.quietOver then setBoot s fun b => { b with phase := .pods } else s

/-- The boot ROM begins: it fills the boot-status block with PHASE ROM (R129, R142) and finds whether the USB rails are there. -/
def beginRom (s : State) : State :=
  let s := { s with power := { s.power with usbRails := s.part.usbSupplied && !s.power.usbLow } }
  setBoot s fun t => { t with
    phase := .rom, error := 0,
    flags := BitVec.ofNat 8 (bN t.straps.bootsel * 16 + bN t.straps.openMode * 32)
    memberByte := BitVec.ofNat 8 (fld s.member.param2 7 0) }

/-- The boot ROM runs from 5 ms after the end of the reset cause on, which is 3 ms after the release of the fast domain (R129). -/
def romDue (s : State) : State :=
  if s.live ∧ s.boot.phase = .none ∧ 4800000 ≤ s.power.baseTick then beginRom s else s

/-- The boot ROM reads, verifies and starts the firmware (R132 to R135, R142, R143); `a` and `b` are what it finds where a copy is not
as last programmed. -/
def runBootRom (s : State) (a b : Option ImageView) : State :=
  if s.live ∧ (s.boot.phase = .none ∨ s.boot.phase = .rom) then
    let va := a.getD s.boot.copyA
    let vb := b.getD s.boot.copyB
    let s := if s.boot.phase = .none then beginRom s else s
    let s := setBoot s fun t => { t with copyA := va, copyB := vb }
    if s.member.lanes = 0 ∨ s.boot.straps.bootsel then enterRecovery s
    else match imageError va with
      | none => startImage s va false
      | some e =>
        let s := setBoot s fun t => { t with flags := t.flags ||| 1, error := e }
        match imageError vb with
        | none => startImage s vb true
        | some _ => enterRecovery (setBoot s fun t => { t with flags := t.flags ||| 2 })
  else s

/-- The bytes of the recovery image from `off` on. -/
def State.recBytes (s : State) (off len : Nat) : List Byte :=
  (List.range len).map fun i => s.boot.recovery.get (fun _ => 0) (off + i)

/-- What R134 asks of an image held as bytes. -/
def viewImage (keyHash : List Byte) (bytes : Nat → Nat → List Byte) : ImageView :=
  let word (off : Nat) : Word := W (leNat (bytes off 4))
  let len := (word 8).toNat
  let key := bytes 0x10 32
  { nandId := true, eccOk := true, magic := word 0, version := word 4, length := len,
    keyOk := decide (sha256 key = keyHash),
    sigOk := if len ≤ 229248 then Config.ed25519Verify key (bytes 0x30 64) (bytes 0 16 ++ bytes 0x80 len) else false }

/-- Answer or stall the control request (R136). -/
def setStall (s : State) (b : Bool) : State := { s with usb := { s.usb with stall := b } }

/-- REC_WRITE (R136). -/
def recoveryWrite (s : State) (offset : Nat) (data : List Byte) : State :=
  if s.live ∧ s.boot.phase = .recovery ∧ offset ≤ 55 ∧ data.length ≤ 4096 then
    let bytes := data.mapIdx fun i b => (offset * 4096 + i, b)
    setStall (setBoot s fun b => { b with recovery := bytes.foldl (fun m e => m.put (fun _ => 0) e.1 e.2) b.recovery }) false
  else setStall s true

/-- REC_BOOT (R137, R138): the image starts with the pull-up taken away, which the timeline enables again, and the quiet period runs
anew (R129). -/
def recoveryBoot (s : State) : State :=
  if s.live ∧ s.boot.phase = .recovery then
    let v := viewImage s.part.keyHash s.recBytes
    match imageError v with
    | some _ => setStall s true
    | none => dropPullup (setBoot (startImage (setStall s false) v false) fun b => { b with flags := b.flags ||| 8, quietOver := false })
  else setStall s true

/-- REC_STATUS (R136). -/
def recoveryStatus (s : State) : State :=
  if s.live ∧ s.boot.phase = .recovery then
    let s := setStall s false
    { s with usb := { s.usb with ctlData := s.boot.statusBytes } }
  else setStall s true

/-! ### The bad-block tables (R541 to R545, R551, R555, R557, R559, R560) -/

/-- The copy of a chip enable's parameter page that is accepted: the first whose CRC is valid (R542). -/
def paramPage (copies : List ParamCopy) : Option ParamCopy := copies.find? ParamCopy.crcOk

/-- A parameter page lies within R541 and R550. -/
def geometryFit (g : Geometry) : Bool :=
  !g.wide && decide ((g.pageKib = 4 ∨ g.pageKib = 8 ∨ g.pageKib = 16) ∧ 16 + 126 * g.pageKib ≤ g.spare) &&
    [64, 128, 256, 512, 1024].contains g.pagesPerBlock && [1, 2, 4].contains g.planes && decide (1 ≤ g.luns ∧ g.luns ≤ 4)

/-- The table in force: the valid copy of the higher GEN (R559). -/
def bestTable (p : LaneProbe) : Option TableCopy := newestCopy TableCopy.gen (p.tableA, p.tableB)

/-- The timing mode a lane uses under SL_Lx_CFG: (NV-DDR2, mode) (R544). -/
def modeFor (cfg : Word) (sdr : Nat) (ddr : Option Nat) : Bool × Nat :=
  let top := fld cfg 2 0
  match ddr with
  | some m => if bitB cfg 3 then (true, min top m) else (false, min (min top 5) sdr)
  | none => (false, min (min top 5) sdr)

/-- Apply SL_Lx_CFG to a lane that serves. -/
def applyLaneMode (s : State) (x : Nat) : State :=
  let l := s.lane x
  let m := modeFor (s.rd .slLCfg x) l.fastSdr l.fastDdr
  if l.state = .ready then s.setLane x { l with nvddr2 := m.1, mode := m.2 } else s

/-- Load one lane: the table in force is written over an invalid or older copy (R542 to R545, R551, R555, R559, R560). -/
def loadLane (s : State) (x : Nat) (p : LaneProbe) : State :=
  if s.member.lanes ≤ x then s
  else match p.ce.head?.bind paramPage with
    | none => s
    | some first =>
      let g := first.geom
      let used := (List.range 4).filter fun c => decide (((p.ce[c]?.bind paramPage).map ParamCopy.geom) = some g)
      let modes := used.filterMap fun c => p.ce[c]?.bind paramPage
      let sdr := modes.foldl (fun m k => min m k.sdr) 5
      let ddr := modes.foldl (fun (m : Option Nat) k => match m, k.ddr with
        | some a, some b => some (min a b)
        | _, _ => none) (some 7)
      let l := s.lane x
      let l := { l with geom := g, ceUsed := BitVec.ofNat 4 (bitsOf used), fastSdr := sdr, fastDdr := ddr }
      if !geometryFit g then s.setLane x { l with state := .unfit }
      else
        let r := match bestTable p with
          | some t => (t.entries, t.gen, s, false)
          | none =>
            let d := s.draw 32
            ((sortBy id p.scan).map fun b => (b, 0), d.1, d.2, true)
        let t : TableCopy := ⟨r.2.1, r.1⟩
        let s := r.2.2.1.setLane x { l with state := .ready, bad := r.1, gen := r.2.1, tableA := some t, tableB := some t }
        let s := if r.2.2.2 then setBoot s fun b => { b with flags := b.flags ||| 0x40 } else s
        let s := applyLaneMode s x
        if (s.lane x).tableLost then loseTable s x else s

/-- Free the hanks that a reset has left with no kept data (R567, R584). -/
def sweepHanks (s : State) : State :=
  let s := s.each s.benchList freeDeadHanks
  s.each (List.range 2) fun s x =>
    s.each (((s.lane x).hanks.filter fun e => match e.2.owner with
      | .log _ => !s.hankInUse x e.1
      | _ => false).map Prod.fst) fun s h => freeHank s x h

/-- The BBT step (R129, R131, R559). -/
def loadTables (s : State) (a b : LaneProbe) : State :=
  if s.live ∧ s.boot.phase = .fwStart then
    let s := loadLane (loadLane s 0 a) 1 b
    let s := setBoot (sweepHanks s) fun t => { t with phase := .bbt, bbtDone := true }
    tryPods s
  else s

/-! ### Pods (R145, R146, R399, R400) -/

/-- An EEPROM's 32 bytes pass their CRC. -/
def podGood (b : List Byte) : Bool := decide (b.length = 32 ∧ (crc32c (b.take 28)).toNat = leNat (b.drop 28))

/-- A pod as an EEPROM access leaves it (R146). -/
def podAfter (x : Pod) : PodRead → Pod
  | .absent _ => { x with present := false, ident := false, id := [], trim := [] }
  | .lost => { x with present := true, ident := false, id := [], trim := [] }
  | .bytes _ b =>
    if podGood b then { x with present := true, ident := true, id := b.take 8, trim := (b.drop 8).take 16 }
    else { x with present := true, ident := false, id := [], trim := [] }

/-- The attempts of a pod EEPROM access that lost arbitration (R146, R160). -/
def podLosses : PodRead → Nat
  | .absent k => k
  | .lost => 4
  | .bytes k _ => k

/-- Attempts at the EEPROM of pod `p` that lost arbitration: counted in TW_CNT and entered with Mboron (R160, R816). -/
def lostPod (s : State) (p k : Nat) : State :=
  (s.bumpSat .twCnt 0 0 23 16 k).each (List.range k) fun s _ => logTransfer s (0x50 + p) true 0 2 []

/-- The access of pod `p`'s EEPROM as the bus carries it: every loss, then a NACK, or `n` bytes read (R146, R160, R816). -/
def accessPod (s : State) (p : Nat) (r : PodRead) (rd : List Byte) : State :=
  let s := lostPod s p (podLosses r)
  match r with
  | .absent _ => logTransfer (s.bumpSat .twCnt 0 0 31 24 1) (0x50 + p) true 0 1 []
  | .lost => s
  | .bytes _ _ => logTransfer s (0x50 + p) true rd.length 0 rd

/-- The bytes a pod read brings. -/
def podData : PodRead → List Byte
  | .bytes _ b => b
  | .absent _ => []
  | .lost => []

/-- A new EEPROM trim of an owned pod waits for the bench's next skein boundary (R400); the trim of an absent or unidentified pod is 0 at
once (R389). -/
def trimLater (s : State) (p : Nat) (old new : Pod) : Pod :=
  if s.isReady && (s.ownerOf p).isSome && new.ident then { new with trim := old.trim, nextTrim := some new.trim }
  else { new with nextTrim := none }

/-- Take one pod's read (R146, R400). -/
def readPod (s : State) (p : Nat) (r : PodRead) (post : Bool) : State :=
  let old := s.pod p
  let new := trimLater s p old (podAfter old r)
  let s := (accessPod s p r (podData r)).setPod p new
  let failed := new.present && !new.ident
  let s := if failed && !post then setBoot s fun b => { b with flags := b.flags ||| 0x80 } else s
  if post ∧ (old.present ≠ new.present ∨ old.ident ≠ new.ident ∨ old.id ≠ new.id) then
    match s.ownerOf p with
    | some n => if s.bstate n = .closed then s else postEvent s n 0x8203 (p + bN new.present * 2 ^ 8 + bN new.ident * 2 ^ 9)
    | none => s
  else s

/-- Pod discovery (R131, R145, R146). -/
def discoverPods (s : State) (reads : List PodRead) : State :=
  if s.live ∧ s.boot.phase = .pods ∧ !s.boot.podsDone then
    let s := s.each (List.range s.member.pods) fun s p => readPod s p (reads.getD p (.absent 0)) false
    setBoot s fun b => { b with podsDone := true }
  else s

/-! ### READY (R129, R581, R663, R666, R668, R768, R348) -/

/-- A resource of the retained set is out of service again (R768, R230, R765, R711). -/
def applyRetained (s : State) (r : Word) : State :=
  let i := resIndex r
  match resType r with
  | 2 => retireQueue s i
  | 3 =>
    match bankBench i with
    | some n => s.setCap n { s.cap n with lostBanks := (s.cap n).lostBanks + 1 }
    | none => s
  | 6 => s.setLane i { s.lane i with state := .retired }
  | 7 => if (bankWindow i).isNone then refreshFaulted s else s
  | 8 => { s with tw := { s.tw with retired := true } }
  | _ => s

/-- One above the highest SESSION that the catalogue records for bench `n` (R581). -/
def State.sessionAbove (s : State) (n : Nat) : Nat :=
  match (s.entriesOf n).map CatEntry.session with
  | [] => 0
  | k :: rest => (rest.foldl max k + 1) % 2 ^ 16

/-- SESSION of each bench at READY: from the retention image after a fast-domain reset, from the configuration record after a
cold reset, or from the catalogue where no copy of the record is valid (R581). -/
def restoreSessions (s : State) : State :=
  if s.boot.cause = 1 then
    s.each s.benchList fun s n => s.setSess n { s.sess n with session := match s.storage.record with
      | some r => r.sessions.get (fun _ => 0) n
      | none => s.sessionAbove n }
  else s

/-- The credential hash at READY: that of the configuration record, or of the retention image where no copy is valid (R348). -/
def State.keptHash (s : State) : Option (List Byte) :=
  match s.storage.record with
  | some r => r.hash
  | none => s.fw.credHash

/-- At READY the whole frames that have arrived on a stream are set apart (R148, R159). -/
def setEarly (s : State) (st : Stream) : State :=
  let x := s.stream st
  s.setStream st { x with early := (x.rx.length + (s.queue (cmdQueue st)).count) / 8 * 8 }

/-- READY (R129). -/
def becomeReady (s : State) : State :=
  if s.live ∧ s.boot.phase = .pods ∧ s.boot.podsDone then
    let s := setBoot s fun b => { b with phase := .ready }
    let s := { s with ref := { s.ref with retired := s.fw.retained } }
    let s := s.each (s.ref.retired.map Prod.fst) applyRetained
    let s := restoreSessions s
    let s := s.wr .iuAge 0 0 (s.fw.age.getD s.part.iuAgeDef)
    let s := { s with
      iu := { s.iu with calPending := true },
      storage := { s.storage with scrubDue := bitsOf ((List.range 2).filter fun x => s.laneServes x) },
      fw := { s.fw with credHash := s.keptHash },
      tw := { s.tw with pointer := 0x1140 } }
    let s := s.each (s.benchList.map fun n => (.bench (Fin.ofNat 8 n) : Stream)) fun s st => setEarly s st
    let s := setEarly (setEarly s .adminUsb) .adminTw
    iuPump (twKick (updateCorr s))
  else s

/-! ### A firmware commit (R361 to R365, R371) -/

/-- Bytes of the staged image. -/
def Staging.read (g : Staging) (off len : Nat) : List Byte := (List.range len).map fun i => g.bytes.get (fun _ => 0) (off + i)

/-- Write what the boot ROM will find in a boot hank. -/
def setCopy (s : State) (copyB : Bool) (v : ImageView) : State :=
  setBoot s fun b => if copyB then { b with copyB := v } else { b with copyA := v }

/-- The image in a boot hank fails the ECC at the next start (R363). -/
def spoilCopy (s : State) (copyB : Bool) : State :=
  setBoot s fun b => if copyB then { b with copyB := { b.copyB with eccOk := false } }
    else { b with copyA := { b.copyA with eccOk := false } }

/-- The fault code of a boot hank that cannot be erased or programmed: the lane's, or a block failure's, which of the two the
spec does not say (R361, R752). -/
def bootFault (s : State) : Nat × State :=
  if s.laneServes 0 then
    let d := s.draw 1
    (0x0501 + d.1, d.2)
  else (s.retireCode (resLane 0), s)

/-- Steps 1 and 2 of a commit (R361): the status and DETAIL with which it fails. -/
def checkImage (s : State) (g : Staging) (crc : Word) : Option (Status × Nat) :=
  if crc32c (g.read 0 g.size) ≠ crc then some (.verifyMismatch, 1)
  else (imageError (viewImage s.part.keyHash g.read)).map fun e => (.verifyMismatch, e.toNat)

/-- Steps 3 and 4 of a commit (R361, R363, R365): its outcome and its DETAIL. -/
def writeImage (s : State) (g : Staging) (programOk verifyOk : Bool) : Status × Nat × State :=
  if !programOk || !s.laneServes 0 then
    let f := bootFault s
    (.retired, f.1, spoilCopy f.2 g.copyB)
  else if !verifyOk then (.verifyMismatch, 2, spoilCopy s g.copyB)
  else
    (.done, 0, setBoot (setCopy s g.copyB (viewImage s.part.keyHash g.read)) fun b =>
      { b with rewritten := b.rewritten || (if g.copyB then b.flags.getLsbD 1 else b.flags.getLsbD 0) })

/-- A commit completes; staging is released whatever its status (R364). -/
def endCommit (s : State) (j : CommitJob) (st : Status) (detail : Nat) : State :=
  complete { s with fw := { s.fw with commit := none, staging := none } } j.stream 0x0E22 j.tag st detail

/-- The commit in progress goes on: steps 1 and 2, from which on its deadline does not count (R362), and then steps 3 and 4. -/
def commitStep (s : State) : State :=
  match s.fw.commit, s.fw.staging with
  | some j, some g =>
    if !s.survoRuns then s
    else if j.writing then
      let k := writeImage s g j.programOk j.verifyOk
      endCommit k.2.2 j k.1 k.2.1
    else match checkImage s g j.crc with
      | some (st, d) => endCommit s j st d
      | none => { s with fw := { s.fw with commit := some { j with writing := true } } }
  | _, _ => s

end Sys2Proof.Machine
end

