-- ==== Sys2Proof/Machine/Registers.lean ====
section
/-! DEFINITION. The register window: what each register reads as, the five views, bus errors, parity, writes by class and the
actions they start (R164 to R217, R224, R239, R247, R802). -/

namespace Sys2Proof.Machine

/-! ### Status fields -/

/-- WLOCK as Q_STATUS shows it (R242). -/
def wlockCode : Option (Path × Nat) → Nat
  | some (p, _) => pathCode p
  | none => 3

/-- Q_STATUS (R222). -/
def State.qStatus (s : State) (q : Nat) : Word :=
  let x := s.queue q
  pack [(x.count, 0), (bN x.isEmpty, 8), (bN x.isFull, 9), (bN x.underrun, 10), (bN (!x.waiting.isEmpty), 11),
    (bN x.testing, 12), (bN x.retired, 13), (if isCmdQueue q then wlockCode x.wlock else 3, 14)]

/-- BN_STATUS (R25, R30). -/
def State.bnStatus (s : State) (n : Nat) : Word :=
  let x := s.sess n
  pack [(x.state.code, 0), (bN x.detached, 3), (if x.transport = .twoWire then 1 else 0, 4)]

/-- Some G value of the window of bench `n` is pending. -/
def State.windowPending (s : State) (n : Nat) : Bool :=
  (s.touched (0x2000 + n * 0x800) (0x2800 + n * 0x800)).any fun a =>
    decide ((s.regWord a ^^^ s.actWord a) &&& gBitsAt a ≠ 0)

/-- The S fields of BN_STAGE (R187, R206). -/
def State.bnStageStatus (s : State) (n : Nat) : Word :=
  pack [(bN (s.windowPending n), 8), (bN (s.sess n).parity, 9)]

/-- GLB_MODE (R17, R36). -/
def State.glbMode (s : State) : Word :=
  pack [(bN s.boot.straps.openMode, 0), (bN s.openBench, 1), (bN s.fw.credHash.isSome, 2), (bN s.fw.admin.isSome, 3)]

/-- CMP_STATUS. -/
def State.cmpStatus (s : State) : Word :=
  let es (p : Nat → Bool) : Nat := bitsOf ((List.range 4).filter fun e => s.member.hasEngine e && p e)
  pack [(es fun e => (s.engine e).job.isSome, 0), (es fun e => s.testing (resEngine e), 4),
    (es fun e => s.isRetired (resEngine e), 8)]

/-- CMP_Sn_STATUS (R517). -/
def State.cmpSStatus (s : State) (n : Nat) : Word :=
  let c := s.cmp n
  let st := match c.state with
    | .idle => 0
    | .running => 1
    | .stopped => 2
  pack [(st, 0), (c.engine, 4), ((c.cause.map stopCode).getD 0, 8)]

/-- RPL_STATUS. -/
def State.rplStatus (s : State) : Word :=
  let r := s.rpl
  let st := match r.state with
    | .idle => 0
    | .recording => 1
    | .replaying => 2
    | .stopping => 3
  pack [(st, 0), (bN r.gapSeen, 2), (bN r.diverged, 3), (r.log, 16)]

/-- The entry that DST_LOG_RIDX selects (R107). -/
def State.distaffRead (s : State) : DWord := s.distaff.log.get (fun _ => 0) (fld (s.rd .dstLogRidx) 11 0)

/-- The bytes that TW_ALERT_RD_LO and HI return: those of the alert that R708 would choose next (R712). -/
def State.alertRead (s : State) : List Byte :=
  match nextAlert s.tw.alerts with
  | some a => alertBytes s.ownAddr a false
  | none => List.replicate 8 0

/-- IU_TAB_DATA (R661). -/
def State.iuTabData (s : State) : Word :=
  let w := s.rd .iuTabIdx
  s.iu.tables.get (fun _ => 0) (1024 * fld w 19 16 + fld w 9 0)

/-- What the S and H fields of a register hold now, each in its place. -/
def State.statusWord (s : State) (r : Reg) : Word :=
  let i := r.i
  let c := s.cal
  let p := s.power
  match r.name with
  | .glbParam0 => s.member.param0
  | .glbParam1 => s.member.param1
  | .glbParam2 => setFld s.member.param2 15 8 s.part.step.toNat
  | .glbParam3 => s.member.param3
  | .glbMode => s.glbMode
  | .glbStraps => pack [(s.boot.straps.twa.toNat, 0), (bN s.boot.straps.bootsel, 2), (bN s.boot.straps.openMode, 3)]
  | .glbSupply => pack [(bN p.usbRails, 0), (bN p.vbus, 1), (bN p.hot, 2), (p.tj.toNat, 16)]
  | .glbUidLo => W s.part.uid.toNat
  | .glbUidHi => W (s.part.uid.toNat / 2 ^ 32)
  | .glbBuserr => s.busErr
  | .glbParity => W s.parityAddr
  | .glbStage => pack [(bN s.rallyPending, 8)]
  | .glbPool => pack [(s.poolUnlent, 0), (s.stagingGranules, 8)]
  | .glbAqStatus => s.qStatus (64 + i)
  | .glbAqRdLo => DWord.lo (peekQueue s (64 + i)).data
  | .glbAqRdHi => DWord.hi (peekQueue s (64 + i)).data
  | .glbAqRdTag => W (peekQueue s (64 + i)).tag.code
  | .calDate => c.dateWord
  | .calTime => c.timeWord
  | .calSub => W c.sub
  | .calLinLo => W c.linear
  | .calLinHi => W (c.linear / 2 ^ 32)
  | .calBtLo => W c.bt
  | .calBtHi => W (c.bt / 2 ^ 32)
  | .calStatus => c.statusWord
  | .pwrStatus => s.pwrStatus
  | .pwrAtickLo => W p.atick
  | .pwrAtickHi => W (p.atick / 2 ^ 32)
  | .pwrWakeBtLo => W p.wakeBt
  | .pwrWakeBtHi => W (p.wakeBt / 2 ^ 32)
  | .pwrWakeAtick => W p.wakeAtick
  | .pwrBoot0 => s.boot.word0
  | .pwrBoot1 => s.boot.word1
  | .dstLvl => W s.distaff.filtered.toNat
  | .dstLogWptr => W s.distaff.wptr
  | .dstLogRdLo => DWord.lo s.distaffRead
  | .dstLogRdHi => DWord.hi s.distaffRead
  | .bnStatus => s.bnStatus i
  | .bnStage => s.bnStageStatus i
  | .feStatus => s.feStatus i
  | .feValid => s.feValid i r.j
  | .feOvd => if s.owns i r.j then (s.pod r.j).ovd else 0
  | .feStuck => if s.owns i r.j then (s.pod r.j).stuck else 0
  | .trgStatus => (s.seqr i).status
  | .trgTrigLo => W (s.seqr i).trig
  | .trgTrigHi => W ((s.seqr i).trig / 2 ^ 32)
  | .trgCnt => W ((s.seqr i).counts.getD r.j 0)
  | .trgTmrLo => W ((s.seqr i).elapsed.getD r.j 0)
  | .trgTmrHi => W ((s.seqr i).elapsed.getD r.j 0 / 2 ^ 32)
  | .sknStatus => pack [((s.cap i).phase, 0), (bN (s.cap i).ovr, 2)]
  | .sknNum => W (s.cap i).number
  | .sknBob => pack [((s.cap i).lent, 0), (s.bobbinUnits i, 8)]
  | .sknFree => W (s.bobbinFree i)
  | .qStatus => s.qStatus i
  | .qRdLo => DWord.lo (peekQueue s i).data
  | .qRdHi => DWord.hi (peekQueue s i).data
  | .qRdTag => W (peekQueue s i).tag.code
  | .engStatus => s.engStatus i none
  | .plyStatus => s.plyStatus i
  | .plyLevel => W (unsigned 32 (s.level i r.j))
  | .umpStatus => s.umpStatus
  | .umpCtx => s.umpCtx
  | .accStartLo => s.regWord (Reg.addr r)
  | .accStartHi => s.regWord (Reg.addr r)
  | .accCoef => pack [((s.part.coefEng.getD i (0, 0)).1, 0), ((s.part.coefEng.getD i (0, 0)).2, 16)]
  | .accCoefPath => W (s.pathCoef i)
  | .cmpStatus => s.cmpStatus
  | .cmpSStatus => s.cmpSStatus i
  | .slLStatus => (s.lane i).status
  | .slLGeom => (s.lane i).geomWord
  | .slLHanks => W (s.lane i).dataHanks.length
  | .slLFree => W (s.freeHanks i).length
  | .slLBad => (s.lane i).badReg
  | .slLWear => (s.lane i).wear
  | .slScrubStatus => s.scrubStatus
  | .slSUsed => W (s.hanksHeld i)
  | .iuCtrl => W s.iuGoBits
  | .iuStatus => s.iuStatus
  | .iuTemp => pack [(s.iu.temp.toNat, 0), (s.iu.calTemp.toNat, 8)]
  | .iuTrim => s.part.iuTrim
  | .iuTrimDay => W s.part.iuTrimDay
  | .iuAgeDef => s.part.iuAgeDef
  | .iuTabData => s.iuTabData
  | .iuRes => s.iuResWord i
  | .twStatus => s.twStatus
  | .twAlertPend => s.alertPend
  | .twAlertRdLo => W (leNat (s.alertRead.take 4))
  | .twAlertRdHi => W (leNat (s.alertRead.drop 4))
  | .usbStatus => s.usbStatus
  | .usbId => s.usbId
  | .refStatus => s.refStatus
  | .refLogWptr => W (s.ref.written % 512)
  | .refLogRd => wordAt (s.ref.log.get (fun _ => []) (fld (s.rd .refLogIdx) 7 0)) i
  | .refTestCtl => pack [(bN s.ref.go, 0), (s.ref.result, 1)]
  | .refRetCh => s.retCh i
  | .refRetQLo => s.retQ 0
  | .refRetQHi => s.retQ 1
  | .refRetSram => s.retSram i
  | .refRetMisc => s.retMisc
  | .refRetBank => s.retBank
  | .rplStatus => s.rplStatus
  | .rplTickLo => W s.rpl.tick
  | .rplTickHi => W (s.rpl.tick / 2 ^ 32)
  | .rplDivTickLo => W s.rpl.divTick
  | .rplDivTickHi => W (s.rpl.divTick / 2 ^ 32)
  | .rplDiv => pack [(s.rpl.divKind, 0), (s.rpl.divSource, 8)]
  | .rplDivWord => W s.rpl.divWord
  | _ => 0

/-- The word a register shows: its stored fields, or with `active` its G fields as in effect, and its S and H fields (R164,
R171); K fields read 0, and so does the overdrive count of a pod that the bench does not own (R375). -/
def State.compose (s : State) (r : Reg) (active : Bool) : Word :=
  let row := r.name.row
  let stored := if r.name = .feOvdcnt ∧ !s.owns r.i r.j then 0 else if active then s.eff r.name r.i r.j else s.rd r.name r.i r.j
  (stored &&& row.stored) |||
    (s.statusWord r &&& (row.bits .s ||| row.bits .h))

/-! ### Parity (R202 to R210) -/

/-- A stored bit flips (R202): only C and G bits are covered. -/
def flipBit (s : State) (u : Upset) : State :=
  match regAt u.addr with
  | none => s
  | some r =>
    let bits := if u.inEffect then r.name.row.bits .g else r.name.row.bits .c ||| r.name.row.bits .g
    if !r.present s.member || !bitB bits u.bit.val then s
    else
      let w := if u.inEffect then s.actWord u.addr else s.regWord u.addr
      let isIt (x : Corrupt) : Bool := decide (x.addr = u.addr) && x.inEffect == u.inEffect
      let l := if s.badParity.any isIt
        then s.badParity.map fun x => if isIt x then { x with flips := x.flips + 1, found := false } else x
        else s.badParity ++ [⟨u.addr, u.inEffect, w, 1, false⟩]
      let w' := w ^^^ W (2 ^ u.bit.val)
      let t := if u.inEffect then s.setActWord u.addr w' else s.setRegWord u.addr w'
      { t with badParity := l }

/-! ### Addresses, paths and bus errors -/

/-- The view of a 20-bit address (R164); 5 and above are reserved. -/
def viewOf (addr : Nat) : Nat := addr / 0x10000 % 16

/-- The register at the normal address of an access, if the member has it. -/
def State.regFor (s : State) (addr : Nat) : Option Reg :=
  if addr % 4 ≠ 0 ∨ 4 < viewOf addr then none
  else (regAt (addr % 0x10000)).filter fun r => r.present s.member

/-- The credential and fuse region, in any view (R198). -/
def isCredential (addr : Nat) : Bool := decide (viewOf addr ≤ 4 ∧ 0xF00 ≤ addr % 0x10000 ∧ addr % 0x10000 < 0x1000)

/-- An address in the admin chains (R247). -/
def isChain (a : Nat) : Bool := decide (0x100 ≤ a ∧ a < 0x180)

/-- The access of R34 to the queue registers: CMD and RSP queues of a bench that is CLOSED or opened over the path's transport,
and pushes to the CMD queue of a DETACHED bench. -/
def State.queueAllowed (s : State) (via : Transport) (a : Nat) (write : Bool) : Bool :=
  if 0x6000 ≤ a ∧ a < 0x7000 then
    let q := (a - 0x6000) / 0x40
    let x := s.sess (q / 8)
    let push := write && decide (8 ≤ a % 0x40 ∧ a % 0x40 ≤ 0x10)
    (decide (q % 8 ≤ 1) && (decide (x.state = .closed) || decide (x.transport = via))) ||
      (decide (q % 8 = 0) && x.detached && push)
  else false

/-- The path may make the access (R34, R200, R248). -/
def State.pathAllows (s : State) (p : Path) (addr : Nat) (write : Bool) : Bool :=
  let a := addr % 0x10000
  let known := decide (viewOf addr ≤ 4)
  let global := known && decide (a < 0x1000) && !write
  let boot := known && (decide (a = 0x1140) || decide (a = 0x1144)) && !write
  match p with
  | .survo => true
  | .usb =>
    if known ∧ isChain a then false
    else if !s.isReady then global || boot
    else if s.openBench then true
    else global || boot || (known && s.queueAllowed .usb a write)
  | .twoWire =>
    if !s.isReady then false
    else if s.openBench then true
    else global || boot || (known && (isChain a || s.queueAllowed .twoWire a write))

/-- The STRICT bit that governs an address (R5, R193). -/
def State.strictAt (s : State) (addr : Nat) : Bool :=
  match windowOf (addr % 0x10000), decide (viewOf addr ≤ 4) with
  | some n, true => if n < s.member.benches then bitB (s.rd .bnCtrl n) 0 else false
  | _, _ => bitB (s.rd .glbRegctl) 0

/-- The bits of a register in which an alias write may not have a 1 (R168, R169). -/
def aliasBits (r : Reg) (view : Nat) : Word :=
  let row := r.name.row
  row.bits .s ||| row.bits .a ||| row.bits .k ||| (if view = 1 then 0 else row.bits .h)

/-- GLB_BUSERR.CAUSE of an access, 0 where it raises no bus error (R196 to R198); `data` is the data of a write. -/
def State.busCause (s : State) (p : Path) (addr : Nat) (narrow : Bool) (data : Option Word) : Nat :=
  let view := viewOf addr
  let strict := s.strictAt addr
  let bad := match s.regFor addr, data with
    | some r, some d => decide (1 ≤ view ∧ view ≤ 3) && decide (d &&& aliasBits r view ≠ 0)
    | _, _ => false
  if p ≠ .survo ∧ isCredential addr then 6
  else if !s.pathAllows p addr data.isSome then 5
  else if !strict then 0
  else if narrow ∨ addr % 4 ≠ 0 then 2
  else if view = 4 ∧ data.isSome then 4
  else if (s.regFor addr).isNone ∧ !isCredential addr then 1
  else if bad then 3 else 0

/-- Record a bus error (R196). -/
def busError (s : State) (p : Path) (addr cause : Nat) (write : Bool) : State :=
  ({ s with busErr := pack [(addr % 2 ^ 20, 0), (pathCode p, 20), (bN write, 22), (cause, 24)] } : State).bumpSat
    .glbBuserrCnt 0 0 31 0 1

/-! ### Logging (R38, R39, R303, R354, R820) -/

/-- Enter a write in the register-write ring of 1,024 (R303). -/
def logWrite (s : State) (p : Path) (addr : Nat) (data : Word) : State :=
  let all := s.fw.writes ++ [⟨addr, p, data, s.power.baseTick⟩]
  { s with fw := { s.fw with writes := all.drop (all.length - 1024), writesEntered := s.fw.writesEntered + 1 } }

/-- Mboron's REG entry of a register-window write in Open Bench mode (R816, R820). -/
def recordWrite (s : State) (p : Path) (addr : Nat) (data : Word) : State :=
  let body := addr % 2 ^ 20 + pathCode p * 2 ^ 20 + data.toNat * 2 ^ 32
  match windowOf (addr % 0x10000) with
  | some n => logBench s n 0xE body
  | none => logPart s 0xE body

/-- Survo firmware logs a host's register-window write, and an attempt on the credential region, in Open Bench mode (R38, R39; log
entry 61). -/
def logAccess (s : State) (p : Path) (addr : Nat) (cause : Nat) (data : Option Word) : State :=
  if !s.openBench ∨ p = .survo then s
  else if cause = 6 then logWrite s p addr (data.getD 0)
  else match data with
    | some d => if cause = 0 then recordWrite (logWrite s p addr d) p addr d else s
    | none => s

/-! ### Reads -/

/-- The addresses that a read of a LO word latches (R179, R224, R802). -/
def latchAddrs (r : Reg) : List Nat :=
  let a := r.addr
  match r.name with
  | .qRdLo | .glbAqRdLo => [a + 4, a + 8]
  | .calDate => [0x1004, 0x1008, 0x100C, 0x1010, 0x1014, 0x1018]
  | .calLinLo => [0x1000, 0x1004, 0x1008, 0x1010, 0x1014, 0x1018]
  | .calBtLo | .pwrAtickLo | .pwrWakeBtLo | .dstLogRdLo | .trgTrigLo | .trgTmrLo | .accTimeLo | .accSramLo | .accNandwLo
  | .accNandrLo | .accUsbLo | .accEnergyLo | .accStartLo | .cmpSInLo | .cmpSOutLo | .twAlertRdLo | .rplTickLo
  | .rplEntriesLo | .rplDivTickLo => [a + 4]
  | _ => []

/-- Latch the given values for a path, in place of those of its LO read before (R179). -/
def setShadow (s : State) (p : Path) (l : List (Nat × Word)) : State := s.setPath p { s.path p with shadow := l }

/-- The queue that a queue register belongs to. -/
def queueOf (r : Reg) : Nat :=
  match r.name with
  | .glbAqCtl | .glbAqStatus | .glbAqWrLo | .glbAqWrHi | .glbAqWrHim | .glbAqRdLo | .glbAqRdHi | .glbAqRdTag | .glbAqCnt =>
    64 + r.i
  | _ => r.i

/-- The stream whose commands a CMD queue or the admin command chain carries. -/
def queueStream (q : Nat) : Stream := if q = 64 then .adminTw else .bench (Fin.ofNat 8 (q / 8))

/-- A word that Survo firmware reads from a CMD queue or the admin command chain joins the words of its stream (R271). -/
def collectWord (s : State) (p : Path) (q : Nat) (w : QWord) (had : Bool) : State :=
  if p = .survo ∧ had ∧ isCmdQueue q then s.setStream (queueStream q) ((s.stream (queueStream q)).collect [w]) else s

/-- A read of Q_RD_LO (R221, R224, R235, R236). -/
def readQueue (s : State) (p : Path) (r : Reg) : Word × State :=
  let q := queueOf r
  let had := s.readable q && !(s.queue q).isEmpty
  let d := deliver s q
  let s := collectWord d.2 p q d.1 had
  (DWord.lo d.1.data, setShadow s p [(r.addr + 4, DWord.hi d.1.data), (r.addr + 8, W d.1.tag.code)])

/-- A read of TW_ALERT_RD_LO removes the alert it returns (R712). -/
def readAlert (s : State) (p : Path) (r : Reg) : Word × State :=
  let lo := s.compose r false
  let hi := s.compose ⟨.twAlertRdHi, 0, 0⟩ false
  (lo, removedAlerts (setShadow s p [(r.addr + 4, hi)]) (nextAlert s.tw.alerts).toList)

/-- A read at a normal, set, clear or toggle address (R166, R179): it returns the stored word, also where its parity fails (R204). -/
def readReg (s : State) (p : Path) (r : Reg) : Word × State :=
  let a := r.addr
  let x := s.path p
  match x.shadow.find? fun e => e.1 == a with
  | some e =>
    (e.2, if latchAddrs r = [] then s else setShadow s p (x.shadow.filter fun e => decide (e.1 ≠ a)))
  | none =>
    match r.name with
    | .qRdLo | .glbAqRdLo => readQueue (checkParity s a) p r
    | .twAlertRdLo => readAlert (checkParity s a) p r
    | _ =>
      let latched := (latchAddrs r).map fun b => (b, match regAt b with
        | some t => s.compose t false
        | none => 0)
      let t := checkParity s a
      (s.compose r false, if latched = [] then t else setShadow t p latched)

/-- The word of the ACTIVE view (R171): the register's, its G fields as in effect; of a register whose value the path has latched, the
value latched, which stays. -/
def activeWord (s : State) (p : Path) (r : Reg) : Word :=
  match (s.path p).shadow.find? fun e => e.1 == r.addr with
  | some e => e.2
  | none => s.compose r true

/-- A read through the register window: the word, GLB_BUSERR.CAUSE or 0, and the state (R164, R194, R196). -/
def busRead (s : State) (p : Path) (addr : Nat) (narrow : Bool := false) : Word × Nat × State :=
  let cause := s.busCause p addr narrow none
  let s := logAccess s p addr cause none
  if cause ≠ 0 then (0, cause, busError s p addr cause false)
  else if narrow then (0, 0, s)
  else match s.regFor addr with
    | some r =>
      if viewOf addr = 4 then (activeWord s p r, 0, checkParity s r.addr)
      else
        let d := readReg s p r
        (d.1, 0, d.2)
    | none =>
      if isCredential addr ∧ addr % 4 = 0 then
        let d := s.draw 32
        (W d.1, 0, d.2)
      else (0, 0, s)

/-! ### Writes -/

/-- The LO and HI registers of the 64-bit accumulators (R178, R180). -/
def isAccLo : RegName → Bool
  | .accTimeLo | .accSramLo | .accNandwLo | .accNandrLo | .accUsbLo | .accEnergyLo | .cmpSInLo | .cmpSOutLo
  | .rplEntriesLo => true
  | _ => false

/-- The HI registers of the 64-bit accumulators. -/
def isAccHi : RegName → Bool
  | .accTimeHi | .accSramHi | .accNandwHi | .accNandrHi | .accUsbHi | .accEnergyHi | .cmpSInHi | .cmpSOutHi
  | .rplEntriesHi => true
  | _ => false

/-- Hold a LO word for a path (R180, R239). -/
def holdLo (s : State) (p : Path) (a : Nat) (d : Word) : State :=
  let x := s.path p
  s.setPath p { x with heldLo := (x.heldLo.filter fun e => decide (e.1 ≠ a)) ++ [(a, d)] }

/-- The LO word a path holds, taken out. -/
def takeLo (s : State) (p : Path) (a : Nat) : Option Word × State :=
  let x := s.path p
  match x.heldLo.find? fun e => e.1 == a with
  | some e => (some e.2, s.setPath p { x with heldLo := x.heldLo.filter fun e => decide (e.1 ≠ a) })
  | none => (none, s)

/-- A write to Q_WR_HI or Q_WR_HIM: the word with the path's held low half is pushed (R239, R242); a low half that was never
written is a free value.  A two-wire push that must wait stretches the bus (R240). -/
def writeHigh (s : State) (p : Path) (r : Reg) (d : Word) (t : Tag) : State :=
  let q := queueOf r
  let base := if q < 64 then 0x6000 + q * 0x40 else 0x100 + (q - 64) * 0x40
  let lo := takeLo s p (base + 8)
  let l : Word × State := match lo.1 with
    | some w => (w, lo.2)
    | none => let f := lo.2.draw 32; (W f.1, f.2)
  let before := (s.queue q).waiting.length
  let s := pushHost l.2 q (.path p) (dword l.1 d) t
  if p = .twoWire ∧ before < (s.queue q).waiting.length then { s with tw := { s.tw with stretched := some (r.addr, d) } } else s

/-- What a GO of REF_TEST_CTL starts (R786): a test that REF_TEST would refuse is not started, and GO clears. -/
def goTest (s : State) : State :=
  if s.ref.go then s
  else
    let res := s.rd .refTestRes
    match s.testRefused res with
    | some _ => s
    | none => requestTest { s with ref := { s.ref with go := true } } res false none

/-- A write of ones to the H fields of a register (R168, R172, R175). -/
def writeGo (s : State) (r : Reg) (d : Word) : State :=
  match r.name with
  | .iuCtrl =>
    let busy := s.iuGoBits
    let s := if bitB d 0 ∧ !busy.testBit 0 then { s with iu := { s.iu with goPending := true } } else s
    let s := if bitB d 1 ∧ !busy.testBit 1 then { s with iu := { s.iu with calPending := true } } else s
    iuPump s
  | .refTestCtl => if bitB d 0 then goTest s else s
  | _ => s

/-- The target of a power entry (R81). -/
def entryTarget : Nat → Option PState
  | 1 => some .sleep
  | 2 => some .doze
  | _ => none

/-- The actions of a write to the K fields of a register (R81, R176, R239, R243, R520, R797). -/
def writeKey (s : State) (p : Path) (r : Reg) (d : Word) : State :=
  let a := r.addr
  match r.name with
  | .qCtl | .glbAqCtl => if fld d 31 24 = 0xF1 then flushQueue s (queueOf r) else s
  | .qWrLo | .glbAqWrLo => holdLo s p a d
  | .qWrHi | .glbAqWrHi => writeHigh s p r d .data
  | .qWrHim | .glbAqWrHim => writeHigh s p r d .mark
  | .calCommit => if fld d 7 0 = 0xCA then requestCommit s else s
  | .pwrEnter =>
    match entryTarget (fld d 1 0), decide (fld d 15 8 = 0x5D) && s.openBench && s.survoRuns with
    | some t, true =>
      if s.power.entry.isSome then { s with power := { s.power with entryHeld := some t } } else (requestEntry s t).2
    | _, _ => s
  | .cmpSFlush => if fld d 7 0 = 0xF5 then (flushStream s r.i).2 else s
  | _ => s

/-! ### POD_ASSIGN (R336 to R338) -/

/-- The new BN_OWN.PODS of bench `n`. -/
def podByte (c : Cmd) (n : Nat) : Nat := pf c (2 + n / 4) (8 * (n % 4) + 7) (8 * (n % 4))

/-- Write the pending BN_OWN.PODS of one bench and let it settle (R185). -/
def writePods (s : State) (n pods : Nat) : State := settleBench (s.wrFld .bnOwn n 0 7 0 pods) n

/-- The steps of a POD_ASSIGN that is under way: values that only remove pods first, and once they are in effect those that add pods;
the answer follows the last value (R338). -/
def pumpAssign (s : State) : State :=
  match s.fw.assign with
  | none => s
  | some c =>
    let s := s.each s.benchList fun s n => writePods s n (s.podsOf n &&& podByte c n)
    if s.benchList.any fun n => decide (s.podsOf n &&& podByte c n ≠ s.podsOf n) then s
    else
      let s := s.each s.benchList fun s n => writePods s n (podByte c n)
      if s.benchList.all fun n => decide (s.podsOf n = podByte c n) then
        respond { s with fw := { s.fw with assign := none } } 0x0111 c .done 0 [] s.isReplaying
      else s

/-- Pending values apply where no boundary is in prospect, and C fields that act at once take effect (R174, R185). -/
def settleWrite (s : State) (r : Reg) : State :=
  let a := r.addr
  let s := match windowOf a with
    | some n => pumpAssign (sweepOrphans (settlePly (settleBench s n) n))
    | none => s
  match r.name with
  | .cmpSCfg => settleBench s r.i
  | .glbStage => sweepOrphans (armWaiting (applyIuIdle (s.each rallyRegs settleRally)))
  | .twCfg | .twStretchMax | .twRetryLimit | .twBackoff =>
    if s.tw.busy then s else twKick (applyReg s a (gBitsAt a))
  | .slLCfg => applyLaneMode s r.i
  | .iuCtrl => iuPump s
  | .iuCfg | .iuTmoLo | .iuTmoHi | .iuCorr => applyIuIdle s
  | _ => sweepOrphans (settleRally s a)
where
  /-- A measurement whose configuration GLB_STAGE.HOLD has kept pending is armed (R188, R656). -/
  armWaiting (s : State) : State := if s.rallyHeld ∨ s.iu.state ≠ .idle then s else iuBegin s
  /-- The interval unit's pending values apply while it is idle (R185, R188). -/
  applyIuIdle (s : State) : State :=
    if s.iu.state = .idle ∧ (s.engine 8).job.isNone then applyIu s else s

/-- Store a written word by class: C, G and A fields take it (R172, R199); 64-bit accumulators by R180; DST_LOG_RPTR by R107. -/
def storeWord (s : State) (p : Path) (r : Reg) (d : Word) : State :=
  let a := r.addr
  let bits := r.name.row.stored
  if isAccLo r.name then holdLo s p a d
  else if isAccHi r.name then
    let lo := takeLo s p (a - 4)
    match lo.1 with
    | some w => (lo.2.setRegWord (a - 4) w).setRegWord a d
    | none => s.setRegWord a d
  else if r.name = .dstLogRptr then writeRptr s d.toNat
  else if r.name = .dstCnt then writeCounter s r.i (d &&& bits)
  else if bits = 0 then s
  else s.setRegWord a (d &&& bits)

/-- A write at the normal address (R172, R199). -/
def writeNormal (s : State) (p : Path) (r : Reg) (d : Word) : State :=
  settleWrite (writeGo (writeKey (storeWord s p r d) p r d) r d) r

/-- A write at the set, clear or toggle view (R167 to R170): C fields directly, G fields through their pending value; a set
alias with a 1 in a GO bit starts its operation. -/
def writeAlias (s : State) (r : Reg) (view : Nat) (d : Word) : State :=
  let a := r.addr
  let s := checkParity s a
  let d' := d &&& (r.name.row.bits .c ||| r.name.row.bits .g)
  let old := s.regWord a
  let new := if view = 1 then old ||| d' else if view = 2 then old &&& ~~~ d' else old ^^^ d'
  let s := if d' = 0 then s else if r.name = .dstLogRptr then writeRptr s new.toNat else s.setRegWord a new
  settleWrite (if view = 1 then writeGo s r d else s) r

/-- A write through the register window: GLB_BUSERR.CAUSE or 0, and the state (R164, R169, R194 to R199). -/
def busWrite (s : State) (p : Path) (addr : Nat) (d : Word) (narrow : Bool := false) : Nat × State :=
  let cause := s.busCause p addr narrow (some d)
  let s := logAccess s p addr cause (some d)
  if cause ≠ 0 then (cause, busError s p addr cause true)
  else if narrow then (0, s)
  else match s.regFor addr with
    | none => (0, s)
    | some r =>
      if viewOf addr = 0 then (0, writeNormal s p r d)
      else if viewOf addr = 4 then (0, s)
      else (0, writeAlias s r (viewOf addr) d)

/-! ### Accesses as commands -/

/-- A push of a USB vendor request waits (R239). -/
def State.usbWaits (s : State) : Bool := s.queues.any fun e => e.2.waiting.any fun w => decide (w.1 = .path .usb)

/-- Survo firmware leaves a CMD queue alone while a response of its stream is held, so that the host meets back-pressure there (R280). -/
def State.leavesQueue (s : State) (p : Path) (addr : Nat) : Bool :=
  match decide (p = .survo), s.regFor addr with
  | true, some r => (r.name = .qRdLo || r.name = .glbAqRdLo) && isCmdQueue (queueOf r) &&
      !(s.stream (queueStream (queueOf r))).held.isEmpty
  | _, _ => false

/-- The path can make an access now: the fast domain runs; Survo firmware runs for its own path; the USB link is up; and no push of the
path's latest request waits, for which the bus is stretched or the request NAKed (R239). -/
def State.pathLive (s : State) : Path → Bool
  | .survo => s.survoRuns
  | .usb => s.usbUp && s.usb.request.isNone && !s.usbWaits
  | .twoWire => s.live && s.tw.stretched.isNone

/-- One read as a command: the path keeps the word it returned and whether it was a bus error (R195). -/
def accessRead (s : State) (p : Path) (addr : Nat) : State :=
  if s.pathLive p && !s.leavesQueue p addr then
    let r := busRead s p addr
    r.2.2.setPath p { r.2.2.path p with data := [r.1], error := decide (r.2.1 ≠ 0) }
  else s

/-- One write as a command. -/
def accessWrite (s : State) (p : Path) (addr : Nat) (d : Word) : State :=
  if s.pathLive p then
    let r := busWrite s p addr d
    r.2.setPath p { r.2.path p with data := [], error := decide (r.1 ≠ 0) }
  else s

/-! ### The register window over USB (R738, R739) -/

/-- The words of a write in address order, up to the first bus error (R738), or up to one whose push waits: the others follow it
(R739). -/
def windowWrites (s : State) (addr : Nat) : List Word → Bool × State
  | [] => (false, s)
  | d :: rest =>
    let r := busWrite s .usb addr d
    if r.1 ≠ 0 then (true, r.2)
    else if r.2.usbWaits then (false, { r.2 with usb := { r.2.usb with request := some (addr + 4, rest) } })
    else windowWrites r.2 (addr + 4) rest

/-- What the request leaves at the path and at endpoint 0; a link lost meanwhile discards it (R747). -/
def windowDone (s : State) (words : List Word) (error : Bool) : State :=
  if s.usb.enumerated then
    let s := setStall (s.setPath .usb { s.path .usb with data := words, error := error }) error
    { s with usb := { s.usb with ctlData := words.flatMap fun w => leBytes 4 w.toNat } }
  else s

/-- Words of a REG_WRITE are performed; the request is answered once the last of them has completed (R739). -/
def windowWrite (s : State) (addr : Nat) (ws : List Word) : State :=
  let r := windowWrites s addr ws
  if r.2.usb.request.isSome then r.2 else windowDone r.2 [] r.1

/-- The push that a REG_WRITE was NAKed for has completed: its other words follow (R739). -/
def resumeRequest (s : State) : State :=
  match s.usb.request with
  | none => s
  | some (a, ws) => windowWrite { s with usb := { s.usb with request := none } } a ws

end Sys2Proof.Machine
end

