-- ==== Sys2Proof/Machine/Session.lean ====
section
/-! DEFINITION. Bench sessions: opening, event frames, bench reset and close, and the account record (R25 to R32, R281 to R285,
R297, R320 to R332, R620, R630, R631). -/

namespace Sys2Proof.Machine

/-! ### Account records (R329, R620, R622) -/

/-- Words 2 to 18 of an account record (R329). -/
def State.accountWords (s : State) (n : Nat) (final : Bool) : List Word :=
  let pair (lo hi : RegName) : List Word := [s.rd lo n, s.rd hi n]
  pack [(n, 0), (bN final, 8), (s.plyOf n, 16)] :: pair .accStartLo .accStartHi ++ lohi s.power.baseTick ++
    pair .accTimeLo .accTimeHi ++ pair .accSramLo .accSramHi ++ pair .accNandwLo .accNandwHi ++
    pair .accNandrLo .accNandrHi ++ pair .accUsbLo .accUsbHi ++ pair .accEnergyLo .accEnergyHi

/-- Start a bench's account record: every account 0, its energy remainder too (R620, R622). -/
def startAccount (s : State) (n : Nat) : State :=
  let zero : List RegName := [.accTimeLo, .accTimeHi, .accSramLo, .accSramHi, .accNandwLo, .accNandwHi, .accNandrLo,
    .accNandrHi, .accUsbLo, .accUsbHi, .accEnergyLo, .accEnergyHi]
  let s := s.each zero fun s r => s.wr r n 0 0
  let s := (s.wr .accStartLo n 0 (W s.power.baseTick)).wr .accStartHi n 0 (W (s.power.baseTick / 2 ^ 32))
  { s with umpire := { s.umpire with energy := s.umpire.energy.put (fun _ => 0) n 0 } }

/-- Close a bench's account record as final and start a new one (R620). -/
def closeAccount (s : State) (n : Nat) : State :=
  let words := s.accountWords n true
  startAccount { s with umpire := { s.umpire with final := s.umpire.final.put (fun _ => []) n words } } n

/-! ### Event frames of two-wire sessions (R249, R283, R284) -/

/-- The words of an event frame (R283). -/
def eventFrame (bench : Nat) (ds : List DWord) : List DWord :=
  frameWords (0 :: pack [(bench, 0), (2 * ds.length, 4)] :: ds.flatMap fun d => [DWord.lo d, DWord.hi d])

/-- Write the backlog of a two-wire session into event frames of up to 7 events on its RSP queue; `fuel` bounds the frames. -/
def frameBacklog (s : State) (n : Nat) : Nat → State
  | 0 => s
  | fuel + 1 =>
    let x := s.sess n
    match x.backlog with
    | [] => s
    | _ :: _ =>
      let s := s.setSess n { x with backlog := x.backlog.drop 7 }
      frameBacklog (sendFrames s (.bench (Fin.ofNat 8 n)) [eventFrame n (x.backlog.take 7)] false false) n fuel

/-- Move the backlog of a bench into its EVT queue while it has room; `fuel` bounds the words (R281). -/
def drainBacklog (s : State) (n : Nat) : Nat → State
  | 0 => s
  | fuel + 1 =>
    let x := s.sess n
    match x.backlog with
    | [] => s
    | d :: rest =>
      if (s.queue (n * 8 + 2)).roomFor 1 then
        drainBacklog (pushWord (s.setSess n { x with backlog := rest }) (n * 8 + 2) .unit d .mark) n fuel
      else s

/-- A bench's backlog is written: to its EVT queue, or between two responses as an event frame on the RSP queue of a two-wire
session (R281 to R284).  While DETACHED nothing can be delivered. -/
def writeBacklog (s : State) (n : Nat) : State :=
  let x := s.sess n
  if !s.survoRuns ∨ x.detached then s
  else if x.transport = .twoWire then
    if (s.stream (.bench (Fin.ofNat 8 n))).held.isEmpty ∧ (s.queue (n * 8 + 1)).roomFor 8 then frameBacklog s n 1 else s
  else drainBacklog s n 48

/-- Completion events of the two-wire admin stream go out in an event frame on AQR, between two responses (R249). -/
def writeAdminFrame (s : State) : State :=
  let x := s.stream .adminTw
  if x.events = [] ∨ x.held ≠ [] ∨ !(s.queue 65).roomFor 8 then s
  else
    let s := s.setStream .adminTw { x with events := x.events.drop 7 }
    sendFrames s .adminTw [eventFrame 15 (x.events.take 7)] false false

/-! ### Opening (R26, R27, R322 to R324, R459, R581, R620, R766) -/

/-- Why an open, with RESUME or without, is refused: DETAIL is the bench's state, and 0 until a window has been restored (R26, R27, R210,
R324, R335, R766). -/
def openRefused (s : State) (n : Nat) (resume : Bool) : Refuse :=
  let x := s.sess n
  let state := some (Status.badState, x.state.code)
  if x.restoreDue ∨ !bitB (s.rd .bnCtrl n) 1 then some (.badState, if x.restoreDue then 0 else x.state.code)
  else if resume then (if x.state ≠ .closed ∧ x.detached then none else state)
  else if x.state ≠ .closed then state
  else if s.isRetired (resBank (4 + n)) then some (.badState, 0)
  else none

/-- A new session of bench `n` (R322, R459, R581, R620). -/
def openSession (s : State) (n : Nat) (via : Transport) (client : BitVec 16) : State :=
  let x := s.sess n
  let num := (x.session + 1) % 2 ^ 16
  let s := s.setSess n { x with
    state := .idle, detached := false, transport := via, client := client, seq := 0, backlog := [], session := num,
    reset := none, late := [] }
  let s := if s.laneServes 0 then (writeRecord s fun r => { r with sessions := r.sessions.put (fun _ => 0) n num }).2 else s
  let c := s.cap n
  let s := s.setCap n { lent := c.lent, lostBanks := c.lostBanks, bankTest := c.bankTest }
  let s := (s.setCmp n {}).wr .bnEvtLost n 0 0
  startAccount s n

/-- An open with RESUME (R323). -/
def resumeSession (s : State) (n : Nat) (via : Transport) (client : BitVec 16) : State :=
  s.setSess n { s.sess n with detached := false, transport := via, client := client }

/-- Words 2 to 5 of the response to an open (R321). -/
def openWords (s : State) (n : Nat) : List Word :=
  let st : Stream := .bench (Fin.ofNat 8 n)
  [s.bnStatus n, s.rd .bnEvtLost n, s.eff .bnOwn n,
    pack [((s.stream st).outstanding.length, 0), ((s.sess n).seq.toNat, 8)]]

/-! ### Bench reset and close (R28, R29, R190, R297, R458, R533, R630, R656, R681) -/

/-- Take away every engine job of bench `n`, contexts and all (R630, R681). -/
def dropJobs (s : State) (n : Nat) : State :=
  let s := iuAbandon s n
  s.each (s.umpire.jobs.filter fun j => decide (j.bench = n)) fun s j => dropJob s j.id

/-- The capture of bench `n` in progress is discarded: what has come to its END by now is kept (R458, R468, R486). -/
def discardCapture (s : State) (n : Nat) : State :=
  let s := if s.capturing n then runDue s n s.power.baseTick else s
  s.setCap n { s.cap n with
    cur := none, next := none, boundary := none, completed := 0, ovr := false, inGap := false, marks := [], staging := 0,
    clkOver := false, clkIdle := false, clkLost := false }

/-- The stream of bench `n` is IDLE; what it holds of a skein that the bobbin no longer keeps is forgotten (R533). -/
def forgetStream (s : State) (n : Nat) : State :=
  let c := s.cmp n
  let kept := (s.streamedSkeins n).any fun k => decide (k.num = c.dur.skein)
  if kept then s.setCmp n { c with state := .idle, cause := none }
  else s.setCmp n { c with state := .idle, cause := none, parts := [], bytes := 0, tail := [], pos := {}, dur := {} }

/-- A bench reset or close begins (R630): RESETTING, the queues flushed, the sequencer stopped, jobs ended, the skein in progress,
undurable blocks and export staging discarded.  The reset of a bench whose window bank is retired is a close (R766). -/
def startReset (s : State) (n : Nat) (close : Bool) (by_ : Option (BitVec 16 × Cmd)) : State :=
  let st : Stream := .bench (Fin.ofNat 8 n)
  let fenced := (s.stream st).fence
  let s := match fenced with
    | some (op, c) => takeCommand s op c
    | none => s
  let s := discardCapture s n
  let s := s.setSess n { s.sess n with
    state := .resetting,
    reset := some { close := close || s.isRetired (resBank (4 + n)), by_ := by_, ended := (s.stream st).outstanding.length, fenced := fenced } }
  let s := stopSequencer (flushBench s n) n
  let s := dropJobs s n
  let s := { s with storage := { s.storage with reads := s.storage.reads.filter fun r => decide (r.bench ≠ n) } }
  let s := discardUndurable s n
  let s := forgetStream s n
  let s := s.setEndpoint (n + 1) { s.endpoint (n + 1) with data := [] }
  let x := s.stream st
  iuPump (sweepOrphans (s.setStream st { x with rx := [], held := [], outstanding := [], fence := none, acking := none }))

/-- Programs of bench `n` are still issued. -/
def State.programming (s : State) (n : Nat) : Bool :=
  (List.range 2).any fun x => (s.lane x).issued.any fun i => decide (i.page.bench = n) && decide (i.page.type ≠ 4)

/-- Return every C and G field of the window to its reset value; a restoration that waits for a verdict still waits (R29, R190,
R210). -/
def resetWindow (s : State) (n : Nat) : State :=
  let waits := (s.sess n).restoreDue && s.underTest (resBank (4 + n))
  let s := restoreWindow s n
  if waits then s.setSess n { s.sess n with parity := true, restoreDue := true } else s

/-- The responses of R297 after BENCH_RESET_DONE: the interrupted synchronous command, and the reset or close itself. -/
def resetResponses (s : State) (n : Nat) (r : ResetJob) : State :=
  let s := match (s.seqr n).force with
    | none => s
    | some c => respond (s.setSeqr n { s.seqr n with force := none }) 0x0304 c .abortedByReset 0 [] s.isReplaying
  let s := match r.fenced with
    | none => s
    | some (op, c) => respond s op c .abortedByReset 0 [] s.isReplaying
  match r.by_ with
  | none => s
  | some (op, c) => respond s op c .done 0 (if op = 0x0103 then [W r.ended] else []) s.isReplaying

/-- DETAIL of the BAD_STATE that answers a command which arrived while its bench was RESETTING (R246): its state then, but for an open with
RESUME, which a close that was taken first has left a CLOSED bench (R324, R368), or a window to be restored (R210). -/
def lateDetail (s : State) (n : Nat) (op : BitVec 16) (c : Cmd) : Nat :=
  if op = 0x0101 ∧ ((s.sess n).restoreDue ∨ c.resume ∧ s.bstate n = .closed) then 0 else BenchState.resetting.code

/-- The commands that arrived during the reset are answered last, in arrival order (R246, R297). -/
def lateResponses (s : State) (n : Nat) (late : List (BitVec 16 × Cmd)) : State :=
  let s := s.each late fun s x => respond s x.1 x.2 .badState (lateDetail s n x.1 x.2) [] s.isReplaying
  postOpenBench (s.setSess n { s.sess n with late := [] })

/-- A closed bench: no session, an empty bobbin, no lent granule (R28, R458).  SEQ and the event words still waiting, the
BENCH_RESET_DONE of the close among them, stay until the next open without RESUME (R287, R322). -/
def releaseSession (s : State) (n : Nat) : State :=
  let x := s.sess n
  let c := s.cap n
  let s := s.setSess n {
    session := x.session, parity := x.parity, restoreDue := x.restoreDue, seq := x.seq, backlog := x.backlog, late := x.late }
  let s := s.setCap n { lostBanks := c.lostBanks, bankTest := c.bankTest }
  freeDeadHanks (s.setCmp n {}) n

/-- A bench reset or close completes (R297, R620, R630), once the programs already issued have. -/
def finishReset (s : State) (n : Nat) : State :=
  match (s.sess n).reset with
  | none => s
  | some r =>
    if s.bstate n ≠ .resetting ∨ !s.live ∨ s.programming n then s
    else
      let s := closeAccount (closeHank s n) n
      let s := resetWindow s n
      let s := s.setSeqr n { force := (s.seqr n).force }
      let s := { s with iu := { s.iu with configs := s.iu.configs.put iuConfigInit n (iuConfigInit n) } }
      let s := s.setSess n { s.sess n with reset := none }
      let s := postEvent s n 0x8101 r.ended
      let s := if (s.sess n).transport = .twoWire then frameBacklog s n 48 else s
      let s := s.setBState n .idle
      let s := resetResponses s n r
      lateResponses (if r.close then releaseSession s n else s) n (s.sess n).late

end Sys2Proof.Machine
end

