-- ==== Sys2Proof/Machine/SessionCommands.lean ====
section
/-! DEFINITION. The session and bench commands, group 0x01 (R321 to R341). -/

namespace Sys2Proof.Machine

/-- The States column I A P H. -/
def statesIAPH : List BenchState := [.idle, .armed, .capturing, .halted]
/-- The States column I A P. -/
def statesIAP : List BenchState := [.idle, .armed, .capturing]
/-- The States column C I A P H. -/
def statesCIAPH : List BenchState := [.closed, .idle, .armed, .capturing, .halted]

/-- The bench of a student command. -/
def cmdBench (c : Cmd) : Nat := c.bench.toNat

/-- TARGET (R316). -/
def cmdTarget (c : Cmd) : Nat := pf c 2 3 0

/-! ### BENCH_OPEN (R321 to R324) -/

/-- The master-table row of BENCH_OPEN. -/
def infoBenchOpen : OpInfo := ⟨0x0101, .stu, none, false, false, [1], [0xFFFF0000]⟩

/-- What BENCH_OPEN does. -/
def meanBenchOpen (c : Cmd) : Meaning where
  cond s := openRefused s (cmdBench c) c.resume
  run s r :=
    let n := cmdBench c
    let client := BitVec.ofNat 16 (pf c 2 15 0)
    let s := if c.resume then resumeSession s n c.via client else openSession s n c.via client
    done s 0x0101 c (openWords s n) r

/-- BENCH_OPEN on a state. -/
def cmdBenchOpen (c : Cmd) (s : State) : State := mailbox s infoBenchOpen c (meanBenchOpen c)

/-- BENCH_OPEN (R322). -/
def execBenchOpen (c : Cmd) (s : State) : Host.Outcome State Fault Refusal := .next (cmdBenchOpen c s)

/-! ### BENCH_CLOSE and BENCH_RESET (R28, R325, R630) -/

/-- The master-table row of BENCH_CLOSE. -/
def infoBenchClose : OpInfo := ⟨0x0102, .stu, some statesIAPH, false, false, [0], []⟩

/-- What BENCH_CLOSE does: it is answered once the reset has completed (R297). -/
def meanBenchClose (c : Cmd) : Meaning where
  run s _ := startReset s (cmdBench c) true (some (0x0102, c))

/-- BENCH_CLOSE on a state. -/
def cmdBenchClose (c : Cmd) (s : State) : State := mailbox s infoBenchClose c (meanBenchClose c)

/-- BENCH_CLOSE (R28). -/
def execBenchClose (c : Cmd) (s : State) : Host.Outcome State Fault Refusal := .next (cmdBenchClose c s)

/-- The master-table row of BENCH_RESET. -/
def infoBenchReset : OpInfo := ⟨0x0103, .stu, some statesIAPH, false, false, [0], []⟩

/-- What BENCH_RESET does: it is answered once the reset has completed (R297). -/
def meanBenchReset (c : Cmd) : Meaning where
  run s _ := startReset s (cmdBench c) false (some (0x0103, c))

/-- BENCH_RESET on a state. -/
def cmdBenchReset (c : Cmd) (s : State) : State := mailbox s infoBenchReset c (meanBenchReset c)

/-- BENCH_RESET (R630). -/
def execBenchReset (c : Cmd) (s : State) : Host.Outcome State Fault Refusal := .next (cmdBenchReset c s)

/-- BENCH_RESET_COMPLETE (R630). -/
def execBenchResetComplete (n : Fin 8) (s : State) : Host.Outcome State Fault Refusal := .next (finishReset s n.val)

/-! ### BENCH_STATUS, CAPS_QUERY and ACCOUNTS_QUERY (R326 to R332) -/

/-- The register as software reads it at its normal address. -/
def State.shown (s : State) (n : RegName) (i : Nat := 0) (j : Nat := 0) : Word := s.compose ⟨n, i, j⟩ false

/-- The master-table row of BENCH_STATUS. -/
def infoBenchStatus : OpInfo := ⟨0x0104, .any, some statesCIAPH, false, true, [1], [0xFFFFFFF0]⟩

/-- The words of BENCH_STATUS (R326). -/
def benchStatusWords (s : State) (n : Nat) : List Word :=
  let x := s.sess n
  [s.bnStatus n, s.rd .bnEvtLost n, s.eff .bnOwn n, s.shown .bnStage n, s.shown .bnCtrl n,
    pack [((s.stream (.bench (Fin.ofNat 8 n))).outstanding.length, 0), (x.backlog.length, 8), (x.seq.toNat, 16)],
    pack [(if x.state = .closed then 0 else x.client.toNat, 0)]]

/-- What BENCH_STATUS does. -/
def meanBenchStatus (c : Cmd) : Meaning where
  run s r := done s 0x0104 c (benchStatusWords s (cmdTarget c)) r

/-- BENCH_STATUS on a state. -/
def cmdBenchStatus (c : Cmd) (s : State) : State := mailbox s infoBenchStatus c (meanBenchStatus c)

/-- BENCH_STATUS (R326). -/
def execBenchStatus (c : Cmd) (s : State) : Host.Outcome State Fault Refusal := .next (cmdBenchStatus c s)

/-- The master-table row of CAPS_QUERY. -/
def infoCapsQuery : OpInfo := ⟨0x0105, .any, some statesCIAPH, false, false, [0], []⟩

/-- Opcodes two to a word, the lower one first (R328). -/
def opcodeWords : List Nat → List Word
  | [] => []
  | [a] => [W a]
  | a :: b :: t => W (a + b * 2 ^ 16) :: opcodeWords t

/-- The words of CAPS_QUERY (R327, R328). -/
def capsWords (s : State) : List Word :=
  let ops := capabilityList s.member
  [s.boot.version, s.boot.build, s.shown .glbParam0, s.shown .glbParam1, s.shown .glbParam2, s.shown .glbParam3,
    s.shown .glbUidLo, s.shown .glbUidHi, pack [(8, 0), (48, 8), (0xE0, 16)],
    pack [(ops.length, 0), (bN s.openBench, 16), (bN s.fw.credHash.isSome, 17), (bN s.fw.admin.isSome, 18)]] ++
    opcodeWords ops

/-- What CAPS_QUERY does. -/
def meanCapsQuery (c : Cmd) : Meaning where
  run s r := done s 0x0105 c (capsWords s) r

/-- CAPS_QUERY on a state. -/
def cmdCapsQuery (c : Cmd) (s : State) : State := mailbox s infoCapsQuery c (meanCapsQuery c)

/-- CAPS_QUERY (R327). -/
def execCapsQuery (c : Cmd) (s : State) : Host.Outcome State Fault Refusal := .next (cmdCapsQuery c s)

/-- The master-table row of ACCOUNTS_QUERY. -/
def infoAccountsQuery : OpInfo := ⟨0x0106, .any, some statesCIAPH, false, true, [1], [0xFFFFFCF0]⟩

/-- The final record of a bench, every value after word 2 zero where there is none (R331). -/
def finalWords (s : State) (n : Nat) : List Word :=
  match s.umpire.final.get (fun _ => []) n with
  | [] => pack [(n, 0), (1, 8), (s.plyOf n, 16)] :: List.replicate 16 0
  | ws => ws

/-- What ACCOUNTS_QUERY does. -/
def meanAccountsQuery (c : Cmd) : Meaning where
  perm _ := refuseIf (bitB (pw c 2) 9 && !isAdmin c) .noPermission 0
  cond s := refuseIf (!isAdmin c && decide (s.bstate (cmdTarget c) = .closed)) .badState 0
  run s r :=
    let n := cmdTarget c
    let s := if bitB (pw c 2) 9 then closeAccount s n else s
    done s 0x0106 c (if bitB (pw c 2) 9 || bitB (pw c 2) 8 then finalWords s n else s.accountWords n false) r

/-- ACCOUNTS_QUERY on a state. -/
def cmdAccountsQuery (c : Cmd) (s : State) : State := mailbox s infoAccountsQuery c (meanAccountsQuery c)

/-- ACCOUNTS_QUERY (R329). -/
def execAccountsQuery (c : Cmd) (s : State) : Host.Outcome State Fault Refusal := .next (cmdAccountsQuery c s)

/-! ### BENCH_CONTROL (R333 to R335) -/

/-- The master-table row of BENCH_CONTROL. -/
def infoBenchControl : OpInfo := ⟨0x0110, .adm, none, false, true, [1], [0xFFFFFEC0]⟩

/-- What BENCH_CONTROL does; a reset or close is answered after BENCH_RESET_DONE (R334). -/
def meanBenchControl (c : Cmd) : Meaning where
  cond s :=
    let st := s.bstate (cmdTarget c)
    refuseIf ((pf c 2 5 4 == 1 || pf c 2 5 4 == 2) && (decide (st = .closed) || decide (st = .resetting))) .badState 0
  args _ := refuseIf (pf c 2 5 4 == 3) .badArg 2
  run s r :=
    let n := cmdTarget c
    if pf c 2 5 4 = 0 then done (s.wrFld .bnCtrl n 0 1 1 (pf c 2 8 8)) 0x0110 c [] r
    else startReset s n (pf c 2 5 4 == 2) (some (0x0110, c))

/-- BENCH_CONTROL on a state. -/
def cmdBenchControl (c : Cmd) (s : State) : State := mailbox s infoBenchControl c (meanBenchControl c)

/-- BENCH_CONTROL with ACTION 0b00 (R335). -/
def execBenchControlEnable (c : Cmd) (s : State) : Host.Outcome State Fault Refusal := .next (cmdBenchControl c s)

/-- BENCH_CONTROL with ACTION 0b01 (R334). -/
def execBenchControlReset (c : Cmd) (s : State) : Host.Outcome State Fault Refusal := .next (cmdBenchControl c s)

/-- BENCH_CONTROL with ACTION 0b10 (R334). -/
def execBenchControlClose (c : Cmd) (s : State) : Host.Outcome State Fault Refusal := .next (cmdBenchControl c s)

/-! ### POD_ASSIGN (R336 to R338) -/

/-- The byte of bench `n` offends (R336). -/
def podByteBad (s : State) (c : Cmd) (n : Nat) : Bool :=
  let b := podByte c n
  (List.range 8).any fun p => b.testBit p &&
    (decide (s.member.pods ≤ p) || decide (s.member.benches ≤ n) || (List.range n).any fun m => (podByte c m).testBit p)

/-- The master-table row of POD_ASSIGN. -/
def infoPodAssign : OpInfo := ⟨0x0111, .adm, none, false, false, [2], []⟩

/-- What POD_ASSIGN does: it is answered once every value is in effect (R185, R187, R338). -/
def meanPodAssign (c : Cmd) : Meaning where
  cond s :=
    refuseIf (s.benchList.any fun n =>
      decide (podByte c n ≠ s.podsOf n) && decide (s.bstate n ≠ .closed) && decide (s.bstate n ≠ .idle)) .badState 0
  args s := ((List.range 8).find? fun n => podByteBad s c n).map fun n => (.badArg, 2 + n / 4)
  run s _ := pumpAssign { s with fw := { s.fw with assign := some c } }

/-- POD_ASSIGN on a state. -/
def cmdPodAssign (c : Cmd) (s : State) : State := mailbox s infoPodAssign c (meanPodAssign c)

/-- POD_ASSIGN (R338). -/
def execPodAssign (c : Cmd) (s : State) : Host.Outcome State Fault Refusal := .next (cmdPodAssign c s)

/-! ### PLY_MEMBERSHIP (R339 to R341) -/

/-- The ply that word 2 gives bench `n`. -/
def plyOfBench (c : Cmd) (n : Nat) : Nat := pf c 2 (2 * n + 1) (2 * n)
/-- The ply that word 3 gives engine `e`. -/
def plyOfEngine (c : Cmd) (e : Nat) : Nat := pf c 3 (2 * e + 1) (2 * e)

/-- Word 2, or word 3, names a ply, a bench or an engine that the member lacks (R340). -/
def plyWordBad (s : State) (c : Cmd) (w : Nat) : Bool :=
  if w = 2 then (List.range 8).any fun n =>
    decide (s.member.plies ≤ plyOfBench c n) || (decide (s.member.benches ≤ n) && decide (plyOfBench c n ≠ 0))
  else (List.range 9).any fun e =>
    decide (s.member.plies ≤ plyOfEngine c e) || (!s.member.hasEngine e && decide (plyOfEngine c e ≠ 0))

/-- Some ply would hold a bench and no compression engine in service (R21, R340). -/
def plyStranded (s : State) (c : Cmd) : Bool :=
  s.benchList.any fun n => !((List.range 4).any fun e => s.engineServes e && decide (plyOfEngine c e = plyOfBench c n))

/-- The master-table row of PLY_MEMBERSHIP. -/
def infoPlyMembership : OpInfo := ⟨0x0112, .adm, none, false, false, [2], [0xFFFF0000, 0xFFFC0000]⟩

/-- With no engine at work no rally boundary is in prospect (R185). -/
def settleRallyAll (s : State) : State :=
  if s.engineList.all fun e => (s.engine e).job.isNone then sweepOrphans (applyRally s) else s

/-- What PLY_MEMBERSHIP does: every value becomes pending, to apply at one rally boundary (R22, R341). -/
def meanPlyMembership (c : Cmd) : Meaning where
  cond s :=
    refuseIf (s.benchList.any fun n => decide (plyOfBench c n ≠ s.plyOf n) &&
      (decide (s.bstate n = .armed) || decide (s.bstate n = .capturing) || decide (s.bstate n = .resetting))) .badState 0
  args s :=
    orElse (refuseIf (plyWordBad s c 2) .badArg 2) <|
    orElse (refuseIf (plyWordBad s c 3) .badArg 3) (refuseIf (plyStranded s c) .badArg 3)
  run s r :=
    let s := s.each s.benchList fun s n => s.wrFld .bnOwn n 0 9 8 (plyOfBench c n)
    let s := s.each s.engineList fun s e => s.wrFld .engCfg e 0 5 4 (plyOfEngine c e)
    done (settleRallyAll s) 0x0112 c [] r

/-- PLY_MEMBERSHIP on a state. -/
def cmdPlyMembership (c : Cmd) (s : State) : State := mailbox s infoPlyMembership c (meanPlyMembership c)

/-- PLY_MEMBERSHIP (R341). -/
def execPlyMembership (c : Cmd) (s : State) : Host.Outcome State Fault Refusal := .next (cmdPlyMembership c s)

end Sys2Proof.Machine
end

