-- ==== Sys2Proof/Machine/AdminCommands.lean ====
section
/-! DEFINITION. Firmware and administration commands, group 0x0E (R15 to R19, R36 to R40, R342 to R373). -/

namespace Sys2Proof.Machine

/-- One second in base ticks (R77). -/
def oneSecond : Nat := 1600000000

/-- The 16 credential bytes of words 2 to 5 (R342). -/
def credBytes (c : Cmd) : List Byte := bytesOfWords ((List.range 4).map fun i => pw c (2 + i))

/-! ### Administrator sessions (R342 to R346) -/

/-- The master-table row of ADMIN_OPEN. -/
def infoAdminOpen : OpInfo := ⟨0x0E01, .adm, none, false, false, [4], []⟩

/-- The credential of an ADMIN_OPEN is refused: none is compared for 1 s after a mismatch (R342, R343). -/
def credRefused (s : State) (c : Cmd) : Bool :=
  match s.fw.credHash with
  | none => false
  | some h => decide (s.power.baseTick < s.fw.lockUntil) || decide (sha256 (credBytes c) ≠ h)

/-- A mismatch starts the second of R343. -/
def lockAdmin (s : State) : State :=
  if s.power.baseTick < s.fw.lockUntil then s else { s with fw := { s.fw with lockUntil := s.power.baseTick + oneSecond } }

/-- What ADMIN_OPEN does (R19, R342, R344). -/
def meanAdminOpen (c : Cmd) : Meaning where
  perm s := refuseIf (credRefused s c) .noPermission 0
  barred := lockAdmin
  cond s := refuseIf s.fw.admin.isSome .badState 0
  run s r := done { s with fw := { s.fw with admin := some (streamVia c) } } 0x0E01 c [] r

/-- ADMIN_OPEN on a state. -/
def cmdAdminOpen (c : Cmd) (s : State) : State := mailbox s infoAdminOpen c (meanAdminOpen c)

/-- ADMIN_OPEN (R342). -/
def execAdminOpen (c : Cmd) (s : State) : Host.Outcome State Fault Refusal := .next (cmdAdminOpen c s)

/-- The master-table row of ADMIN_CLOSE. -/
def infoAdminClose : OpInfo := ⟨0x0E02, .adm, none, false, false, [0], []⟩

/-- What ADMIN_CLOSE does (R345, R346, R370). -/
def meanAdminClose (c : Cmd) : Meaning where
  cond s := refuseIf s.fw.admin.isNone .badState 0
  run s r := done (endAdmin s) 0x0E02 c [] r

/-- ADMIN_CLOSE on a state. -/
def cmdAdminClose (c : Cmd) (s : State) : State := mailbox s infoAdminClose c (meanAdminClose c)

/-- ADMIN_CLOSE (R345). -/
def execAdminClose (c : Cmd) (s : State) : Host.Outcome State Fault Refusal := .next (cmdAdminClose c s)

/-- ADMIN_SESSION_TIMEOUT (R345). -/
def execAdminSessionTimeout (s : State) : Host.Outcome State Fault Refusal :=
  .next (if s.survoRuns then endAdmin s else s)

/-! ### SET_CREDENTIAL (R347 to R349) -/

/-- The master-table row of SET_CREDENTIAL. -/
def infoSetCredential : OpInfo := ⟨0x0E03, .adm, none, false, false, [5], [0, 0, 0, 0, 0xFFFFFFFE]⟩

/-- The hash that a SET_CREDENTIAL stores; none with CLEAR. -/
def newHash (c : Cmd) : Option (List Byte) := if bitB (pw c 6) 0 then none else some (sha256 (credBytes c))

/-- What SET_CREDENTIAL does: a member with lanes stores the hash in the configuration record on SLA; where neither copy can be programmed
the credential stays (R347 to R349). -/
def meanSetCredential (c : Cmd) : Meaning where
  args _ := refuseIf (bitB (pw c 6) 0 != (credBytes c).all fun b => b == 0) .badArg 2
  run s r :=
    if 0 < s.member.lanes ∧ !s.laneServes 0 then respond s 0x0E03 c .retired (s.retireCode (resLane 0)) [] r
    else
      let w := if 0 < s.member.lanes then writeRecord s fun x => { x with hash := newHash c } else (true, s)
      if w.1 then done { w.2 with fw := { w.2.fw with credHash := newHash c } } 0x0E03 c [] r
      else respond w.2 0x0E03 c .retired 0x0501 [] r

/-- SET_CREDENTIAL on a state. -/
def cmdSetCredential (c : Cmd) (s : State) : State := mailbox s infoSetCredential c (meanSetCredential c)

/-- SET_CREDENTIAL with CLEAR 0 (R348). -/
def execSetCredential (c : Cmd) (s : State) : Host.Outcome State Fault Refusal := .next (cmdSetCredential c s)

/-- SET_CREDENTIAL with CLEAR 1 (R347). -/
def execSetCredentialClear (c : Cmd) (s : State) : Host.Outcome State Fault Refusal := .next (cmdSetCredential c s)

/-! ### Open Bench mode (R36, R37, R40, R310, R350) -/

/-- Enter or leave Open Bench mode, after the response (R40, R310, R350); the event follows the responses of the commands taken
before. -/
def setOpenMode (s : State) (on : Bool) : State :=
  if s.fw.openMode = on then s else postOpenBench { s with fw := { s.fw with openMode := on, openPost := some on } }

/-- The master-table row of OPEN_BENCH_ENTER. -/
def infoOpenBenchEnter : OpInfo := ⟨0x0E10, .adm, none, false, false, [0], []⟩

/-- What OPEN_BENCH_ENTER does. -/
def meanOpenBenchEnter (c : Cmd) : Meaning where
  run s r := setOpenMode (done s 0x0E10 c [] r) true

/-- OPEN_BENCH_ENTER on a state. -/
def cmdOpenBenchEnter (c : Cmd) (s : State) : State := mailbox s infoOpenBenchEnter c (meanOpenBenchEnter c)

/-- OPEN_BENCH_ENTER (R37). -/
def execOpenBenchEnter (c : Cmd) (s : State) : Host.Outcome State Fault Refusal := .next (cmdOpenBenchEnter c s)

/-- The master-table row of OPEN_BENCH_LEAVE. -/
def infoOpenBenchLeave : OpInfo := ⟨0x0E11, .adm, none, false, false, [0], []⟩

/-- What OPEN_BENCH_LEAVE does. -/
def meanOpenBenchLeave (c : Cmd) : Meaning where
  cond s := refuseIf s.boot.straps.openMode .badState 0
  run s r := setOpenMode (done s 0x0E11 c [] r) false

/-- OPEN_BENCH_LEAVE on a state. -/
def cmdOpenBenchLeave (c : Cmd) (s : State) : State := mailbox s infoOpenBenchLeave c (meanOpenBenchLeave c)

/-- OPEN_BENCH_LEAVE (R350). -/
def execOpenBenchLeave (c : Cmd) (s : State) : Host.Outcome State Fault Refusal := .next (cmdOpenBenchLeave c s)

/-! ### Register access (R351 to R356) -/

/-- The master-table row of REG_LOG_READ. -/
def infoRegLogRead : OpInfo := ⟨0x0E12, .adm, none, false, false, [1], [0xFFC0FC00]⟩

/-- The words of one ring entry (R355). -/
def WriteEntry.words (e : WriteEntry) : List Word :=
  [pack [(e.addr % 2 ^ 20, 0), (pathCode e.path, 20)], e.data] ++ lohi (e.tick % 2 ^ 56)

/-- What REG_LOG_READ does. -/
def meanRegLogRead (c : Cmd) : Meaning where
  args _ := refuseIf (decide (pf c 2 21 16 < 1) || decide (55 < pf c 2 21 16)) .badArg 2
  run s r :=
    let es := (s.fw.writes.drop (pf c 2 9 0)).take (pf c 2 21 16)
    done s 0x0E12 c (W s.fw.writes.length :: W s.fw.writesEntered :: es.flatMap WriteEntry.words) r

/-- REG_LOG_READ on a state. -/
def cmdRegLogRead (c : Cmd) (s : State) : State := mailbox s infoRegLogRead c (meanRegLogRead c)

/-- REG_LOG_READ (R355). -/
def execRegLogRead (c : Cmd) (s : State) : Host.Outcome State Fault Refusal := .next (cmdRegLogRead c s)

/-- Offsets 0x08 to 0x1C of a queue or an admin chain, in any view (R353). -/
def isQueuePort (addr : Nat) : Bool :=
  let a := addr % 0x10000
  decide (viewOf addr ≤ 4) && ((decide (0x6000 ≤ a) && decide (a < 0x7000)) || isChain a) &&
    decide (8 ≤ a % 0x40) && decide (a % 0x40 < 0x20)

/-- A student of bench `n` may read the address: the global block and the bench's own window, in any view (R352). -/
def studentReads (n addr : Nat) : Bool :=
  let a := addr % 0x10000
  decide (viewOf addr ≤ 4) && (decide (a < 0x1000) || decide (windowOf a = some n))

/-- The addresses of a REG_READ (R351). -/
def regReadAddrs (c : Cmd) : List Nat := (List.range (pf c 2 28 24)).map fun i => pf c 2 19 0 + 4 * i

/-- Read the addresses in order on the Survo path up to the first bus error (R351, R353); the Bool says one was raised. -/
def readMany (s : State) : List Nat → List Word × Bool × State
  | [] => ([], false, s)
  | a :: t =>
    let r := busRead s .survo a
    if r.2.1 ≠ 0 then ([], true, r.2.2)
    else
      let q := readMany r.2.2 t
      (r.1 :: q.1, q.2.1, q.2.2)

/-- The master-table row of REG_READ. -/
def infoRegRead : OpInfo := ⟨0x0E13, .any, some statesIAPH, false, false, [1], [0xE0F00000]⟩

/-- What REG_READ does (R351 to R353). -/
def meanRegRead (c : Cmd) : Meaning where
  perm _ := refuseIf ((regReadAddrs c).any fun a => isCredential a || (!isAdmin c && !studentReads (cmdBench c) a)) .noPermission 0
  args _ :=
    refuseIf (decide (pf c 2 28 24 < 1) || decide (16 < pf c 2 28 24) || (regReadAddrs c).any isQueuePort) .badArg 2
  run s r :=
    let d := readMany s (regReadAddrs c)
    if d.2.1 then respond d.2.2 0x0E13 c .badArg 0 [] r else done d.2.2 0x0E13 c d.1 r

/-- REG_READ on a state. -/
def cmdRegRead (c : Cmd) (s : State) : State := mailbox s infoRegRead c (meanRegRead c)

/-- REG_READ (R351). -/
def execRegRead (c : Cmd) (s : State) : Host.Outcome State Fault Refusal := .next (cmdRegRead c s)

/-- The master-table row of REG_WRITE. -/
def infoRegWrite : OpInfo := ⟨0x0E14, .adm, none, false, false, [2], [0xFFF00000, 0]⟩

/-- What REG_WRITE does (R352 to R354). -/
def meanRegWrite (c : Cmd) : Meaning where
  perm _ := refuseIf (isCredential (pf c 2 19 0)) .noPermission 0
  args _ := refuseIf (isQueuePort (pf c 2 19 0)) .badArg 2
  run s r :=
    let d := busWrite s .survo (pf c 2 19 0) (pw c 3)
    if d.1 ≠ 0 then respond d.2 0x0E14 c .badArg 0 [] r
    else done (logWrite d.2 .survo (pf c 2 19 0) (pw c 3)) 0x0E14 c [] r

/-- REG_WRITE on a state. -/
def cmdRegWrite (c : Cmd) (s : State) : State := mailbox s infoRegWrite c (meanRegWrite c)

/-- REG_WRITE (R354). -/
def execRegWrite (c : Cmd) (s : State) : Host.Outcome State Fault Refusal := .next (cmdRegWrite c s)

/-! ### Firmware (R357 to R366) -/

/-- The running image comes from the boot hank that COPY names; a recovery image comes from none (R137, R359). -/
def State.runsCopy (s : State) (copyB : Bool) : Bool := s.boot.runningB == copyB && !s.boot.flags.getLsbD 3

/-- The copy failed at the last start and has not been rewritten since (R142, R359). -/
def State.copyFailed (s : State) (copyB : Bool) : Bool :=
  (if copyB then s.boot.flags.getLsbD 1 else s.boot.flags.getLsbD 0) && !s.boot.rewritten

/-- The master-table row of FW_LOAD_BEGIN. -/
def infoFwLoadBegin : OpInfo := ⟨0x0E20, .adm, none, false, false, [2], [0xFFFFFFFE, 0]⟩

/-- What FW_LOAD_BEGIN does (R357 to R359, R371). -/
def meanFwLoadBegin (c : Cmd) : Meaning where
  cond s := refuseIf (s.fw.commit.isSome || s.runsCopy (bitB (pw c 2) 0) && s.copyFailed (!bitB (pw c 2) 0)) .badState 0
  args _ :=
    let size := (pw c 3).toNat
    refuseIf (decide (size % 4 ≠ 0) || decide (size < 0x84) || decide (229376 < size)) .badArg 3
  space s := refuseIf (decide (s.poolUnlent < 14)) .noSpace 0
  run s r := done { s with fw := { s.fw with staging := some ⟨bitB (pw c 2) 0, (pw c 3).toNat, []⟩ } } 0x0E20 c [] r

/-- FW_LOAD_BEGIN on a state. -/
def cmdFwLoadBegin (c : Cmd) (s : State) : State := mailbox s infoFwLoadBegin c (meanFwLoadBegin c)

/-- FW_LOAD_BEGIN (R358). -/
def execFwLoadBegin (c : Cmd) (s : State) : Host.Outcome State Fault Refusal := .next (cmdFwLoadBegin c s)

/-- Write bytes into staging from an offset. -/
def Staging.write (g : Staging) (off : Nat) (bs : List Byte) : Staging :=
  { g with bytes := (bs.mapIdx fun i b => (off + i, b)).foldl (fun m e => m.put (fun _ => 0) e.1 e.2) g.bytes }

/-- The master-table row of FW_LOAD_DATA. -/
def infoFwLoadData : OpInfo := ⟨0x0E21, .adm, none, false, false, (List.range 223).map (· + 2), []⟩

/-- What FW_LOAD_DATA does (R360, R371). -/
def meanFwLoadData (c : Cmd) : Meaning where
  cond s := refuseIf (s.fw.commit.isSome || s.fw.staging.isNone) .badState 0
  args s :=
    let off := (pw c 2).toNat
    refuseIf (decide (off % 4 ≠ 0) ||
      decide ((s.fw.staging.map Staging.size).getD 0 < off + 4 * (cmdLen c - 1))) .badArg 2
  run s r :=
    let data := bytesOfWords (c.payload.drop 1)
    done { s with fw := { s.fw with staging := s.fw.staging.map fun g => g.write (pw c 2).toNat data } } 0x0E21 c [] r

/-- FW_LOAD_DATA on a state. -/
def cmdFwLoadData (c : Cmd) (s : State) : State := mailbox s infoFwLoadData c (meanFwLoadData c)

/-- FW_LOAD_DATA (R360). -/
def execFwLoadData (c : Cmd) (s : State) : Host.Outcome State Fault Refusal := .next (cmdFwLoadData c s)

/-- The master-table row of FW_LOAD_COMMIT. -/
def infoFwLoadCommit : OpInfo := ⟨0x0E22, .adm, none, true, false, [1], [0]⟩

/-- What FW_LOAD_COMMIT does: its steps follow while no command waits (R361); `programOk` and `verifyOk` are what the NAND does in steps 3
and 4. -/
def meanFwLoadCommit (c : Cmd) (programOk verifyOk : Bool) : Meaning where
  cond s := refuseIf (s.fw.commit.isSome || s.fw.staging.isNone) .badState 0
  run s r :=
    let s := accept s 0x0E22 c r
    { s with fw := { s.fw with
      commit := some { stream := c.stream, tag := c.tag, crc := pw c 2, programOk := programOk, verifyOk := verifyOk } } }

/-- FW_LOAD_COMMIT on a state. -/
def cmdFwLoadCommit (c : Cmd) (programOk verifyOk : Bool) (s : State) : State :=
  mailbox s infoFwLoadCommit c (meanFwLoadCommit c programOk verifyOk)

/-- FW_LOAD_COMMIT (R361). -/
def execFwLoadCommit (c : Cmd) (programOk verifyOk : Bool) (s : State) : Host.Outcome State Fault Refusal :=
  .next (cmdFwLoadCommit c programOk verifyOk s)

/-- The master-table row of PART_RESET. -/
def infoPartReset : OpInfo := ⟨0x0E23, .adm, none, false, false, [1], [0xFFFF0000]⟩

/-- What PART_RESET does: the reset follows once the host has read the response or 5 ms have passed (R366, R371). -/
def meanPartReset (c : Cmd) : Meaning where
  cond s := refuseIf s.fw.commit.isSome .badState 0
  args _ := refuseIf (decide (pf c 2 15 0 ≠ 0x0A9E)) .badArg 2
  run s r :=
    let s := done s 0x0E23 c [] r
    { s with fw := { s.fw with partReset := some (c.stream, s.power.baseTick + oneSecond / 200) } }

/-- PART_RESET on a state. -/
def cmdPartReset (c : Cmd) (s : State) : State := mailbox s infoPartReset c (meanPartReset c)

/-- PART_RESET (R366). -/
def execPartReset (c : Cmd) (s : State) : Host.Outcome State Fault Refusal := .next (cmdPartReset c s)

/-! ### An opcode that is not listed (R269) -/

/-- BAD_OPCODE_COMMAND (R269): nothing happens for an opcode that the capability report lists. -/
def execBadOpcodeCommand (opcode : BitVec 16) (c : Cmd) (s : State) : Host.Outcome State Fault Refusal :=
  .next (if (capabilityList s.member).contains opcode.toNat then s
    else mailbox s ⟨opcode, .any, none, false, false, [], []⟩ c { run := fun s _ => s })

end Sys2Proof.Machine
end

