-- ==== Sys2Proof/Machine/FrontEndCommands.lean ====
section
/-! DEFINITION. Front-end commands, group 0x02, and the front end's own events (R376 to R410). -/

namespace Sys2Proof.Machine

/-- Write stored words of bench `n`'s window one after the other; they settle together (R185, R301, R410). -/
def stageRegs (s : State) (n : Nat) (l : List (RegName × Nat × Word)) : State :=
  settleBench (s.each l fun s x => s.wr x.1 n x.2.1 x.2.2) n

/-! ### FE_SET_POD (R376, R377, R408) -/

/-- The master-table row of FE_SET_POD. -/
def infoFeSetPod : OpInfo := ⟨0x0201, .stu, some statesIAP, false, false, [2], [0xFFFFFFF8, 0xFFFFF800]⟩

/-- What FE_SET_POD does. -/
def meanFeSetPod (c : Cmd) : Meaning where
  args s :=
    orElse (refuseIf (!s.owns (cmdBench c) (pf c 2 2 0)) .badArg 2)
      (refuseIf (decide (pf c 3 8 0 < 10) || decide (400 < pf c 3 8 0) || decide (2 < pf c 3 10 9)) .badArg 3)
  run s r := done (stageRegs s (cmdBench c) [(.fePod, pf c 2 2 0, pw c 3)]) 0x0201 c [] r

/-- FE_SET_POD on a state. -/
def cmdFeSetPod (c : Cmd) (s : State) : State := mailbox s infoFeSetPod c (meanFeSetPod c)

/-- FE_SET_POD (R376). -/
def execFeSetPod (c : Cmd) (s : State) : Host.Outcome State Fault Refusal := .next (cmdFeSetPod c s)

/-! ### FE_SET_MODE (R378, R381, R408) -/

/-- The master-table row of FE_SET_MODE. -/
def infoFeSetMode : OpInfo := ⟨0x0202, .stu, some [.idle], false, false, [1], [0xFFFFF88C]⟩

/-- What FE_SET_MODE does. -/
def meanFeSetMode (c : Cmd) : Meaning where
  args s :=
    let w := pw c 2
    refuseIf (decide (2 < fld w 1 0) || decide (2 < fld w 6 5) || (bitB w 4 && decide (fld w 1 0 ≠ 0)) ||
      !s.owns (cmdBench c) (fld w 10 8)) .badArg 2
  run s r := done (stageRegs s (cmdBench c) [(.feMode, 0, pw c 2)]) 0x0202 c [] r

/-- FE_SET_MODE on a state. -/
def cmdFeSetMode (c : Cmd) (s : State) : State := mailbox s infoFeSetMode c (meanFeSetMode c)

/-- FE_SET_MODE (R378). -/
def execFeSetMode (c : Cmd) (s : State) : Host.Outcome State Fault Refusal := .next (cmdFeSetMode c s)

/-! ### FE_QUERY (R408) -/

/-- The master-table row of FE_QUERY. -/
def infoFeQuery : OpInfo := ⟨0x0203, .any, some statesIAPH, false, true, [1], [0xFFFFFFF0]⟩

/-- The words of FE_QUERY (R408). -/
def feQueryWords (s : State) (n : Nat) : List Word :=
  [s.eff .feMode n, s.rd .feMode n] ++
    ((List.range 8).map fun p => if s.owns n p then s.eff .fePod n p else 0) ++
    (List.range 8).map fun p => s.feValid n p

/-- What FE_QUERY does. -/
def meanFeQuery (c : Cmd) : Meaning where
  run s r := done s 0x0203 c (feQueryWords s (cmdTarget c)) r

/-- FE_QUERY on a state. -/
def cmdFeQuery (c : Cmd) (s : State) : State := mailbox s infoFeQuery c (meanFeQuery c)

/-- FE_QUERY (R408). -/
def execFeQuery (c : Cmd) (s : State) : Host.Outcome State Fault Refusal := .next (cmdFeQuery c s)

/-! ### FE_HEALTH (R408, R409) -/

/-- The master-table row of FE_HEALTH. -/
def infoFeHealth : OpInfo := ⟨0x0204, .any, some statesIAPH, false, true, [1], [0xFFFFFE80]⟩

/-- The loopback test of FE_HEALTH on each of the 32 channels of pod `p` in turn; `fails` marks the channels that fail it, which is the
answer.  The verdict on a channel that is retired or under a test of its own changes nothing (R397, R409, R780). -/
def testPod (s : State) (p : Nat) (fails : Word) : Nat × State :=
  (fails.toNat, s.each (List.range 32) fun s d => testChannel s (32 * p + d) (!bitB fails d))

/-- The words of FE_HEALTH (R408). -/
def feHealthWords (s : State) (n p failed : Nat) : List Word :=
  [s.shown .feOvd n p, s.shown .feStuck n p, s.feValid n p, s.retCh p, s.rd .feOvdcnt n p, W failed]

/-- What FE_HEALTH does; `fails` are the channels that fail the test, a free value where the command does not say.  A replay re-enacts
the tests from its log (R832). -/
def meanFeHealth (c : Cmd) (fails : Option Word) : Meaning where
  perm s := refuseIf (bitB (pw c 2) 8 && !isAdmin c && !s.owns (cmdTarget c) (pf c 2 6 4)) .noPermission 0
  cond s :=
    refuseIf (bitB (pw c 2) 8 && decide (s.bstate (cmdTarget c) ≠ .idle)) .badState (s.bstate (cmdTarget c)).code
  args s := refuseIf (!s.owns (cmdTarget c) (pf c 2 6 4)) .badArg 2
  run s r :=
    let n := cmdTarget c
    let p := pf c 2 6 4
    let tested : Nat × State :=
      if !bitB (pw c 2) 8 || r then (0, s)
      else match fails with
        | some f => testPod s p f
        | none =>
          let d := s.draw 32
          testPod d.2 p (W d.1)
    done tested.2 0x0204 c (feHealthWords tested.2 n p tested.1) r

/-- FE_HEALTH on a state. -/
def cmdFeHealth (c : Cmd) (fails : Option Word) (s : State) : State := mailbox s infoFeHealth c (meanFeHealth c fails)

/-- FE_HEALTH (R408). -/
def execFeHealth (c : Cmd) (s : State) : Host.Outcome State Fault Refusal := .next (cmdFeHealth c none s)

/-- FE_HEALTH with TEST (R409). -/
def execFeHealthTest (c : Cmd) (fails : Word) (s : State) : Host.Outcome State Fault Refusal :=
  .next (cmdFeHealth c (some fails) s)

/-! ### FE_DESKEW (R388, R408) -/

/-- The master-table row of FE_DESKEW. -/
def infoFeDeskew : OpInfo := ⟨0x0205, .stu, some [.idle], false, false, [5], [0xFFFFFEF8]⟩

/-- The first of words 3 to 6 that is not zero. -/
def firstNonzero (c : Cmd) : Option Nat := [3, 4, 5, 6].find? fun w => decide (pw c w ≠ 0)

/-- What FE_DESKEW does. -/
def meanFeDeskew (c : Cmd) : Meaning where
  args s :=
    orElse (refuseIf (!s.owns (cmdBench c) (pf c 2 2 0)) .badArg 2)
      (if bitB (pw c 2) 8 then (firstNonzero c).map fun w => (.badArg, w) else none)
  run s r :=
    let p := pf c 2 2 0
    done (stageRegs s (cmdBench c) ((List.range 4).map fun j => (.feDsk, 4 * p + j, pw c (3 + j)))) 0x0205 c [] r

/-- FE_DESKEW on a state. -/
def cmdFeDeskew (c : Cmd) (s : State) : State := mailbox s infoFeDeskew c (meanFeDeskew c)

/-- FE_DESKEW (R388). -/
def execFeDeskew (c : Cmd) (s : State) : Host.Outcome State Fault Refusal := .next (cmdFeDeskew c s)

/-! ### Overdrive (R392, R393, R401) -/

/-- 100 ms in base ticks (R393). -/
def tenthSecond : Nat := 160000000

/-- Post OVERDRIVE for a pod, at most once per 100 ms (R393, R401): the first channel with an onset since the last event, and the
channels of the pod in overdrive. -/
def postOverdrive (s : State) (p n : Nat) : State :=
  let last := s.fw.ovdTick.get (fun _ => 0) p
  if s.bstate n = .closed ∨ (last ≠ 0 ∧ s.power.baseTick + 1 < last + tenthSecond) then s
  else
    let first := (s.fw.ovdNew.find? fun ch => decide (ch / 32 = p)).getD (32 * p)
    let s := postEvent s n 0x8201 (first + popcount (s.pod p).ovd * 2 ^ 8)
    { s with fw := { s.fw with
      ovdTick := s.fw.ovdTick.put (fun _ => 0) p (s.power.baseTick + 1)
      ovdNew := s.fw.ovdNew.filter fun ch => decide (ch / 32 ≠ p) } }

/-- A channel's clamp current exceeds the threshold (R392, R393). -/
def startOverdrive (s : State) (p d : Nat) : State :=
  if !s.live || bitB (s.pod p).ovd d || decide (s.member.pods ≤ p) then s
  else
    let s := setOverdrive s p ((s.pod p).ovd ||| W (2 ^ d))
    match s.ownerOf p with
    | none => s
    | some n =>
      let s := { s with fw := { s.fw with ovdNew := s.fw.ovdNew ++ [32 * p + d] } }
      if s.isReady then postOverdrive s p n else s

/-- OVERDRIVE_ONSET (R392). -/
def execOverdriveOnset (p : Fin 8) (d : Fin 32) (s : State) : Host.Outcome State Fault Refusal :=
  .next (startOverdrive s p.val d.val)

/-- OVERDRIVE_END (R392). -/
def execOverdriveEnd (p : Fin 8) (d : Fin 32) (s : State) : Host.Outcome State Fault Refusal :=
  .next (if s.live then s.setPod p.val { s.pod p.val with ovd := (s.pod p.val).ovd &&& ~~~ W (2 ^ d.val) } else s)

/-! ### The stuck-at monitor and the clock monitor (R385, R394 to R396) -/

/-- The stuck-at window of a sampled channel expires (R394 to R396); a change of value in the same window prevails (R404). -/
def stuckExpiry (s : State) (n p d : Nat) : State :=
  let ch := 32 * p + d
  let c := s.cap n
  let changes := decide (c.lastTick / 8 = s.power.baseTick / 8) && bitB (wordAt c.changed p) d
  if !s.live || !s.capturing n || decide (fld (s.rd .feCtrl n) 7 0 = 0) || !s.samples n p d || bitB (s.pod p).stuck d || changes then s
  else
    let s := s.setPod p { s.pod p with stuck := (s.pod p).stuck ||| W (2 ^ d) }
    if bitB (s.rd .feCtrl n) 8 ∧ ch ∉ s.ref.quiet then
      raiseFault { s with ref := { s.ref with asked := (ch, s.power.baseTick) :: s.ref.asked.filter fun a => a.1 != ch } }
        (resChannel ch) 0x0101
    else s

/-- STUCK_WINDOW_EXPIRY (R394). -/
def execStuckWindowExpiry (n p : Fin 8) (d : Fin 32) (s : State) : Host.Outcome State Fault Refusal :=
  .next (stuckExpiry s n.val p.val d.val)

/-- CLK_IDLE_TIMEOUT (R385). -/
def execClkIdleTimeout (n : Fin 8) (s : State) : Host.Outcome State Fault Refusal :=
  .next (if s.live && s.capturing n.val && s.stateMode n.val then s.setCap n.val { s.cap n.val with clkIdle := true } else s)

/-! ### Pod presence (R399, R400) -/

/-- The poll of one pod's EEPROM, once per second after READY. -/
def pollPod (s : State) (p : Nat) (r : PodRead) : State :=
  if !s.isReady || !s.mayControl || decide (s.member.pods ≤ p) then s
  else if !(s.pod p).present then readPod s p r true
  else match r with
    | .absent k => readPod s p (.absent k) true
    | .lost => lostPod s p 4
    | .bytes k _ => accessPod s p (.bytes k []) []

/-- POD_PRESENCE_POLL (R399). -/
def execPodPresencePoll (p : Fin 8) (read : PodRead) (s : State) : Host.Outcome State Fault Refusal :=
  .next (pollPod s p.val read)

end Sys2Proof.Machine
end

