-- ==== Sys2Proof/Machine/TriggerCommands.lean ====
section
/-! DEFINITION. Trigger commands, group 0x03 (R435, R438, R451 to R454). -/

namespace Sys2Proof.Machine

/-- A SRC that a condition word may hold (R417). -/
def srcGood (src : Nat) : Bool := decide (src ≤ 1) || (decide (0x08 ≤ src) && decide (src ≤ 0x19)) ||
  (decide (0x20 ≤ src) && decide (src ≤ 0x27))

/-- A CTRL word is free of OP 0b111 and COMB 0b11 (R451). -/
def ctrlGood (w : Word) : Bool := decide (fld w 2 0 ≠ 7) && decide (fld w 10 8 ≠ 7) && decide (fld w 17 16 ≠ 3)

/-! ### TRG_SET_LEVEL (R451, R452) -/

/-- FIRST and COUNT of TRG_SET_LEVEL. -/
def levelRange (c : Cmd) : Nat × Nat := (pf c 2 3 0, pf c 2 8 4)

/-- The master-table row of TRG_SET_LEVEL; LEN follows COUNT (R451). -/
def infoTrgSetLevel (c : Cmd) : OpInfo :=
  let k := (levelRange c).2
  ⟨0x0301, .stu, some statesIAP, false, false,
    if 1 ≤ k ∧ k ≤ 16 then [1 + 3 * k] else (List.range 16).map fun i => 4 + 3 * i,
    0xFFFFFE00 :: (List.replicate 16 [0xFFFFFF80, 0xFFFFFF80, 0xFC0C8080]).flatten⟩

/-- The first payload word from 3 on that R451 does not allow. -/
def levelWordBad (c : Cmd) : Option Nat :=
  ((List.range (3 * (levelRange c).2)).map (· + 3)).find? fun w =>
    if w % 3 = 2 then !ctrlGood (pw c w) else !srcGood (pf c w 5 0)

/-- The registers of one level: COND0, COND1, CTRL. -/
def levelRegs (c : Cmd) (i : Nat) : List (RegName × Nat × Word) :=
  let k := (levelRange c).1 + i
  [(.trgLCond0, k, pw c (3 + 3 * i)), (.trgLCond1, k, pw c (4 + 3 * i)), (.trgLCtrl, k, pw c (5 + 3 * i))]

/-- What TRG_SET_LEVEL does. -/
def meanTrgSetLevel (c : Cmd) : Meaning where
  args _ :=
    let r := levelRange c
    orElse (refuseIf (decide (r.2 < 1) || decide (16 < r.1 + r.2)) .badArg 2) ((levelWordBad c).map fun w => (.badArg, w))
  run s r := done (stageRegs s (cmdBench c) ((List.range (levelRange c).2).flatMap (levelRegs c))) 0x0301 c [] r

/-- TRG_SET_LEVEL on a state. -/
def cmdTrgSetLevel (c : Cmd) (s : State) : State := mailbox s (infoTrgSetLevel c) c (meanTrgSetLevel c)

/-- TRG_SET_LEVEL (R452). -/
def execTrgSetLevel (c : Cmd) (s : State) : Host.Outcome State Fault Refusal := .next (cmdTrgSetLevel c s)

/-! ### TRG_SET_RESOURCE (R451, R452) -/

/-- For each KIND: its LENs, the reserved bits of the words from 3 on, and how many the bench has. -/
def resourceForm (kind : Nat) : List Nat × List Word × Nat :=
  match kind with
  | 0 => ([5], [0xFFFFFFE8], 8)
  | 1 => ([2], [0xFFFFFC00], 4)
  | 2 => ([2], [], 4)
  | 3 => ([3], [0, 0xFFFF0000], 2)
  | 4 => ([2], [0xFFFFFFFE], 1)
  | _ => ([2, 3, 5], [], 0)

/-- The master-table row of TRG_SET_RESOURCE; LEN and the reserved bits follow KIND (R451). -/
def infoTrgSetResource (c : Cmd) : OpInfo :=
  let f := resourceForm (pf c 2 2 0)
  ⟨0x0302, .stu, some statesIAP, false, false, f.1, 0xFFFFF8F8 :: f.2.1⟩

/-- The POD or the edge CH lies outside the pods the bench owns (R451). -/
def resourceForeign (s : State) (c : Cmd) : Bool :=
  match pf c 2 2 0 with
  | 0 => !s.owns (cmdBench c) (pf c 3 2 0)
  | 1 => !s.owns (cmdBench c) (pf c 3 7 0 / 32)
  | _ => false

/-- The registers a TRG_SET_RESOURCE writes. -/
def resourceRegs (c : Cmd) : List (RegName × Nat × Word) :=
  let i := pf c 2 10 8
  match pf c 2 2 0 with
  | 0 => [(.trgWcCfg, i, pw c 3), (.trgWcMask, i, pw c 4), (.trgWcA, i, pw c 5), (.trgWcB, i, pw c 6)]
  | 1 => [(.trgEdge, i, pw c 3)]
  | 2 => [(.trgCntLim, i, pw c 3)]
  | 3 => [(.trgTmrLimLo, i, pw c 3), (.trgTmrLimHi, i, pw c 4)]
  | _ => [(.trgCfg, 0, pw c 3)]

/-- What TRG_SET_RESOURCE does. -/
def meanTrgSetResource (c : Cmd) : Meaning where
  args s :=
    orElse (refuseIf (decide ((resourceForm (pf c 2 2 0)).2.2 ≤ pf c 2 10 8)) .badArg 2)
      (refuseIf (resourceForeign s c) .badArg 3)
  run s r := done (stageRegs s (cmdBench c) (resourceRegs c)) 0x0302 c [] r

/-- TRG_SET_RESOURCE on a state. -/
def cmdTrgSetResource (c : Cmd) (s : State) : State := mailbox s (infoTrgSetResource c) c (meanTrgSetResource c)

/-- TRG_SET_RESOURCE (R452). -/
def execTrgSetResource (c : Cmd) (s : State) : Host.Outcome State Fault Refusal := .next (cmdTrgSetResource c s)

/-! ### TRG_QUERY (R453) -/

/-- The master-table row of TRG_QUERY. -/
def infoTrgQuery : OpInfo := ⟨0x0303, .any, some statesIAPH, false, true, [1], [0xFFFFFFF0]⟩

/-- The words of TRG_QUERY (R451, R453). -/
def trgQueryWords (s : State) (n : Nat) : List Word :=
  [s.shown .trgStatus n, s.shown .trgTrigLo n, s.shown .trgTrigHi n] ++
    ((List.range 4).map fun c => s.shown .trgCnt n c) ++
    ((List.range 2).flatMap fun t => [s.shown .trgTmrLo n t, s.shown .trgTmrHi n t]) ++
    [s.eff .trgRelayEn n, s.eff .trgCfg n]

/-- What TRG_QUERY does. -/
def meanTrgQuery (c : Cmd) : Meaning where
  run s r := done s 0x0303 c (trgQueryWords s (cmdTarget c)) r

/-- TRG_QUERY on a state. -/
def cmdTrgQuery (c : Cmd) (s : State) : State := mailbox s infoTrgQuery c (meanTrgQuery c)

/-- TRG_QUERY (R453). -/
def execTrgQuery (c : Cmd) (s : State) : Host.Outcome State Fault Refusal := .next (cmdTrgQuery c s)

/-! ### TRG_FORCE (R435) -/

/-- The master-table row of TRG_FORCE. -/
def infoTrgForce : OpInfo := ⟨0x0304, .stu, some [.armed], false, false, [0], []⟩

/-- What TRG_FORCE does: the first sample of the next vector carries the trigger, and its tick answers the command (R435). -/
def meanTrgForce (c : Cmd) : Meaning where
  run s _ := s.setSeqr (cmdBench c) { s.seqr (cmdBench c) with force := some c }

/-- TRG_FORCE on a state. -/
def cmdTrgForce (c : Cmd) (s : State) : State := mailbox s infoTrgForce c (meanTrgForce c)

/-- TRG_FORCE (R435). -/
def execTrgForce (c : Cmd) (s : State) : Host.Outcome State Fault Refusal := .next (cmdTrgForce c s)

/-! ### RELAY_ENABLE (R438, R439, R451) -/

/-- The master-table row of RELAY_ENABLE. -/
def infoRelayEnable : OpInfo := ⟨0x0310, .adm, none, false, true, [2], [0xFFFFFFF0, 0xFFFF0000]⟩

/-- What RELAY_ENABLE does. -/
def meanRelayEnable (c : Cmd) : Meaning where
  run s r := done (stageRegs s (cmdTarget c) [(.trgRelayEn, 0, pw c 3)]) 0x0310 c [] r

/-- RELAY_ENABLE on a state. -/
def cmdRelayEnable (c : Cmd) (s : State) : State := mailbox s infoRelayEnable c (meanRelayEnable c)

/-- RELAY_ENABLE (R438). -/
def execRelayEnable (c : Cmd) (s : State) : Host.Outcome State Fault Refusal := .next (cmdRelayEnable c s)

end Sys2Proof.Machine
end

