-- ==== Sys2Proof/Machine/CaptureCommands.lean ====
section
/-! DEFINITION. Capture commands, group 0x04, and the events of a capture (R412, R456 to R494). -/

namespace Sys2Proof.Machine

/-! ### CAP_ARM (R25, R184, R462, R490, R491) -/

/-- SKN_CFG as the arm will find it: the pending value, or the one in effect under HOLD (R184, R187). -/
def State.nextSknCfg (s : State) (n : Nat) : Word := if s.held n then s.eff .sknCfg n else s.rd .sknCfg n

/-- The master-table row of CAP_ARM. -/
def infoCapArm : OpInfo := ⟨0x0401, .stu, some [.idle], false, false, [0], []⟩

/-- What CAP_ARM does. -/
def meanCapArm (c : Cmd) : Meaning where
  cond s :=
    let n := cmdBench c
    refuseIf (bitB (s.nextSknCfg n) 2 && decide (fld (s.rd .slSCfg n) 1 0 = 0)) .badState 0
  space s := refuseIf (decide (s.bobbinFree (cmdBench c) < 16384)) .noSpace 0
  run s r :=
    let n := cmdBench c
    let t := s.power.baseTick
    done (followCapture (armBench s n) n) 0x0401 c (lohi t) r

/-- CAP_ARM on a state. -/
def cmdCapArm (c : Cmd) (s : State) : State := mailbox s infoCapArm c (meanCapArm c)

/-- CAP_ARM (R462). -/
def execCapArm (c : Cmd) (s : State) : Host.Outcome State Fault Refusal := .next (cmdCapArm c s)

/-! ### CAP_STOP (R436, R461, R467) -/

/-- The stop tick: the first tick of the next window (R412, R436). -/
def stopTick (s : State) : Nat := (s.power.baseTick / 8 + 1) * 8

/-- The capture of bench `n` stops at tick `t`; inside a shared range the skein re-armed is discarded without using its number
(R461, R467). -/
def stopCapture (s : State) (n t : Nat) : State :=
  let s := runDue s n t
  if !s.capturing n then s
  else
    let c := s.cap n
    let s := match c.next with
      | none => s
      | some _ => s.setCap n { c with
          next := none,
          cur := c.cur.map fun k => { k with tailShared := false } }
    endCapture (endSkein s n t .stopped) n 1

/-- The number of the latest skein kept in the bobbin; the one before the next number where it holds none. -/
def State.lastKept (s : State) (n : Nat) : Nat :=
  match (s.cap n).kept.getLast? with
  | some k => k.num
  | none => ((s.cap n).nextNum + 2 ^ 32 - 1) % 2 ^ 32

/-- The master-table row of CAP_STOP. -/
def infoCapStop : OpInfo := ⟨0x0402, .stu, some [.armed, .capturing], false, false, [0], []⟩

/-- What CAP_STOP does. -/
def meanCapStop (c : Cmd) : Meaning where
  run s r :=
    let n := cmdBench c
    let t := stopTick s
    let s := stopCapture s n t
    let last := s.lastKept n
    done (followCapture s n) 0x0402 c (W last :: lohi t) r

/-- CAP_STOP on a state. -/
def cmdCapStop (c : Cmd) (s : State) : State := mailbox s infoCapStop c (meanCapStop c)

/-- CAP_STOP (R436). -/
def execCapStop (c : Cmd) (s : State) : Host.Outcome State Fault Refusal := .next (cmdCapStop c s)

/-! ### CAP_CONFIG (R463) -/

/-- The master-table row of CAP_CONFIG. -/
def infoCapConfig : OpInfo := ⟨0x0403, .stu, some [.idle], false, false, [3], [0x0000FFF8]⟩

/-- What CAP_CONFIG does. -/
def meanCapConfig (c : Cmd) : Meaning where
  args _ :=
    refuseIf (bitB (pw c 2) 0 && (decide (pw c 4 = 0) || decide ((pw c 4).toNat < 2 * (pw c 3).toNat))) .badArg 4
  run s r :=
    done (stageRegs s (cmdBench c) [(.sknCfg, 0, pw c 2), (.sknPre, 0, pw c 3), (.sknPost, 0, pw c 4)]) 0x0403 c [] r

/-- CAP_CONFIG on a state. -/
def cmdCapConfig (c : Cmd) (s : State) : State := mailbox s infoCapConfig c (meanCapConfig c)

/-- CAP_CONFIG (R463). -/
def execCapConfig (c : Cmd) (s : State) : Host.Outcome State Fault Refusal := .next (cmdCapConfig c s)

/-! ### SKN_LIST (R481, R490) -/

/-- The master-table row of SKN_LIST. -/
def infoSknList : OpInfo := ⟨0x0404, .any, some statesIAPH, false, true, [2], [0xFFFFFFF0]⟩

/-- The descriptors of the skeins of the bench's session, numbered: those the bobbin holds and those in the catalogue (R481,
R490). -/
def State.listed (s : State) (n : Nat) : List (Nat × List DWord) :=
  ((s.entriesOf n).filter fun e => decide (e.session = (s.sess n).session)).map (fun e => (e.skein, e.desc)) ++
    (s.cap n).kept.map fun k => (k.num, k.descriptor n)

/-- How far number `k` lies after `first`; numbers wrap at 2^32 (R459). -/
def after (first k : Nat) : Nat := (k + 2 ^ 32 - first) % 2 ^ 32

/-- The words of SKN_LIST: the skeins whose numbers are FIRST or later, at most 37 (R490). -/
def sknListWords (s : State) (n first : Nat) : List Word :=
  let ks := (sortBy (fun x => after first x.1) ((s.listed n).filter fun x => decide (after first x.1 < 2 ^ 31))).take 37
  W ks.length :: ks.flatMap fun x => x.2.flatMap fun d => [DWord.lo d, DWord.hi d]

/-- What SKN_LIST does. -/
def meanSknList (c : Cmd) : Meaning where
  run s r := done s 0x0404 c (sknListWords s (cmdTarget c) (pw c 3).toNat) r

/-- SKN_LIST on a state. -/
def cmdSknList (c : Cmd) (s : State) : State := mailbox s infoSknList c (meanSknList c)

/-- SKN_LIST (R490). -/
def execSknList (c : Cmd) (s : State) : Host.Outcome State Fault Refusal := .next (cmdSknList c s)

/-! ### SKN_READ (R492, R493) -/

/-- A completed skein in the bobbin that is not streamed. -/
def State.bobbinSkein (s : State) (n num : Nat) : Option Skein :=
  (s.cap n).kept.find? fun k => decide (k.num = num) && !k.streamed

/-- What SKN_READ sends of a skein: its header, the shared head where it is asked for, its records. -/
def Skein.readBytes (k : Skein) (n : Nat) (withHead : Bool) : List Byte :=
  k.header n ++ (if withHead then k.headData else []) ++ k.recordBytes

/-- The session of the command's bench was opened over two-wire. -/
def overTwoWire (s : State) (c : Cmd) : Bool := decide ((s.sess (cmdBench c)).transport = .twoWire)

/-- The master-table row of SKN_READ. -/
def infoSknRead : OpInfo := ⟨0x0405, .stu, some statesIAP, true, false, [4], [0, 0xFFFFFFFE]⟩

/-- What SKN_READ does: the bytes from OFFSET that the skein has, at most LENGTH. -/
def meanSknRead (c : Cmd) : Meaning where
  perm s := refuseIf (overTwoWire s c) .noPermission 0
  args s := refuseIf (s.bobbinSkein (cmdBench c) (pw c 2).toNat).isNone .badArg 2
  run s r :=
    let n := cmdBench c
    match s.bobbinSkein n (pw c 2).toNat with
    | none => s
    | some k =>
      let all := k.readBytes n (bitB (pw c 3) 0)
      let bytes := (all.drop (pw c 4).toNat).take (pw c 5).toNat
      let toEnd := decide (all.length ≤ (pw c 4).toNat + (pw c 5).toNat)
      let s := moveSram (accept s 0x0405 c r) n bytes.length
      sendData s n c.tag bytes (some (0x0405, Status.done.code, bytes.length)) 0 (if toEnd then some k.num else none)

/-- SKN_READ on a state. -/
def cmdSknRead (c : Cmd) (s : State) : State := mailbox s infoSknRead c (meanSknRead c)

/-- SKN_READ (R493). -/
def execSknRead (c : Cmd) (s : State) : Host.Outcome State Fault Refusal := .next (cmdSknRead c s)

/-! ### SKN_DELETE (R494) -/

/-- A skein that SKN_DELETE may delete: one in the catalogue, or one in the bobbin that is not streamed; a streamed skein that has no
catalogue entry yet is not counted (R494, R567). -/
inductive Deletable where
  | stored (e : CatEntry)
  | held (num : Nat)
  deriving DecidableEq, Repr

/-- The bench's skeins, oldest first: the catalogue entries of earlier sessions, then those of its session by number (R459, R494,
R567). -/
def State.deletable (s : State) (n : Nat) : List Deletable :=
  let now (e : CatEntry) : Bool := decide (e.session = (s.sess n).session)
  let es := s.entriesOf n
  let mine := ((es.filter now).map fun e => (e.skein, Deletable.stored e)) ++
    ((s.cap n).kept.filter fun k => !k.streamed).map fun k => (k.num, Deletable.held k.num)
  (es.filter fun e => !now e).map Deletable.stored ++
    (sortBy (fun x => after (s.cap n).nextNum x.1) mine).map Prod.snd

/-- Delete one skein. -/
def deleteSkein (s : State) (n : Nat) : Deletable → State
  | .stored e => dropEntry s e
  | .held num => s.setCap n { s.cap n with kept := (s.cap n).kept.filter fun k => k.streamed || decide (k.num ≠ num) }

/-- An export reads the skein: its bytes stay until the job ends (R515). -/
def State.exporting (s : State) (n : Nat) : Deletable → Bool
  | .stored _ => false
  | .held num => s.umpire.jobs.any fun j => decide (j.bench = n) && (match j.kind with
    | .exportJob k _ _ => k == num
    | _ => false)

/-- The master-table row of SKN_DELETE. -/
def infoSknDelete : OpInfo := ⟨0x0406, .stu, some [.idle], false, false, [1], [0]⟩

/-- What SKN_DELETE does: it goes no further than a skein that an export still reads (R515); the bytes freed are the bobbin's and the
stored ones. -/
def meanSknDelete (c : Cmd) : Meaning where
  run s r :=
    let n := cmdBench c
    let before := (s.cap n).occupied + s.storedBytes n
    let gone := ((s.deletable n).take (pw c 2).toNat).takeWhile fun d => !s.exporting n d
    let s := gone.foldl (fun s d => deleteSkein s n d) s
    done s 0x0406 c [W (before - ((s.cap n).occupied + s.storedBytes n))] r

/-- SKN_DELETE on a state. -/
def cmdSknDelete (c : Cmd) (s : State) : State := mailbox s infoSknDelete c (meanSknDelete c)

/-- SKN_DELETE (R494). -/
def execSknDelete (c : Cmd) (s : State) : Host.Outcome State Fault Refusal := .next (cmdSknDelete c s)

/-! ### BOBBIN_LEND (R456) -/

/-- The master-table row of BOBBIN_LEND. -/
def infoBobbinLend : OpInfo := ⟨0x0410, .adm, none, false, true, [1], [0xFFFFE0F0]⟩

/-- What BOBBIN_LEND does. -/
def meanBobbinLend (c : Cmd) : Meaning where
  cond s :=
    let n := cmdTarget c
    refuseIf ((decide (s.bstate n ≠ .closed) && decide (s.bstate n ≠ .idle)) ||
      (decide (pf c 2 12 8 < (s.cap n).lent) && !(s.cap n).all.isEmpty)) .badState 0
  args _ := refuseIf (decide (16 < pf c 2 12 8)) .badArg 2
  space s := refuseIf (decide (s.poolUnlent + (s.cap (cmdTarget c)).lent < pf c 2 12 8)) .noSpace 0
  run s r :=
    let n := cmdTarget c
    let s := s.setCap n { s.cap n with lent := pf c 2 12 8 }
    done s 0x0410 c [s.shown .glbPool] r

/-- BOBBIN_LEND on a state. -/
def cmdBobbinLend (c : Cmd) (s : State) : State := mailbox s infoBobbinLend c (meanBobbinLend c)

/-- BOBBIN_LEND (R456). -/
def execBobbinLend (c : Cmd) (s : State) : Host.Outcome State Fault Refusal := .next (cmdBobbinLend c s)

/-! ### The events of a capture -/

/-- SAMPLE_VECTOR (R413). -/
def execSampleVector (n : Fin 8) (window : Nat) (pods : List PodInput) (s : State) : Host.Outcome State Fault Refusal :=
  .next (followCapture (sampleWindow s n.val window pods) n.val)

/-- Storing resumes after an overrun once a quarter of the bobbin is free (R479). -/
def resumeStoring (s : State) (n : Nat) : State :=
  if (s.cap n).ovr ∧ s.bobbinBytes n ≤ 4 * s.bobbinFree n then s.setCap n { s.cap n with ovr := false } else s

/-- OVERRUN_RESUME (R479). -/
def execOverrunResume (n : Fin 8) (s : State) : Host.Outcome State Fault Refusal :=
  .next (if s.live then resumeStoring s n.val else s)

/-- Base time reaches tick `t`, and what falls due for bench `n` takes place (R461, R462); a replay keeps its own time (R827). -/
def reachTick (s : State) (n t : Nat) : State :=
  if !s.live || s.replaysBench n then s
  else
    let s := { s with power := { s.power with baseTick := max s.power.baseTick t } }
    followCapture (runDue s n t) n

/-- The tick of the skein boundary that is due, of the kind asked for. -/
def State.boundaryTick (s : State) (n : Nat) (rearm : Bool) : Option Nat :=
  match (s.cap n).boundary with
  | some (t, r) => if r = rearm then some t else none
  | none => none

/-- SKEIN_BOUNDARY (R429): the boundary that is due, an arm's or a re-arm's. -/
def execSkeinBoundary (n : Fin 8) (s : State) : Host.Outcome State Fault Refusal :=
  .next (match (s.cap n.val).boundary with
    | some (t, _) => reachTick s n.val t
    | none => s)

/-- SEGMENTED_REARM (R462). -/
def execSegmentedRearm (n : Fin 8) (s : State) : Host.Outcome State Fault Refusal :=
  .next (match s.boundaryTick n.val true with
    | some t => reachTick s n.val t
    | none => s)

/-- SKEIN_END (R461). -/
def execSkeinEnd (n : Fin 8) (s : State) : Host.Outcome State Fault Refusal :=
  .next (match (s.cap n.val).cur.bind Skein.due with
    | some t => reachTick s n.val t
    | none => s)

end Sys2Proof.Machine
end

