-- ==== Sys2Proof/Machine/CompressCommands.lean ====
section
/-! DEFINITION. Compression commands, group 0x05, and the events of the compression engines (R496 to R540). -/

namespace Sys2Proof.Machine

/-! ### CMP_CONFIG (R496, R538) -/

/-- The master-table row of CMP_CONFIG. -/
def infoCmpConfig : OpInfo := ⟨0x0501, .stu, some [.idle], false, false, [1], [0x0000E008]⟩

/-- What CMP_CONFIG does. -/
def meanCmpConfig (c : Cmd) : Meaning where
  args _ := refuseIf (decide (pf c 2 1 0 = 3) || decide (8 < pf c 2 7 4)) .badArg 2
  run s r := done (stageRegs s (cmdBench c) [(.cmpSCfg, 0, pw c 2)]) 0x0501 c [] r

/-- CMP_CONFIG on a state. -/
def cmdCmpConfig (c : Cmd) (s : State) : State := mailbox s infoCmpConfig c (meanCmpConfig c)

/-- CMP_CONFIG (R538). -/
def execCmpConfig (c : Cmd) (s : State) : Host.Outcome State Fault Refusal := .next (cmdCmpConfig c s)

/-! ### CMP_EXPORT (R522 to R524, R538, R539) -/

/-- No engine of a kind is in service in the ply of the command's bench (R597). -/
def noEngineFor (s : State) (c : Cmd) (kind : Nat) : Bool := (s.enginesOf (s.plyOf (cmdBench c)) kind).isEmpty

/-- The master-table row of CMP_EXPORT. -/
def infoCmpExport : OpInfo := ⟨0x0502, .stu, some statesIAP, true, false, [3], [0, 0xFFFFE008, 0]⟩

/-- What CMP_EXPORT does: the staging space is reserved and the job begins. -/
def meanCmpExport (c : Cmd) : Meaning where
  perm s := refuseIf (overTwoWire s c) .noPermission 0
  args s :=
    orElse (refuseIf (s.bobbinSkein (cmdBench c) (pw c 2).toNat).isNone .badArg 2) <|
    orElse (refuseIf (decide (pf c 3 1 0 = 3) || decide (8 < pf c 3 7 4)) .badArg 3) <|
    refuseIf (decide ((pw c 4).toNat < 100)) .badArg 4
  space s :=
    orElse (refuseIf (noEngineFor s c 0) .noSpace 1)
      (refuseIf (decide (s.bobbinFree (cmdBench c) < (pw c 4).toNat)) .noSpace 0)
  run s r :=
    let n := cmdBench c
    let out := (pw c 4).toNat
    let s := accept s 0x0502 c r
    let s := s.setCap n { s.cap n with staging := (s.cap n).staging + out }
    addJob s n c.stream c.tag (.exportJob (pw c 2).toNat (pw c 3) out) []

/-- CMP_EXPORT on a state. -/
def cmdCmpExport (c : Cmd) (s : State) : State := mailbox s infoCmpExport c (meanCmpExport c)

/-- CMP_EXPORT (R522). -/
def execCmpExport (c : Cmd) (s : State) : Host.Outcome State Fault Refusal := .next (cmdCmpExport c s)

/-! ### CMP_VERIFY (R525, R538, R539) -/

/-- The master-table row of CMP_VERIFY. -/
def infoCmpVerify : OpInfo := ⟨0x0503, .stu, some statesIAP, true, false, [1], [0]⟩

/-- What CMP_VERIFY does. -/
def meanCmpVerify (c : Cmd) : Meaning where
  args s :=
    refuseIf (s.entry? (cmdBench c) (s.sess (cmdBench c)).session (pw c 2).toNat).isNone .badArg 2
  space s := refuseIf (noEngineFor s c 0) .noSpace 1
  run s r :=
    let n := cmdBench c
    addJob (accept s 0x0503 c r) n c.stream c.tag (.verify (s.sess n).session (pw c 2).toNat none) []

/-- CMP_VERIFY on a state. -/
def cmdCmpVerify (c : Cmd) (s : State) : State := mailbox s infoCmpVerify c (meanCmpVerify c)

/-- CMP_VERIFY (R525). -/
def execCmpVerify (c : Cmd) (s : State) : Host.Outcome State Fault Refusal := .next (cmdCmpVerify c s)

/-! ### CMP_FLUSH and CMP_QUERY (R520, R521, R535, R538) -/

/-- The master-table row of CMP_FLUSH. -/
def infoCmpFlush : OpInfo := ⟨0x0504, .stu, some [.armed, .capturing], false, false, [0], []⟩

/-- What CMP_FLUSH does. -/
def meanCmpFlush (c : Cmd) : Meaning where
  run s r :=
    let f := flushStream s (cmdBench c)
    done f.2 0x0504 c [W f.1] r

/-- CMP_FLUSH on a state. -/
def cmdCmpFlush (c : Cmd) (s : State) : State := mailbox s infoCmpFlush c (meanCmpFlush c)

/-- CMP_FLUSH (R520). -/
def execCmpFlush (c : Cmd) (s : State) : Host.Outcome State Fault Refusal := .next (cmdCmpFlush c s)

/-- The master-table row of CMP_QUERY. -/
def infoCmpQuery : OpInfo := ⟨0x0505, .any, some statesIAPH, false, true, [1], [0xFFFFFFF0]⟩

/-- The words of CMP_QUERY. -/
def cmpQueryWords (s : State) (n : Nat) : List Word :=
  [s.eff .cmpSCfg n, s.shown .cmpSStatus n, s.rd .cmpSInLo n, s.rd .cmpSInHi n, s.rd .cmpSOutLo n, s.rd .cmpSOutHi n,
    s.rd .cmpSBlk n, s.shown .cmpStatus]

/-- What CMP_QUERY does. -/
def meanCmpQuery (c : Cmd) : Meaning where
  run s r := done s 0x0505 c (cmpQueryWords s (cmdTarget c)) r

/-- CMP_QUERY on a state. -/
def cmdCmpQuery (c : Cmd) (s : State) : State := mailbox s infoCmpQuery c (meanCmpQuery c)

/-- CMP_QUERY (R538). -/
def execCmpQuery (c : Cmd) (s : State) : Host.Outcome State Fault Refusal := .next (cmdCmpQuery c s)

/-- CMP_SN_FLUSH_WRITE (R520). -/
def execCmpSnFlushWrite (path : Path) (n : Fin 8) (data : Word) (s : State) : Host.Outcome State Fault Refusal :=
  .next (accessWrite s path (Reg.addr ⟨.cmpSFlush, n.val, 0⟩) data)

/-- AUTOFLUSH of the skein being streamed, as it was in effect at its boundary (R521, R534). -/
def State.autoflush (s : State) (n : Nat) : Nat :=
  match s.skeinOf n (s.cmp n).pos.skein with
  | some (k, _) => fld k.cmpCfg 31 16
  | none => 0

/-- AUTOFLUSH_EXPIRY (R521). -/
def execAutoflushExpiry (n : Fin 8) (s : State) : Host.Outcome State Fault Refusal :=
  .next (if s.live ∧ s.autoflush n.val ≠ 0 then (flushStream s n.val).2 else s)

/-! ### Blocks and streams (R499, R511, R517, R519) -/

/-- The engine runs a job that makes blocks: a stream's or an export's. -/
def State.makesBlocks (s : State) (e : Nat) : Bool :=
  match s.jobOn e with
  | none => false
  | some j => match j.kind with
    | .stream => true
    | .exportJob _ _ _ => true
    | _ => false

/-- BLOCK_END (R499): `checkOk` is the outcome of the self-check (R511). -/
def execBlockEnd (e : Fin 4) (checkOk : Bool) (s : State) : Host.Outcome State Fault Refusal :=
  .next (if s.live && s.makesBlocks e.val then endStep s e.val checkOk else s)

/-- CMP_STREAM_STOP (R517): the stream stops if the cause named holds. -/
def execCmpStreamStop (n : Fin 8) (cause : StopCause) (s : State) : Host.Outcome State Fault Refusal :=
  .next (if s.live && !s.causeGone n.val cause then stopStream s n.val cause else s)

/-- CMP_STREAM_RESUME (R519). -/
def execCmpStreamResume (n : Fin 8) (s : State) : Host.Outcome State Fault Refusal :=
  .next (if s.survoRuns then resumeStream s n.val else s)

end Sys2Proof.Machine
end

