-- ==== Sys2Proof/Machine/LaneCommands.lean ====
section
/-! DEFINITION. Storage commands, group 0x06, and the events of the storage lanes (R563 to R593). -/

namespace Sys2Proof.Machine

/-! ### SL_QUERY and SL_STREAM (R564, R590) -/

/-- The master-table row of SL_QUERY. -/
def infoSlQuery : OpInfo := ⟨0x0601, .any, some statesIAPH, false, true, [2], [0xFFFFFFF0, 0]⟩

/-- A catalogue entry as SL_QUERY returns it. -/
def CatEntry.words (e : CatEntry) : List Word :=
  [pack [(e.session % 2 ^ 16, 0), (bN e.damaged, 16)], W e.skein, W e.bytes, W (e.bytes / 2 ^ 32)]

/-- The words of SL_QUERY: at most 53 entries from FIRST on. -/
def slQueryWords (s : State) (n first : Nat) : List Word :=
  let es := ((s.entriesOf n).drop first).take 53
  (List.range 2).flatMap (fun x => [s.shown .slLStatus x, s.shown .slLHanks x, s.shown .slLFree x, s.shown .slLWear x]) ++
    [s.shown .slSCfg n, s.shown .slSUsed n, W es.length] ++ es.flatMap CatEntry.words

/-- What SL_QUERY does. -/
def meanSlQuery (c : Cmd) : Meaning where
  run s r := done s 0x0601 c (slQueryWords s (cmdTarget c) (pw c 3).toNat) r

/-- SL_QUERY on a state. -/
def cmdSlQuery (c : Cmd) (s : State) : State := mailbox s infoSlQuery c (meanSlQuery c)

/-- SL_QUERY (R590). -/
def execSlQuery (c : Cmd) (s : State) : Host.Outcome State Fault Refusal := .next (cmdSlQuery c s)

/-- A lane mask names a lane that the member lacks. -/
def State.laneLacking (s : State) (mask : Nat) : Bool := (List.range 2).any fun x => mask.testBit x && decide (s.member.lanes ≤ x)

/-- The master-table row of SL_STREAM. -/
def infoSlStream : OpInfo := ⟨0x0602, .stu, some [.idle], false, false, [1], [0x0000FEFC]⟩

/-- What SL_STREAM does. -/
def meanSlStream (c : Cmd) : Meaning where
  args s := refuseIf (s.laneLacking (pf c 2 1 0)) .badArg 2
  run s r := done (s.wr .slSCfg (cmdBench c) 0 (pw c 2)) 0x0602 c [] r

/-- SL_STREAM on a state. -/
def cmdSlStream (c : Cmd) (s : State) : State := mailbox s infoSlStream c (meanSlStream c)

/-- SL_STREAM (R564). -/
def execSlStream (c : Cmd) (s : State) : Host.Outcome State Fault Refusal := .next (cmdSlStream c s)

/-! ### SL_READ (R579, R590, R591) -/

/-- The master-table row of SL_READ. -/
def infoSlRead : OpInfo := ⟨0x0603, .stu, some statesIAP, true, false, [2], [0xFFFF0000, 0]⟩

/-- The catalogue entry that SL_READ names. -/
def slReadEntry (s : State) (c : Cmd) : Option CatEntry := s.entry? (cmdBench c) (pf c 2 15 0) (pw c 3).toNat

/-- Send a stored skein that has been read: its header, then its blocks; PARTIAL where a page was uncorrectable. -/
def sendStored (s : State) (r : LaneRead) : State :=
  let k := r.bytes.length - 64
  let bytes := r.bytes.drop k ++ r.bytes.take k
  sendData s r.bench r.tag bytes (some (0x0603, if r.good then Status.done.code else Status.partial_.code, bytes.length)) 0

/-- Read on, part by part, while the regulator of the NAND path lets a page start (R579, R617). -/
def readOn (s : State) (r : LaneRead) : List (Nat × Nat × Nat) → State
  | [] => sendStored s r
  | p :: rest =>
    match (s.entry? r.bench r.session r.skein).bind s.entryRetired with
    | some code => complete s (.bench (Fin.ofNat 8 r.bench)) 0x0603 r.tag .retired code
    | none =>
      if s.mayStart r.bench 1 then
        let q := readParts s r.bench r.session [p]
        readOn q.2.2.2 { r with bytes := r.bytes ++ q.1, good := r.good && q.2.1 } rest
      else { s with storage := { s.storage with reads := s.storage.reads ++ [{ r with left := p :: rest }] } }

/-- Every SL_READ in progress reads on (R617). -/
def pumpReads (s : State) : State :=
  ({ s with storage := { s.storage with reads := [] } } : State).each s.storage.reads fun s r => readOn s r r.left

/-- What SL_READ does. -/
def meanSlRead (c : Cmd) : Meaning where
  perm s := refuseIf (overTwoWire s c) .noPermission 0
  args s := refuseIf (slReadEntry s c).isNone .badArg 2
  run s r :=
    match slReadEntry s c with
    | none => s
    | some e =>
      let s := accept s 0x0603 c r
      match s.entryRetired e with
      | some code => complete s c.stream 0x0603 c.tag .retired code
      | none => readOn s { bench := cmdBench c, tag := c.tag, session := e.session, skein := e.skein, left := e.parts } e.parts

/-- SL_READ on a state. -/
def cmdSlRead (c : Cmd) (s : State) : State := mailbox s infoSlRead c (meanSlRead c)

/-- SL_READ (R590). -/
def execSlRead (c : Cmd) (s : State) : Host.Outcome State Fault Refusal := .next (cmdSlRead c s)

/-! ### SL_FORMAT (R590, R592) -/

/-- The lanes of a mask. -/
def maskLanes (mask : Nat) : List Nat := (List.range 2).filter fun x => mask.testBit x

/-- The fault code of a retired lane of a mask. -/
def State.retiredIn (s : State) (mask : Nat) : Option Nat :=
  ((maskLanes mask).find? fun x => s.isRetired (resLane x)).map fun x => s.retireCode (resLane x)

/-- The entry has data on lane `x`. -/
def State.entryOn (s : State) (x : Nat) (e : CatEntry) : Bool :=
  e.parts.any fun p => match s.findPage e.bench e.session p.1 with
    | some (y, _, _) => y == x
    | none => false

/-- The kept tail has data on lane `x`. -/
def State.tailOn (s : State) (x : Nat) (t : KeptTail) : Bool :=
  t.parts.any fun p => match s.findPage t.bench t.session p.1 with
    | some (y, _, _) => y == x
    | none => false

/-- A log has pages on lane `x`. -/
def Lane.holdsLog (l : Lane) (num : Nat) : Bool := l.pages.any fun e => decide (e.2.type = 4 ∧ e.2.session = num)

/-- The open hank of bench `n` on lane `x` is gone: what is not durable starts anew. -/
def loseOpenHank (s : State) (x n : Nat) : State :=
  match (s.cmp n).openHank with
  | none => s
  | some (y, _) =>
    if y = x then
      let s := discardUndurable s n
      s.setCmp n { s.cmp n with openHank := none }
    else s

/-- Erase every data and system hank of lane `x`; the bad-block table and the configuration record stay (R592). -/
def formatLane (s : State) (x : Nat) : State :=
  let l := s.lane x
  let logs := s.rpl.logs.filter fun g => !l.holdsLog g.num || (decide (s.rpl.state = .recording) && g.num == s.rpl.log)
  let openLog := s.rpl.openHank.filter fun h => h.1 != x
  let s := { s with
    storage := { s.storage with
      catalogue := s.storage.catalogue.filter fun e => !s.entryOn x e, tails := s.storage.tails.filter fun t => !s.tailOn x t },
    rpl := { s.rpl with logs := logs, openHank := openLog } }
  let s := s.each s.benchList fun s n => loseOpenHank s x n
  let s := s.setLane x { s.lane x with issued := [], moving := none, relocate := [] }
  let suspects := (s.lane x).hanks.flatMap fun e => e.2.suspects
  let s := s.each (s.lane x).dataHanks fun s h => eraseHank s x h .free
  s.each suspects fun s b => raiseFault s (resBlock x b.1) b.2

/-- The master-table row of SL_FORMAT. -/
def infoSlFormat : OpInfo := ⟨0x0604, .adm, none, true, false, [1], [0xFFFFFFFC]⟩

/-- What SL_FORMAT does. -/
def meanSlFormat (c : Cmd) : Meaning where
  cond s :=
    refuseIf (s.benchList.any fun n => decide (s.bstate n = .armed ∨ s.bstate n = .capturing ∨ s.bstate n = .resetting))
      .badState 0
  args s := refuseIf (s.laneLacking (pf c 2 1 0)) .badArg 2
  run s r :=
    let ls := maskLanes (pf c 2 1 0)
    let s := accept s 0x0604 c r
    match s.retiredIn (pf c 2 1 0) with
    | some code => complete s c.stream 0x0604 c.tag .retired code
    | none =>
      let s := s.each ls formatLane
      complete s c.stream 0x0604 c.tag .done (ls.foldl (fun k x => k + (s.freeHanks x).length) 0)

/-- SL_FORMAT on a state. -/
def cmdSlFormat (c : Cmd) (s : State) : State := mailbox s infoSlFormat c (meanSlFormat c)

/-- SL_FORMAT (R592). -/
def execSlFormat (c : Cmd) (s : State) : Host.Outcome State Fault Refusal := .next (cmdSlFormat c s)

/-! ### SL_SCRUB and SL_BBT_READ (R590) -/

/-- The master-table row of SL_SCRUB. -/
def infoSlScrub : OpInfo := ⟨0x0605, .adm, none, true, false, [1], [0xFFFFFFFC]⟩

/-- What SL_SCRUB does: the lanes are checked by the scrub, and the last of them completes the command. -/
def meanSlScrub (c : Cmd) : Meaning where
  cond s := refuseIf s.storage.scrubBy.isSome .badState 0
  args s := refuseIf (s.laneLacking (pf c 2 1 0)) .badArg 2
  run s r :=
    let s := accept s 0x0605 c r
    match s.retiredIn (pf c 2 1 0) with
    | some code => complete s c.stream 0x0605 c.tag .retired code
    | none =>
      if pf c 2 1 0 = 0 then complete s c.stream 0x0605 c.tag .done 0
      else { s with storage := { s.storage with scrubBy := some (c.stream, c.tag, pf c 2 1 0, 0) } }

/-- SL_SCRUB on a state. -/
def cmdSlScrub (c : Cmd) (s : State) : State := mailbox s infoSlScrub c (meanSlScrub c)

/-- SL_SCRUB (R590). -/
def execSlScrub (c : Cmd) (s : State) : Host.Outcome State Fault Refusal := .next (cmdSlScrub c s)

/-- The master-table row of SL_BBT_READ. -/
def infoSlBbtRead : OpInfo := ⟨0x0606, .adm, none, false, false, [2], [0xFFFFFFFE, 0]⟩

/-- The words of SL_BBT_READ: COUNT, GEN and at most 200 entries from FIRST on. -/
def bbtWords (l : Lane) (first : Nat) : List Word :=
  [W l.bad.length, W l.gen] ++ ((l.bad.drop first).take 200).map badWord

/-- What SL_BBT_READ does. -/
def meanSlBbtRead (c : Cmd) : Meaning where
  args s := refuseIf (decide (s.member.lanes ≤ pf c 2 0 0)) .badArg 2
  run s r := done s 0x0606 c (bbtWords (s.lane (pf c 2 0 0)) (pw c 3).toNat) r

/-- SL_BBT_READ on a state. -/
def cmdSlBbtRead (c : Cmd) (s : State) : State := mailbox s infoSlBbtRead c (meanSlBbtRead c)

/-- SL_BBT_READ (R590). -/
def execSlBbtRead (c : Cmd) (s : State) : Host.Outcome State Fault Refusal := .next (cmdSlBbtRead c s)

/-! ### Programs and their failures (R563, R568, R576, R589) -/

/-- The page issued first on lane `x` has been programmed: it lies in its place, and blocks become durable (R516, R563). -/
def finishPage (s : State) (x : Nat) : State :=
  let l := s.lane x
  match l.issued with
  | [] => s
  | i :: rest =>
    let s := s.setLane x { l with issued := rest, pages := l.pages.put blankPage i.key i.page }
    if i.page.type = 1 ∧ i.page.session = (s.sess i.page.bench).session then
      followCapture (pageDurable s i.page.bench i.page.seq) i.page.bench
    else s

/-- The oldest program issued on lane `x` completes with pass status, with the pages of the other planes that it takes along (R547,
R563). -/
def finishProgram (s : State) (x : Nat) : State :=
  s.each ((s.lane x).issued.take 1 ++ ((s.lane x).issued.drop 1).takeWhile Issued.joined) fun s _ => finishPage s x

/-- PAGE_PROGRAM_DONE (R563). -/
def execPageProgramDone (lane : Fin 2) (s : State) : Host.Outcome State Fault Refusal :=
  .next (if s.live then finishProgram s lane.val else s)

/-- Issue programs again in new places; `none` when storage is full. -/
def reissue (s : State) (n : Nat) : List Issued → Option State
  | [] => some s
  | i :: rest =>
    match takeSlot s n i.page.data.length with
    | none => none
    | some (y, key, s) => reissue (s.setLane y { s.lane y with issued := (s.lane y).issued ++ [⟨key, i.page, false⟩] }) n rest

/-- Give queued pages that lie in hank `h` of lane `x` new places. -/
def requeue (s : State) (n x h : Nat) :
    List (Nat × Nat × Nat × List Byte) → Option (List (Nat × Nat × Nat × List Byte) × State)
  | [] => some ([], s)
  | q :: rest =>
    if q.1 = x ∧ q.2.1 / 4096 = h then
      match takeSlot s n q.2.2.2.length with
      | none => none
      | some (y, key, s) => (requeue s n x h rest).map fun r => ((y, key, q.2.2) :: r.1, r.2)
    else (requeue s n x h rest).map fun r => (q :: r.1, r.2)

/-- The page buffer of bench `n` leaves hank `h` of lane `x` for a new place. -/
def reslot (s : State) (n x h : Nat) : Option State :=
  match (s.cmp n).slot with
  | none => some s
  | some (y, key) =>
    if y = x ∧ key / 4096 = h then
      (takeSlot s n ((s.cmp n).page.length + 1)).map fun r => r.2.2.setCmp n { r.2.2.cmp n with slot := some (r.1, r.2.1) }
    else some s

/-- The pages of bench `n` that are not programmed leave hank `h` of lane `x`, in their order, for the first pages of a new hank
(R576); where storage is full the stream stops (R517, R565). -/
def vacateHank (s : State) (x h n : Nat) : State :=
  let l := s.lane x
  let mine := l.issued.filter fun i => decide (i.key / 4096 = h)
  let s := s.setLane x { l with issued := l.issued.filter fun i => decide (i.key / 4096 ≠ h) }
  let s := if (s.cmp n).openHank = some (x, h) then s.setCmp n { s.cmp n with openHank := none } else s
  let moved := (reissue s n mine).bind fun s =>
    (requeue s n x h (s.cmp n).queued).bind fun r => reslot (r.2.setCmp n { r.2.cmp n with queued := r.1 }) n x h
  match moved with
  | some s => s
  | none => stopStream s n .storageFull

/-- The oldest program issued on lane `x` fails (R576, R589): the hank is closed at that page; its earlier pages are relocated, and the
block is tested before the hank is used again. -/
def failProgram (s : State) (x : Nat) : State :=
  let l := s.lane x
  match l.issued with
  | [] => s
  | i :: _ =>
    let h := i.key / 4096
    let b := l.blockOfPage h (i.key % 4096)
    let k := l.hank h
    let s := (s.bumpSat .slLFail x 0 15 0 1).setLane x
      (l.setHank h { k with pages := i.key % 4096, closed := true, suspects := k.suspects ++ [(b, 0x0501)] })
    let s := vacateHank s x h i.page.bench
    if s.hankInUse x h then queueMove s x h else freeHank s x h

/-- The next program of copy `k` of the system records of lane `x` fails (R349, R558, R576, R581). -/
def failSystem (s : State) (x k : Nat) : State := s.setLane x { s.lane x with sysFail := (s.lane x).sysFail ||| 2 ^ k }

/-- PROGRAM_STATUS_FAIL (R576). -/
def execProgramStatusFail (fail : FailedProgram) (s : State) : Host.Outcome State Fault Refusal :=
  .next (if s.live then (match fail.system with
      | some k => failSystem s fail.lane.val k.val
      | none => failProgram s fail.lane.val)
    else s)

/-- The erase of the hank of a block fails as it is allocated (R576): the hank is not allocated, another is drawn, and the block is
tested. -/
def failErase (s : State) (x b : Nat) : State :=
  let l := s.lane x
  let h := l.hankOf b
  let fresh := !(l.pages.any fun e => decide (e.1 / 4096 = h))
  if decide ((l.hank h).owner = .free) || !fresh || l.isBad b then s
  else
    let s := raiseFault (s.bumpSat .slLFail x 0 31 16 1) (resBlock x b) 0x0502
    let owner := (l.hank h).owner
    let s := s.setLane x (l.setHank h { l.hank h with owner := .free, pages := 0 })
    match (s.lane x).moving with
    | some (old, new) =>
      if new = h then
        match drawHank s x owner with
        | some (g, s) => s.setLane x { s.lane x with moving := some (old, g) }
        | none => s.setLane x { s.lane x with moving := none, relocate := old :: (s.lane x).relocate }
      else afterDraw s h owner
    | none => afterDraw s h owner
where
  /-- The pages that the hank was drawn for go to another one. -/
  afterDraw (s : State) (h : Nat) : HankOwner → State
    | .bench n => vacateHank s x h n
    | _ => s

/-- ERASE_STATUS_FAIL (R576). -/
def execEraseStatusFail (lane : Fin 2) (block : Nat) (s : State) : Host.Outcome State Fault Refusal :=
  .next (if s.live then failErase s lane.val block else s)

/-! ### Reads (R554, R570, R576, R582) -/

/-- A page read twice more returns `words`: where they still are uncorrectable the page is lost (R554, R576). -/
def uncorrectable (s : State) (x b page : Nat) (words : List Codeword) : State :=
  let l := s.lane x
  let key := l.keyOf b page
  let p := l.pages.get blankPage key
  if p.type = 0 ∨ p.lost ∨ !(l.goodBlocks (l.hankOf b)).contains b ∨ l.geom.pagesPerBlock ≤ page ∨ !pageBad words then s
  else losePage (s.setLane x { l with pages := l.pages.put blankPage key { p with words := words } }) x key

/-- UNCORRECTABLE_READ (R576). -/
def execUncorrectableRead (lane : Fin 2) (block : Nat) (read : Reread) (s : State) : Host.Outcome State Fault Refusal :=
  .next (if s.live then uncorrectable s lane.val block read.page read.words else s)

/-- R/B# stays busy (R576): the operation is abandoned as a failure of its kind, and the lane test runs. -/
def busyTooLong (s : State) (x : Nat) (op : NandOp) (b : Nat) : State :=
  if !s.laneServes x then s
  else
    let s := match op with
      | .program => failProgram s x
      | .erase => failErase s x b
      | .read => s
    raiseFault s (resLane x) 0x0601

/-- NAND_BUSY_TIMEOUT (R576). -/
def execNandBusyTimeout (lane : Fin 2) (op : NandOp) (block : Nat) (s : State) : Host.Outcome State Fault Refusal :=
  .next (if s.live then busyTooLong s lane.val op block else s)

/-! ### Scrub and relocation (R569 to R574, R585) -/

/-- The scrub pauses while a streaming bench has less than half of its bobbin free (R574). -/
def State.scrubPaused (s : State) : Bool :=
  s.benchList.any fun n => decide ((s.cmp n).state = .running) && decide (2 * s.bobbinFree n < s.bobbinBytes n)

/-- The SL_SCRUB that runs names lane `x`. -/
def State.scrubAsked (s : State) (x : Nat) : Bool :=
  match s.storage.scrubBy with
  | some (_, _, mask, _) => mask.testBit x
  | none => false

/-- The in-use hanks of lane `x` that the scrub checks: every one for SL_SCRUB or while the calendar is not set, else those last checked
SCRUB_AGE days ago or more (R572, R590). -/
def State.scrubHanks (s : State) (x : Nat) : List Nat :=
  let age := fld (s.rd .slScrubCfg) 31 16
  let aged (k : Hank) : Bool := s.scrubAsked x || !s.cal.set || decide (k.checkDay + age ≤ s.today)
  ((s.lane x).hanks.filter fun e => decide (e.2.owner ≠ .free) && aged e.2).map Prod.fst

/-- What pages of lane `x` return by now is noted in them. -/
def notePages (s : State) (x : Nat) (pages : List PageRead) : State :=
  s.each pages fun s r =>
    let l := s.lane x
    let key := r.hank * 4096 + r.page
    let p := l.pages.get blankPage key
    if p.type = 0 then s else s.setLane x { l with pages := l.pages.put blankPage key { p with words := r.words } }

/-- A scrub read of one page: it is counted, and lost where it is uncorrectable (R554, R570, R576). -/
def scrubPage (s : State) (x key : Nat) : State :=
  let s := countRead s x key
  let p := (s.lane x).pages.get blankPage key
  if p.lost then s
  else if pageBad p.words then losePage s x key
  else s.bumpWrap .slLCorr x 0 31 0 (pageCorrected p.words)

/-- A page of hank `h` reaches SCRUB_BITS (R554, R572). -/
def State.hankWeak (s : State) (x h : Nat) : Bool :=
  (s.lane x).pages.any fun e =>
    decide (e.1 / 4096 = h) && !e.2.lost && decide (fld (s.rd .slScrubCfg) 6 0 ≤ pageCount e.2.words)

/-- Lane `x` is scrubbed, its pages returning what they hold and what `pages` adds to that. -/
def scrubLane (s : State) (x : Nat) (pages : List PageRead) : State :=
  let s := notePages s x pages
  let hs := s.scrubHanks x
  let s := s.each ((s.lane x).pages.filter fun e => hs.contains (e.1 / 4096)) fun s e => scrubPage s x e.1
  let move := hs.filter fun h => s.hankWeak x h
  let s := s.each hs fun s h => s.setLane x ((s.lane x).setHank h { (s.lane x).hank h with checkDay := s.today })
  let s := s.each move fun s h => queueMove s x h
  let due := (List.range 2).filter fun y => decide (y ≠ x) && s.storage.scrubDue.testBit y
  let was := s.storage.scrubDue.testBit x
  let s := { s with storage := { s.storage with scrubDue := bitsOf due } }
  let s := if was then postAll s 0x8604 (min move.length 0xFFFFF) else s
  match s.storage.scrubBy with
  | none => s
  | some (st, tag, mask, k) =>
    if mask.testBit x then
      let left := bitsOf ((maskLanes mask).filter fun y => decide (y ≠ x))
      if left = 0 then
        let s := { s with storage := { s.storage with scrubBy := none } }
        let s := if was then s else postAll s 0x8604 (min (k + move.length) 0xFFFFF)
        complete s st 0x0605 tag .done (k + move.length)
      else { s with storage := { s.storage with scrubBy := some (st, tag, left, k + move.length) } }
    else s

/-- RETENTION_SCRUB (R572, R590). -/
def execRetentionScrub (lane : Fin 2) (pages : List PageRead) (s : State) : Host.Outcome State Fault Refusal :=
  .next (if s.survoRuns && s.laneServes lane.val && !s.storage.suspended && !s.scrubPaused &&
      (s.storage.scrubDue.testBit lane.val || s.scrubAsked lane.val) then scrubLane s lane.val pages
    else notePages s lane.val pages)

/-- No stream uses lane `x`. -/
def State.laneQuiet (s : State) (x : Nat) : Bool :=
  (s.lane x).issued.isEmpty && s.benchList.all fun n =>
    decide ((s.cmp n).state ≠ .running) || !(fld (s.rd .slSCfg n) 1 0).testBit x

/-- Erase counts differ by more than WL_DELTA: the least-worn in-use hank is relocated (R569). -/
def levelWear (s : State) (x : Nat) : State :=
  let l := s.lane x
  let counts := l.dataHanks.map fun h => (l.hank h).erases
  let used := l.dataHanks.filter fun h => decide ((l.hank h).owner ≠ .free)
  match counts, (sortBy (fun h => (l.hank h).erases) used).head? with
  | c :: t, some h =>
    if fld (s.rd .slWlCfg) 15 0 < t.foldl max c - t.foldl min c then queueMove s x h else s
  | _, _ => s

/-- WEAR_LEVEL_RELOCATION (R569). -/
def execWearLevelRelocation (lane : Fin 2) (s : State) : Host.Outcome State Fault Refusal :=
  .next (if s.live && s.laneServes lane.val && s.laneQuiet lane.val then levelWear s lane.val else s)

/-- READ_DISTURB_RELOCATION (R570). -/
def execReadDisturbRelocation (lane : Fin 2) (block : Nat) (s : State) : Host.Outcome State Fault Refusal :=
  .next (if s.live && s.laneServes lane.val &&
      decide (fld (s.rd .slWlCfg) 31 16 * 1000 ≤ (s.lane lane.val).reads.get (fun _ => 0) block) then
      queueMove s lane.val ((s.lane lane.val).hankOf block)
    else s)

/-- RELOCATION_COMPLETE (R573); with no relocation under way, one that has waited starts (R586). -/
def execRelocationComplete (lane : Fin 2) (s : State) : Host.Outcome State Fault Refusal :=
  .next (if s.live && !s.storage.suspended then
      (if (s.lane lane.val).moving.isSome then finishMove s lane.val else startMove s lane.val)
    else s)

end Sys2Proof.Machine
end

