-- ==== Sys2Proof/Machine/EngineCommands.lean ====
section
/-! DEFINITION. Engine commands, group 0x07, and the events of the Umpire, the rallies and the regulators (R594 to R647). -/

namespace Sys2Proof.Machine

/-! ### The input of search and decode jobs (R598, R624, R641) -/

/-- The skein numbers from FIRST to LAST; numbers wrap at 2^32 (R459). -/
def inRange (first last k : Nat) : Bool := decide (after first k ≤ after first last)

/-- FIRST and LAST of a job's payload. -/
def jobRange (c : Cmd) : Nat × Nat := ((pw c 3).toNat, (pw c 4).toNat)

/-- The numbers of a list of skeins hold the number before `k`. -/
def hasBefore (nums : List Nat) (k : Nat) : Bool := nums.contains ((k + 2 ^ 32 - 1) % 2 ^ 32)

/-- The input from the bobbin: the selected skeins that are not streamed, in skein order; a shared head is read of a skein whose
predecessor is not selected (R464). -/
def bobbinInput (s : State) (n first last : Nat) : List (Nat × Nat × Item) :=
  let ks := (s.cap n).kept.filter fun k => !k.streamed && inRange first last k.num
  let ks := sortBy (fun (k : Skein) => after first k.num) ks
  let nums := ks.map Skein.num
  ks.flatMap fun k => k.jobInput (!hasBefore nums k.num)

/-- The records in the blocks of a stream; a block that cannot be decompressed gives none; `fuel` bounds the blocks. -/
def blockRecords : Nat → List Byte → List Byte
  | 0, _ => []
  | fuel + 1, bs =>
    match readBlock bs with
    | none => []
    | some (b, rest) => (decompress b).getD [] ++ blockRecords fuel rest

/-- The entry's header says that its skein begins with a range it shares with the one before (R464, R470). -/
def CatEntry.sharesHead (e : CatEntry) : Bool := (leNat ((e.header.drop 2).take 1)).testBit 2

/-- The entries that come before `e` and hold the data of its shared head, oldest first; `fuel` bounds them. -/
def State.sharers (s : State) (e : CatEntry) : Nat → List CatEntry
  | 0 => []
  | fuel + 1 =>
    if e.sharesHead then
      match s.entry? e.bench e.session ((e.skein + 2 ^ 32 - 1) % 2 ^ 32) with
      | some p => s.sharers p fuel ++ [p]
      | none => []
    else []

/-- Read the skeins of entries from NAND, each after the one before it, and keep the input of those selected. -/
def storedInput (s : State) (sel : List Nat) (prev : List Item) :
    List CatEntry → List (Nat × Nat × Item) × State
  | [] => ([], s)
  | e :: rest =>
    let r := readParts s e.bench e.session e.parts
    let body := r.1.take (r.1.length - 64)
    let k := skeinOfBytes e.header (blockRecords (body.length / 0x24 + 1) body) prev
    let mine := if sel.contains e.skein then k.jobInput (!hasBefore sel e.skein) else []
    let q := storedInput r.2.2.2 sel k.items rest
    (mine ++ q.1, q.2)

/-- The selected entries of a session, in skein order. -/
def State.selectedEntries (s : State) (n session first last : Nat) : List CatEntry :=
  sortBy (fun (e : CatEntry) => after first e.skein)
    ((s.entriesOf n).filter fun e => decide (e.session = session) && inRange first last e.skein)

/-- The entries that hold the data of the selected ones before the first of them (R464). -/
def State.scanBefore (s : State) (n : Nat) (es : List CatEntry) : List CatEntry :=
  match es with
  | e :: _ => s.sharers e (s.entriesOf n).length
  | [] => []

/-- Start a search or decode job (R594, R624, R625): its input is read, and with none it completes at once. -/
def startScan (s : State) (op : BitVec 16) (c : Cmd) (k : JobKind) (r : Bool) : State :=
  let n := cmdBench c
  let s := accept s op c r
  let begin_ (input : List (Nat × Nat × Item)) (s : State) : State :=
    if input = [] then complete s c.stream op c.tag .done 0 else addJob s n c.stream c.tag k input
  let rng := jobRange c
  if bitB (pw c 2) 0 then
    let es := s.selectedEntries n (pf c 2 31 16) rng.1 rng.2
    match es.findSome? s.entryRetired with
    | some code => complete s c.stream op c.tag .retired code
    | none =>
      let q := storedInput s (es.map CatEntry.skein) [] (s.scanBefore n es ++ es)
      begin_ q.1 q.2
  else begin_ (bobbinInput s n rng.1 rng.2) s

/-! ### SEARCH_JOB (R624, R641, R643) -/

/-- P of SEARCH_JOB. -/
def searchCount (c : Cmd) : Nat := pf c 2 6 4

/-- P lies in its range. -/
def searchCountOk (c : Cmd) : Bool := decide (1 ≤ searchCount c ∧ searchCount c ≤ 4)

/-- The master-table row of SEARCH_JOB: LEN is 4 + 4P. -/
def infoSearchJob (c : Cmd) : OpInfo :=
  ⟨0x0701, .stu, some statesIAP, true, false, if searchCountOk c then [4 + 4 * searchCount c] else [8, 12, 16, 20],
    [0x0000FF8C, 0, 0, 0, 0xFFFFFFE8, 0, 0, 0, 0xFFFFFFE8, 0, 0, 0, 0xFFFFFFE8, 0, 0, 0, 0xFFFFFFE8]⟩

/-- What SEARCH_JOB does. -/
def meanSearchJob (c : Cmd) : Meaning where
  perm s := refuseIf (overTwoWire s c) .noPermission 0
  args s :=
    orElse (refuseIf (!searchCountOk c) .badArg 2) <|
    ((List.range (searchCount c)).find? fun i => !s.owns (cmdBench c) (pf c (6 + 4 * i) 2 0)).map fun i => (.badArg, 6 + 4 * i)
  space s := refuseIf (noEngineFor s c 1) .noSpace 1
  run s r := startScan s 0x0701 c (.search c.payload) r

/-- SEARCH_JOB on a state. -/
def cmdSearchJob (c : Cmd) (s : State) : State := mailbox s (infoSearchJob c) c (meanSearchJob c)

/-- SEARCH_JOB (R624). -/
def execSearchJob (c : Cmd) (s : State) : Host.Outcome State Fault Refusal := .next (cmdSearchJob c s)

/-! ### DECODE_JOB (R625, R641, R643) -/

/-- PROTO. -/
def decodeProto (c : Cmd) : Nat := pf c 2 3 2

/-- The reserved bits of word 6. -/
def decodeParamMask (c : Cmd) : Word :=
  match decodeProto c with
  | 0 => 0
  | 1 => 0xFFFFFE0C
  | 2 => 0xFFFFFFFF
  | _ => 0xF0000000

/-- The channels that the protocol uses. -/
def decodeChannels (c : Cmd) : List Nat :=
  match decodeProto c with
  | 1 => [pf c 5 7 0, pf c 5 15 8, pf c 5 23 16]
  | 2 => [pf c 5 7 0, pf c 5 15 8]
  | _ => [pf c 5 7 0]

/-- The parameters lie outside their ranges. -/
def decodeParamBad (c : Cmd) : Bool :=
  decide (decodeProto c = 0) && (decide (pf c 6 27 24 < 5) || decide (9 < pf c 6 27 24) || decide (pf c 6 29 28 = 3))

/-- The master-table row of DECODE_JOB. -/
def infoDecodeJob (c : Cmd) : OpInfo :=
  ⟨0x0702, .stu, some statesIAP, true, false, [5], [0x0000FFF2, 0, 0, 0xFF000000, decodeParamMask c]⟩

/-- What DECODE_JOB does. -/
def meanDecodeJob (c : Cmd) : Meaning where
  perm s := refuseIf (overTwoWire s c) .noPermission 0
  args s :=
    orElse (refuseIf ((decodeChannels c).any fun ch => !s.owns (cmdBench c) (ch / 32)) .badArg 5)
      (refuseIf (decodeParamBad c) .badArg 6)
  space s := refuseIf (noEngineFor s c 2) .noSpace 1
  run s r := startScan s 0x0702 c (.decode c.payload) r

/-- DECODE_JOB on a state. -/
def cmdDecodeJob (c : Cmd) (s : State) : State := mailbox s (infoDecodeJob c) c (meanDecodeJob c)

/-- DECODE_JOB (R625). -/
def execDecodeJob (c : Cmd) (s : State) : Host.Outcome State Fault Refusal := .next (cmdDecodeJob c s)

/-! ### JOB_CANCEL and ENG_QUERY (R641, R644, R645) -/

/-- The engine job that JOB_CANCEL names. -/
def cancelled (s : State) (c : Cmd) : Option Job := s.jobOf c.stream (BitVec.ofNat 8 (pf c 2 7 0))

/-- The master-table row of JOB_CANCEL. -/
def infoJobCancel : OpInfo := ⟨0x0703, .stu, some statesIAP, false, false, [1], [0xFFFFFF00]⟩

/-- What JOB_CANCEL does: the job is told to stop, and the command is answered (R274, R644). -/
def meanJobCancel (c : Cmd) : Meaning where
  args s := refuseIf (cancelled s c).isNone .badArg 2
  run s r :=
    match cancelled s c with
    | none => s
    | some j => done (tellStop s j Status.partial_.code 0) 0x0703 c [] r

/-- JOB_CANCEL on a state. -/
def cmdJobCancel (c : Cmd) (s : State) : State := mailbox s infoJobCancel c (meanJobCancel c)

/-- JOB_CANCEL (R644). -/
def execJobCancel (c : Cmd) (s : State) : Host.Outcome State Fault Refusal := .next (cmdJobCancel c s)

/-- The master-table row of ENG_QUERY. -/
def infoEngQuery : OpInfo := ⟨0x0704, .any, some statesIAPH, false, true, [1], [0xFFFFFFF0]⟩

/-- What ENG_QUERY does: a student sees no other bench's job. -/
def meanEngQuery (c : Cmd) : Meaning where
  run s r := done s 0x0704 c (s.engQueryWords (cmdTarget c) (if isAdmin c then none else some (cmdTarget c))) r

/-- ENG_QUERY on a state. -/
def cmdEngQuery (c : Cmd) (s : State) : State := mailbox s infoEngQuery c (meanEngQuery c)

/-- ENG_QUERY (R641). -/
def execEngQuery (c : Cmd) (s : State) : Host.Outcome State Fault Refusal := .next (cmdEngQuery c s)

/-! ### PLY_CONFIG and REGULATOR_SET (R641, R646) -/

/-- The engines of ply `y`. -/
def State.plyEngines (s : State) (y : Nat) : List Nat := s.engineList.filter fun e => decide (s.engPly e = y)

/-- The master-table row of PLY_CONFIG. -/
def infoPlyConfig : OpInfo := ⟨0x0710, .adm, none, false, false, [3], [0xFFFFFFFC, 0, 0xFFFFFE00]⟩

/-- What PLY_CONFIG does. -/
def meanPlyConfig (c : Cmd) : Meaning where
  args s :=
    orElse (refuseIf (decide (s.member.plies ≤ pf c 2 1 0)) .badArg 2) <|
    orElse (refuseIf (decide ((pw c 3).toNat < 5) || decide (5000 < (pw c 3).toNat)) .badArg 3) <|
    refuseIf ((List.range 9).any fun e => bitB (pw c 4) e && !(s.plyEngines (pf c 2 1 0)).contains e) .badArg 4
  run s r :=
    let y := pf c 2 1 0
    let s := settleRally (s.wrFld .plyCfg y 0 12 0 (pw c 3).toNat) (Reg.addr ⟨.plyCfg, y, 0⟩)
    let s := s.each (s.plyEngines y) fun s e =>
      settleRally (s.wrFld .engCfg e 0 0 0 (bN (bitB (pw c 4) e))) (Reg.addr ⟨.engCfg, e, 0⟩)
    done s 0x0710 c [] r

/-- PLY_CONFIG on a state. -/
def cmdPlyConfig (c : Cmd) (s : State) : State := mailbox s infoPlyConfig c (meanPlyConfig c)

/-- PLY_CONFIG (R646). -/
def execPlyConfig (c : Cmd) (s : State) : Host.Outcome State Fault Refusal := .next (cmdPlyConfig c s)

/-- The master-table row of REGULATOR_SET. -/
def infoRegulatorSet : OpInfo := ⟨0x0711, .adm, none, false, false, [3], [0xFFFFFCFC, 0, 0]⟩

/-- What REGULATOR_SET does. -/
def meanRegulatorSet (c : Cmd) : Meaning where
  args s :=
    orElse (refuseIf (decide (s.member.plies ≤ pf c 2 1 0) || decide (pf c 2 9 8 = 3)) .badArg 2) <|
    orElse (refuseIf (decide (65535 < (pw c 3).toNat)) .badArg 3) <|
    refuseIf (decide ((pw c 4).toNat = 0) || decide (65535 < (pw c 4).toNat)) .badArg 4
  run s r :=
    let y := pf c 2 1 0
    let k := pf c 2 9 8
    let s := settleRally (s.wr .plyRate y k (pw c 3)) (Reg.addr ⟨.plyRate, y, k⟩)
    let s := settleRally (s.wr .plyBurst y k (pw c 4)) (Reg.addr ⟨.plyBurst, y, k⟩)
    done s 0x0711 c [] r

/-- REGULATOR_SET on a state. -/
def cmdRegulatorSet (c : Cmd) (s : State) : State := mailbox s infoRegulatorSet c (meanRegulatorSet c)

/-- REGULATOR_SET (R638). -/
def execRegulatorSet (c : Cmd) (s : State) : Host.Outcome State Fault Refusal := .next (cmdRegulatorSet c s)

/-! ### The Umpire (R602 to R610) -/

/-- An idle engine chooses and starts; engine 8 arms or calibrates (R604, R656, R664). -/
def startIdle (s : State) (e : Nat) : State :=
  let r := choose s e
  let s := switchTo r.2 e r.1 true
  if e = 8 then iuBegin s else s

/-- A choice of the Umpire (R604, R605): at the prefetch point of a rally it is kept for the switch; an idle engine starts at
once. -/
def umpireChooses (s : State) (e : Nat) : State :=
  if (s.engine e).job.isNone then startIdle s e
  else if s.interleaved e ∨ e = 8 ∨ (s.engine e).chosen.isSome then s
  else
    let r := choose s e
    r.2.setEngine e { r.2.engine e with chosen := some r.1 }

/-- The engine takes part in the rotation now. -/
def State.umpireRuns (s : State) (e : Nat) : Bool := s.live && s.engineServes e && !s.testing (resEngine e)

/-- UMPIRE_CHOICE (R604). -/
def execUmpireChoice (e : Fin 9) (s : State) : Host.Outcome State Fault Refusal :=
  .next (if s.umpireRuns e.val then umpireChooses s e.val else s)

/-- The engine runs a job under the rally timer (R602, R609, R610). -/
def State.inRally (s : State) (e : Nat) : Bool := s.umpireRuns e && !s.interleaved e && decide (e ≠ 8) && (s.engine e).job.isSome

/-- A rally expires (R602, R603): the choice made at the prefetch point stands. -/
def expireRally (s : State) (e : Nat) (contextOk : Bool) : State :=
  let r : Option Nat × State := match (s.engine e).chosen with
    | some c => (c, s)
    | none => choose s e
  sweepOrphans (switchTo (rallyBoundary r.2 e) e r.1 contextOk)

/-- RALLY_EXPIRY (R603): `contextOk` says that the context restored passes its check. -/
def execRallyExpiry (e : Fin 9) (contextOk : Bool) (s : State) : Host.Outcome State Fault Refusal :=
  .next (if s.inRally e.val then expireRally s e.val contextOk else s)

/-- The job that an engine runs is blocked (R603, R619). -/
def State.blocked (s : State) (e : Nat) : Bool :=
  match s.jobOn e with
  | some j => !s.hasInput j
  | none => false

/-- JOB_BLOCKED_TIMEOUT (R602): the rally ends early, and the engine chooses again. -/
def execJobBlockedTimeout (e : Fin 9) (s : State) : Host.Outcome State Fault Refusal :=
  .next (if s.inRally e.val && s.blocked e.val then sweepOrphans (startIdle (rallyBoundary (preempt s e.val) e.val) e.val) else s)

/-- JOB_STEP_END (R598). -/
def execJobStepEnd (e : Fin 9) (s : State) : Host.Outcome State Fault Refusal :=
  .next (if s.umpireRuns e.val then endStep s e.val true else s)

/-- REGULATOR_REFILL (R617): the levels rise, pages that waited for them are issued in bench order, and stored skeins are read on (R588,
R637). -/
def execRegulatorRefill (s : State) : Host.Outcome State Fault Refusal :=
  .next (if s.live then
      let s := refillAll s
      pumpReads (s.each s.benchList fun s n => pumpPages s n (s.cmp n).queued.length)
    else s)

end Sys2Proof.Machine
end

