-- ==== Sys2Proof/Machine/IntervalCommands.lean ====
section
/-! DEFINITION. Interval commands, group 0x08, and the events of the interval unit (R651 to R689). -/

namespace Sys2Proof.Machine

/-! ### IU_CONFIG (R656, R686) -/

/-- The configuration uses source 4. -/
def usesRoute (c : Cmd) : Bool := decide (pf c 2 2 0 = 4) || bitB (pw c 2) 8

/-- The master-table row of IU_CONFIG. -/
def infoIuConfig : OpInfo := ⟨0x0801, .stu, some [.idle], false, false, [3], [0xFF000800, 0, 0xFFFFFF00]⟩

/-- What IU_CONFIG does. -/
def meanIuConfig (c : Cmd) : Meaning where
  args s :=
    refuseIf (decide (4 < pf c 2 2 0) || decide (pf c 2 10 9 = 3) || decide (pf c 2 8 4 = 0) ||
      (usesRoute c && !s.owns (cmdBench c) (pf c 2 23 16 / 32))) .badArg 2
  run s r :=
    let s := { s with iu := { s.iu with configs := s.iu.configs.put iuConfigInit (cmdBench c) (pw c 2, pw c 3, pw c 4) } }
    done s 0x0801 c [] r

/-- IU_CONFIG on a state. -/
def cmdIuConfig (c : Cmd) (s : State) : State := mailbox s infoIuConfig c (meanIuConfig c)

/-- IU_CONFIG (R656). -/
def execIuConfig (c : Cmd) (s : State) : Host.Outcome State Fault Refusal := .next (cmdIuConfig c s)

/-! ### IU_MEASURE and IU_CALIBRATE (R596, R659, R674, R686, R687) -/

/-- The master-table row of IU_MEASURE. -/
def infoIuMeasure : OpInfo := ⟨0x0802, .stu, some statesIAP, true, false, [1], [0xFFFF0000]⟩

/-- What IU_MEASURE does. -/
def meanIuMeasure (c : Cmd) : Meaning where
  args s := refuseIf (decide (pf c 2 15 0 = 0) || (overTwoWire s c && decide (pf c 2 15 0 ≠ 1))) .badArg 2
  space s := refuseIf (noEngineFor s c 3) .noSpace 1
  run s r := addJob (accept s 0x0802 c r) (cmdBench c) c.stream c.tag (.measure (pf c 2 15 0) 0) []

/-- IU_MEASURE on a state. -/
def cmdIuMeasure (c : Cmd) (s : State) : State := mailbox s infoIuMeasure c (meanIuMeasure c)

/-- IU_MEASURE (R674). -/
def execIuMeasure (c : Cmd) (s : State) : Host.Outcome State Fault Refusal := .next (cmdIuMeasure c s)

/-- The master-table row of IU_CALIBRATE. -/
def infoIuCalibrate : OpInfo := ⟨0x0803, .adm, none, true, false, [1], [0xFFFFFFE0]⟩

/-- What IU_CALIBRATE does: a job of no bench. -/
def meanIuCalibrate (c : Cmd) : Meaning where
  args _ := refuseIf (decide (pf c 2 4 0 ≠ 0) && (decide (pf c 2 4 0 < 16) || decide (22 < pf c 2 4 0))) .badArg 2
  space s := refuseIf (!s.engineServes 8) .noSpace 1
  run s r :=
    let s := accept s 0x0803 c r
    let s := if pf c 2 4 0 = 0 then s else s.wrFld .iuCtrl 0 0 20 16 (pf c 2 4 0)
    addJob s 15 c.stream c.tag .calibrate []

/-- IU_CALIBRATE on a state. -/
def cmdIuCalibrate (c : Cmd) (s : State) : State := mailbox s infoIuCalibrate c (meanIuCalibrate c)

/-- IU_CALIBRATE (R659). -/
def execIuCalibrate (c : Cmd) (s : State) : Host.Outcome State Fault Refusal := .next (cmdIuCalibrate c s)

/-! ### IU_QUERY and IU_SET_AGE (R666, R668, R686, R688) -/

/-- The master-table row of IU_QUERY. -/
def infoIuQuery : OpInfo := ⟨0x0804, .any, some statesIAPH, false, true, [1], [0xFC00F0E0]⟩

/-- The words of IU_QUERY with TABLE 0. -/
def iuStatusWords (s : State) (n : Nat) (admin : Bool) : List Word :=
  [if admin then s.iuStatus else s.iuStatusFor n, s.shown .iuTemp, s.eff .iuCorr, s.rd .iuAge] ++
    (s.iu.byBench.get (fun _ => []) n).flatten

/-- The words of IU_QUERY with TABLE 1: at most 200 entries of an interpolator's table. -/
def iuTableWords (s : State) (interp first : Nat) : List Word :=
  pack [(s.iu.calTemp.toNat, 0), (s.calLog2, 8)] ::
    (((List.range 1024).drop first).take 200).map fun k => s.iu.tables.get (fun _ => 0) (1024 * interp + k)

/-- What IU_QUERY does. -/
def meanIuQuery (c : Cmd) : Meaning where
  args _ := refuseIf (bitB (pw c 2) 4 && decide (8 < pf c 2 11 8)) .badArg 2
  run s r :=
    done s 0x0804 c
      (if bitB (pw c 2) 4 then iuTableWords s (pf c 2 11 8) (pf c 2 25 16) else iuStatusWords s (cmdTarget c) (isAdmin c)) r

/-- IU_QUERY on a state. -/
def cmdIuQuery (c : Cmd) (s : State) : State := mailbox s infoIuQuery c (meanIuQuery c)

/-- IU_QUERY (R686). -/
def execIuQuery (c : Cmd) (s : State) : Host.Outcome State Fault Refusal := .next (cmdIuQuery c s)

/-- The master-table row of IU_SET_AGE. -/
def infoIuSetAge : OpInfo := ⟨0x0810, .adm, none, false, false, [1], [0]⟩

/-- What IU_SET_AGE does. -/
def meanIuSetAge (c : Cmd) : Meaning where
  args _ := refuseIf (decide (100000 < ((pw c 2).toInt).natAbs)) .badArg 2
  run s r :=
    let s := { s with fw := { s.fw with age := some (pw c 2) } }
    let s := updateCorr (s.wr .iuAge 0 0 (pw c 2))
    done s 0x0810 c [s.rd .iuCorr] r

/-- IU_SET_AGE on a state. -/
def cmdIuSetAge (c : Cmd) (s : State) : State := mailbox s infoIuSetAge c (meanIuSetAge c)

/-- IU_SET_AGE (R666). -/
def execIuSetAge (c : Cmd) (s : State) : Host.Outcome State Fault Refusal := .next (cmdIuSetAge c s)

/-! ### The unit's registers and events (R651 to R665) -/

/-- IU_CTRL_GO (R651): a 1 written to the GO bit through the set view. -/
def execIuCtrlGo (path : Path) (s : State) : Host.Outcome State Fault Refusal :=
  .next (accessWrite s path (0x10000 + Reg.addr ⟨.iuCtrl, 0, 0⟩) 1)

/-- IU_CTRL_CAL_GO (R664): a 1 written to the CAL_GO bit through the set view. -/
def execIuCtrlCalGo (path : Path) (s : State) : Host.Outcome State Fault Refusal :=
  .next (accessWrite s path (0x10000 + Reg.addr ⟨.iuCtrl, 0, 0⟩) 2)

/-- IU_START_EDGE (R652). -/
def execIuStartEdge (src : Fin 5) (falling : Bool) (coarse : Nat) (code : BitVec 10) (s : State) :
    Host.Outcome State Fault Refusal :=
  .next (if s.live then iuStart (iuClock s coarse) src.val falling coarse code.toNat else s)

/-- IU_STOP_EDGE (R652). -/
def execIuStopEdge (src : Fin 5) (falling : Bool) (coarse : Nat) (code : BitVec 10) (s : State) :
    Host.Outcome State Fault Refusal :=
  .next (if s.live then iuStop (iuClock s coarse) src.val falling coarse code.toNat else s)

/-- IU_MEASUREMENT_END (R655). -/
def execIuMeasurementEnd (s : State) : Host.Outcome State Fault Refusal := .next (if s.live then iuReport s else s)

/-- IU_CALIBRATION_END (R660): `hits` are the hits of the interpolator's codes. -/
def execIuCalibrationEnd (hits : List Nat) (s : State) : Host.Outcome State Fault Refusal :=
  .next (if s.live then iuCalStep s hits else s)

/-- IU_TEMP_UPDATE (R665). -/
def execIuTempUpdate (temp : BitVec 8) (s : State) : Host.Outcome State Fault Refusal :=
  .next (if s.live then iuTemp s temp else s)

end Sys2Proof.Machine
end

