-- ==== Sys2Proof/Machine/TwoWireCommands.lean ====
section
/-! DEFINITION. Two-wire commands, group 0x09, and the events of the two-wire bus (R88, R140, R141, R691 to R721). -/

namespace Sys2Proof.Machine

/-! ### The register window as target (R140, R141, R691 to R700) -/

/-- The A9 answers its address on the register window: READY, and the pads serve (R140, R692, R711). -/
def State.twServes (s : State) : Bool := s.live && s.isReady && !s.tw.retired

/-- The A9 answers its address with the boot-status block: from 10 ms, 8 ms after the release of the fast domain, until READY (R129,
R140).  The steps after ROM come later on the timeline than that, whatever the model's base-tick counter has counted (log entry
68). -/
def State.twBootServes (s : State) : Bool :=
  s.live && (match s.boot.phase with
    | .none => false
    | .ready => false
    | .rom => decide (12800000 ≤ s.power.baseTick)
    | .fwStart | .bbt | .pods | .recovery | .failed => true)

/-- A read transfer of `count` bytes before READY (R141). -/
def bootStatusRead (s : State) (count : Nat) : State :=
  if s.twBootServes then
    let b := s.boot.statusBytes
    let out := (List.range count).map fun i => b.getD (i % 8) 0
    { s with boot := { s.boot with statusOut := out }, tw := { s.tw with busy := true, ack := true } }
  else { s with tw := { s.tw with ack := false } }

/-- TW_BOOT_STATUS_READ (R141). -/
def execTwBootStatusRead (count : Nat) (s : State) : Host.Outcome State Fault Refusal :=
  .next (if s.live && !s.isReady then bootStatusRead s count else s)

/-- TW_PRE_READY_WRITE (R140): the first data byte is NACKed. -/
def execTwPreReadyWrite (s : State) : Host.Outcome State Fault Refusal :=
  .next (if s.live && !s.isReady then { s with tw := { s.tw with busy := s.twBootServes, ack := false, nacking := true } } else s)

/-- The three pointer bytes of a transfer (R692, R693). -/
def setPointer (s : State) (p2 p1 p0 : Byte) : State :=
  if 16 ≤ p2.toNat then { s with tw := { s.tw with busy := true, ack := false, nacking := true, reading := false } }
  else { s with tw := { s.tw with
    busy := true, ack := true, nacking := false, reading := false,
    pointer := p2.toNat * 2 ^ 16 + p1.toNat * 2 ^ 8 + p0.toNat } }

/-- TW_POINTER_WRITE (R693). -/
def execTwPointerWrite (p2 p1 p0 : Byte) (s : State) : Host.Outcome State Fault Refusal :=
  .next (if s.twServes && s.tw.stretched.isNone then setPointer s p2 p1 p0 else s)

/-- The pointer after one more word. -/
def nextPointer (p : Nat) : Nat := (p + 4) % 2 ^ 20

/-- One word is written at the pointer (R694, R696, R698): a bus error NACKs its last byte and every later one; a push that must wait
stretches the bus until it completes. -/
def writeWord (s : State) (d : Word) : State :=
  if s.tw.nacking then { s with tw := { s.tw with ack := false } }
  else
    let s := accessWrite s .twoWire s.tw.pointer d
    let bad := (s.path .twoWire).error
    let s := { s with tw := { s.tw with busy := true, reading := false, ack := !bad && s.tw.stretched.isNone, nacking := bad } }
    if s.tw.stretched.isSome then s else { s with tw := { s.tw with pointer := nextPointer s.tw.pointer } }

/-- TW_WORD_WRITE (R694). -/
def execTwWordWrite (data : Word) (s : State) : Host.Outcome State Fault Refusal :=
  .next (if s.twServes && s.tw.stretched.isNone then writeWord s data else s)

/-- One word is read at the pointer (R695, R696): a bus error at the first word NACKs the address; at a later one that word and every
later byte are 0xFF. -/
def readWord (s : State) : State :=
  if s.tw.nacking then
    if s.tw.reading then s.setPath .twoWire { s.path .twoWire with data := [0xFFFFFFFF] }
    else { s with tw := { s.tw with ack := false } }
  else
    let first := !s.tw.reading
    let s := accessRead s .twoWire s.tw.pointer
    let bad := (s.path .twoWire).error
    let s := if bad then s.setPath .twoWire { s.path .twoWire with data := if first then [] else [0xFFFFFFFF] } else s
    { s with tw := { s.tw with
      busy := true, ack := !(bad && first), nacking := bad, reading := !(bad && first), pointer := nextPointer s.tw.pointer } }

/-- TW_WORD_READ (R695). -/
def execTwWordRead (s : State) : Host.Outcome State Fault Refusal :=
  .next (if s.twServes && s.tw.stretched.isNone then readWord s else s)

/-- A push of the two-wire path waits for queue `q`. -/
def twWaits (s : State) (q : Nat) : Option QWord :=
  ((s.queue q).waiting.find? fun w => decide (w.1 = Producer.path .twoWire)).map Prod.snd

/-- The stretch has lasted TW_STRETCH_MAX (R240, R699): the push is refused, the byte NACKed, a DROP counted, and the held low half
kept. -/
def stretchOver (s : State) : State :=
  match s.tw.stretched with
  | none => s
  | some (a, _) =>
    let q := if a < 0x6000 then 64 + (a - 0x100) / 0x40 else (a - 0x6000) / 0x40
    let base := if q < 64 then 0x6000 + q * 0x40 else 0x100 + (q - 64) * 0x40
    let s := match twWaits s q with
      | none => s
      | some w =>
        let x := s.queue q
        let s := s.setQueue q { x with waiting := x.waiting.filter fun e => decide (e.1 ≠ Producer.path .twoWire) }
        holdLo (s.bumpQCnt q 11 0) .twoWire (base + 8) (DWord.lo w.data)
    { s with tw := { s.tw with stretched := none, ack := false, nacking := true } }

/-- TW_STRETCH_TIMEOUT (R699). -/
def execTwStretchTimeout (s : State) : Host.Outcome State Fault Refusal := .next (if s.live then stretchOver s else s)

/-- TW_ADDRESS_WAKE (R88). -/
def execTwAddressWake (s : State) : Host.Outcome State Fault Refusal :=
  .next (if s.power.state = .sleep ∨ s.power.state = .doze then
      wakeFor { s with tw := { s.tw with ack := false } } .twoWire 0 .awake
    else s)

/-- A STOP ends a transfer: the bytes of an incomplete word make a narrow access, pending values apply, and transfers that waited for
the bus start (R183, R694, R702). -/
def busStop (s : State) (bytes : List Byte) : State :=
  let s := if bytes = [] ∨ s.tw.nacking ∨ !s.twServes ∨ !s.tw.busy then s
    else (busWrite s .twoWire s.tw.pointer (W (leNat (bytes.take 3))) true).2
  let s := twStop { s with tw := { s.tw with nacking := false, reading := false, ack := false } }
  releaseXfers s

/-- TW_BUS_STOP (R694). -/
def execTwBusStop (partialBytes : List Byte) (s : State) : Host.Outcome State Fault Refusal :=
  .next (if s.live && s.tw.stretched.isNone then busStop s partialBytes else s)

/-! ### Controller events (R701, R704, R709, R711) -/

/-- The alert that is being sent, and whether as the last attempt. -/
def State.alertSending (s : State) : Option (Alert × Bool) :=
  match s.tw.cstate, s.tw.sending with
  | .sending, some a => some (a, false)
  | .last, some a => some (a, true)
  | _, _ => none

/-- An alert message is sent with its outcome. -/
def sendNow (s : State) (out : XferOut) : State :=
  match s.alertSending with
  | some (a, last) => if s.mayControl && s.isReady then sendAlert s a last out else s
  | none => s

/-- ALERT_SEND (R708). -/
def execAlertSend (out : XferOut) (s : State) : Host.Outcome State Fault Refusal := .next (sendNow s out)

/-- The winner's transfer has the bus; the A9 answers when it is addressed and `serves` (R160, R704). -/
def winnerTakes (s : State) (winner : BitVec 8) (serves : Bool) : State :=
  { s with tw := { s.tw with
    busy := true, nacking := false, reading := false, ack := decide (winner.toNat / 2 = s.ownAddr) && serves } }

/-- TW_ARBITRATION_LOSS (R160, R704, R705): of an alert message, or of a pod's EEPROM read, whose loss the read's own row counts. -/
def execTwArbitrationLoss (winner : BitVec 8) (s : State) : Host.Outcome State Fault Refusal :=
  .next (match s.alertSending with
    | none =>
      if s.live ∧ s.boot.phase = .pods ∧ !s.boot.podsDone then winnerTakes s winner s.twBootServes else s
    | some _ =>
      if s.mayControl && s.isReady then winnerTakes (sendNow s .lost) winner s.twServes else s)

/-- TW_CONTROLLER_TIMEOUT (R701). -/
def execTwControllerTimeout (s : State) : Host.Outcome State Fault Refusal := .next (sendNow s .timeout)

/-- TW_STUCK (R711). -/
def execTwStuck (s : State) : Host.Outcome State Fault Refusal :=
  .next (if s.live && !s.tw.retired then raiseFault { s with tw := { s.tw with stuck := true } } resPads 0x0801 else s)

/-- ALERT_WAIT_EXPIRY (R709). -/
def execAlertWaitExpiry (s : State) : Host.Outcome State Fault Refusal :=
  .next (if s.live ∧ s.tw.cstate = .wait then twChoose s else s)

/-- The back-off ends (R709, R715): LAST with the oldest priority-0 alert; IDLE where none is pending any more. -/
def endBackoff (s : State) : State :=
  match s.tw.alerts.find? fun a => a.pri == 0, decide (s.hostAddr = 0) with
  | some a, false => let s := setCState s .last; { s with tw := { s.tw with sending := some a } }
  | _, _ => let s := setCState s .idle; twKick { s with tw := { s.tw with sending := none, retries := 0 } }

/-- BACKOFF_EXPIRY (R709, R716): the last attempt, with its outcome; then the transfers that waited. -/
def execBackoffExpiry (out : XferOut) (s : State) : Host.Outcome State Fault Refusal :=
  .next (if s.live ∧ s.tw.cstate = .backoff then
      releaseXfers (sendNow (endBackoff s) out)
    else s)

/-! ### TW_CONFIG (R715, R719) -/

/-- An address that TW_CONFIG and TW_XFER refuse (R719). -/
def State.addrBad (s : State) (a : Nat) : Bool :=
  decide (a = s.ownAddr) || (decide (1 ≤ a) && decide (a ≤ 7)) || decide (0x78 ≤ a)

/-- The master-table row of TW_CONFIG. -/
def infoTwConfig : OpInfo := ⟨0x0901, .adm, none, false, false, [4], [0xFFFFF080, 0xFFFF0000, 0xFFFFFF00, 0xFFFF0000]⟩

/-- What TW_CONFIG does: the values are pending, and apply at once on an idle bus; PARKED ends, and so does a back-off (R185, R709,
R715). -/
def meanTwConfig (c : Cmd) : Meaning where
  args s := refuseIf (s.addrBad (pf c 2 6 0)) .badArg 2
  run s r :=
    let s := (((s.wr .twCfg 0 0 (pw c 2)).wr .twStretchMax 0 0 (pw c 3)).wr .twRetryLimit 0 0 (pw c 4)).wr .twBackoff 0 0 (pw c 5)
    let s := if s.tw.busy then s else s.each twRegs fun s a => applyReg s a (gBitsAt a)
    let s := match s.tw.cstate with
      | .parked => let s := setCState s .idle; { s with tw := { s.tw with retries := 0 } }
      | .backoff => releaseXfers (endBackoff s)
      | _ => s
    done (twKick s) 0x0901 c [] r

/-- TW_CONFIG on a state. -/
def cmdTwConfig (c : Cmd) (s : State) : State := mailbox s infoTwConfig c (meanTwConfig c)

/-- TW_CONFIG (R715). -/
def execTwConfig (c : Cmd) (s : State) : Host.Outcome State Fault Refusal := .next (cmdTwConfig c s)

/-! ### TW_ALERT_READ (R712, R720) -/

/-- The alerts that TW_ALERT_READ returns: the most urgent first (R708, R720). -/
def alertsFor (s : State) (n k : Nat) : List Alert :=
  (sortBy Alert.pri (s.tw.alerts.filter fun a => decide (a.bench = n ∨ a.bench = 15))).take k

/-- The command came over the two-wire transport, or from the administrator. -/
def takesPartWide (c : Cmd) : Bool := isAdmin c || decide (streamVia c = .twoWire)

/-- The two words of an alert. -/
def alertWords (s : State) (a : Alert) : List Word := wordsOfBytes (alertBytes s.ownAddr a false)

/-- The master-table row of TW_ALERT_READ. -/
def infoTwAlertRead : OpInfo := ⟨0x0902, .any, some statesIAPH, false, true, [1], [0xFFFFE0F0]⟩

/-- What TW_ALERT_READ does. -/
def meanTwAlertRead (c : Cmd) : Meaning where
  args _ := refuseIf (decide (pf c 2 12 8 = 0) || decide (16 < pf c 2 12 8)) .badArg 2
  run s r :=
    let as := alertsFor s (cmdTarget c) (pf c 2 12 8)
    let s := removedAlerts s (as.filter fun a => decide (a.bench ≠ 15) || takesPartWide c)
    done s 0x0902 c (pack [(as.length, 0), (s.tw.alerts.length, 8)] :: as.flatMap (alertWords s)) r

/-- TW_ALERT_READ on a state. -/
def cmdTwAlertRead (c : Cmd) (s : State) : State := mailbox s infoTwAlertRead c (meanTwAlertRead c)

/-- TW_ALERT_READ (R720). -/
def execTwAlertRead (c : Cmd) (s : State) : Host.Outcome State Fault Refusal := .next (cmdTwAlertRead c s)

/-! ### TW_XFER and TW_QUERY (R716, R719, R721) -/

/-- The master-table row of TW_XFER: LEN is 1 + ⌈WLEN / 4⌉. -/
def infoTwXfer (c : Cmd) : OpInfo :=
  ⟨0x0903, .adm, none, true, false, if pf c 2 13 8 ≤ 32 then [1 + (pf c 2 13 8 + 3) / 4] else [1, 2, 3, 4, 5, 6, 7, 8, 9],
    [0xFFC0C080]⟩

/-- What TW_XFER does: it starts once the bus is free and no back-off runs (R702, R716); `outs` are the outcomes of its attempts. -/
def meanTwXfer (c : Cmd) (outs : List XferOut) : Meaning where
  args s :=
    refuseIf (s.addrBad (pf c 2 6 0) || decide (32 < pf c 2 13 8) || decide (32 < pf c 2 21 16) ||
      decide (pf c 2 13 8 + pf c 2 21 16 = 0)) .badArg 2
  run s r :=
    let s := accept s 0x0903 c r
    if !s.tw.retired ∧ (s.tw.cstate = .backoff ∨ !s.busFree) then { s with tw := { s.tw with xfers := s.tw.xfers ++ [(c, outs)] } }
    else performXfer s c outs

/-- TW_XFER on a state. -/
def cmdTwXfer (c : Cmd) (outs : List XferOut) (s : State) : State := mailbox s (infoTwXfer c) c (meanTwXfer c outs)

/-- TW_XFER (R721). -/
def execTwXfer (c : Cmd) (outs : List XferOut) (s : State) : Host.Outcome State Fault Refusal := .next (cmdTwXfer c outs s)

/-- The master-table row of TW_QUERY. -/
def infoTwQuery : OpInfo := ⟨0x0904, .any, some statesIAPH, false, true, [1], [0xFFFFFFF0]⟩

/-- The words of TW_QUERY: the bytes of the last TW_XFER only for an administrator. -/
def twQueryWords (s : State) (admin : Bool) : List Word :=
  [s.eff .twCfg, s.eff .twStretchMax, s.eff .twRetryLimit, s.eff .twBackoff, s.shown .twStatus, s.shown .twAlertPend,
    s.rd .twCnt, s.rd .twAlertDrop] ++ wordsOfBytes (padTo 32 0 (if admin then s.tw.xferRead else []))

/-- What TW_QUERY does. -/
def meanTwQuery (c : Cmd) : Meaning where
  run s r := done s 0x0904 c (twQueryWords s (isAdmin c)) r

/-- TW_QUERY on a state. -/
def cmdTwQuery (c : Cmd) (s : State) : State := mailbox s infoTwQuery c (meanTwQuery c)

/-- TW_QUERY (R719). -/
def execTwQuery (c : Cmd) (s : State) : Host.Outcome State Fault Refusal := .next (cmdTwQuery c s)

/-- TW_ALERT_RD_LO_READ (R712). -/
def execTwAlertRdLoRead (path : Path) (s : State) : Host.Outcome State Fault Refusal :=
  .next (accessRead s path (Reg.addr ⟨.twAlertRdLo, 0, 0⟩))

end Sys2Proof.Machine
end

