-- ==== Sys2Proof/Machine/FaultCommands.lean ====
section
/-! DEFINITION. Fault commands, group 0x0B, and the events of the Referee (R203, R751 to R790). -/

namespace Sys2Proof.Machine

/-! ### FLT_LIST (R774, R786, R787) -/

/-- The Referee's log entries held, oldest first. -/
def State.faultLog (s : State) : List (List Word) :=
  let w := s.ref.written
  let k := min 256 w
  (List.range k).map fun i => s.ref.log.get (fun _ => []) ((w - k + i) % 256)

/-- BENCH of a log entry. -/
def entryBench (e : List Word) : Nat := fld (wordAt e 0) 23 20

/-- The master-table row of FLT_LIST. -/
def infoFltList : OpInfo := ⟨0x0B01, .any, some statesIAPH, false, true, [1], [0xFFC000F0]⟩

/-- The words of FLT_LIST: COUNT entries from FIRST on; a student sees those of the bench and the part-wide ones. -/
def fltListWords (s : State) (n first count : Nat) (admin : Bool) : List Word :=
  let all := s.faultLog
  let seen := (all.drop first).filter fun e => admin || decide (entryBench e = n) || decide (entryBench e = 15)
  [W all.length, s.rd .refCnt] ++ (seen.take count).flatten

/-- What FLT_LIST does. -/
def meanFltList (c : Cmd) : Meaning where
  args _ := refuseIf (decide (pf c 2 21 16 = 0) || decide (55 < pf c 2 21 16)) .badArg 2
  run s r := done s 0x0B01 c (fltListWords s (cmdTarget c) (pf c 2 15 8) (pf c 2 21 16) (isAdmin c)) r

/-- FLT_LIST on a state. -/
def cmdFltList (c : Cmd) (s : State) : State := mailbox s infoFltList c (meanFltList c)

/-- FLT_LIST (R787). -/
def execFltList (c : Cmd) (s : State) : Host.Outcome State Fault Refusal := .next (cmdFltList c s)

/-! ### REF_INSERVICE (R786, R787) -/

/-- The bits of a map of resources, `base` and up, that bench `n` may see: its own queues and banks, and what belongs to no bench. -/
def ownBits (s : State) (n base : Nat) (f : Nat → Word) : Word :=
  W (bitsOf ((List.range 32).filter fun i => decide (s.resOwner (f (base + i)) = some n ∨ s.resOwner (f (base + i)) = none)))

/-- The words of REF_INSERVICE. -/
def inServiceWords (s : State) (n : Nat) (admin : Bool) : List Word :=
  let mask (w m : Word) : Word := if admin then w else w &&& m
  ((List.range 8).map fun p => mask (s.retCh p) (if s.owns n p then 0xFFFFFFFF else 0)) ++
    ((List.range 2).map fun h => mask (s.retQ h) (ownBits s n (32 * h) resQueue)) ++
    ((List.range 3).map fun w => mask (s.retSram w) (ownBits s n (32 * w) resSram)) ++
    [s.retMisc, s.retBank, pack [(s.ref.probation.length, 0), (bN s.ref.faulted.isSome, 8)]]

/-- The master-table row of REF_INSERVICE. -/
def infoRefInservice : OpInfo := ⟨0x0B02, .any, some statesIAPH, false, true, [1], [0xFFFFFFF0]⟩

/-- What REF_INSERVICE does. -/
def meanRefInservice (c : Cmd) : Meaning where
  run s r := done s 0x0B02 c (inServiceWords s (cmdTarget c) (isAdmin c)) r

/-- REF_INSERVICE on a state. -/
def cmdRefInservice (c : Cmd) (s : State) : State := mailbox s infoRefInservice c (meanRefInservice c)

/-- REF_INSERVICE (R786). -/
def execRefInservice (c : Cmd) (s : State) : Host.Outcome State Fault Refusal := .next (cmdRefInservice c s)

/-! ### REF_TEST and REF_RETURN (R759, R771, R786, R788, R789) -/

/-- The master-table row of REF_TEST. -/
def infoRefTest : OpInfo := ⟨0x0B03, .adm, none, true, false, [1], [0]⟩

/-- What REF_TEST does. -/
def meanRefTest (c : Cmd) : Meaning where
  cond s := s.testRefused (pw c 2)
  run s r := requestTest (accept s 0x0B03 c r) (pw c 2) false (some (0x0B03, c.stream, c.tag))

/-- REF_TEST on a state. -/
def cmdRefTest (c : Cmd) (s : State) : State := mailbox s infoRefTest c (meanRefTest c)

/-- REF_TEST (R759). -/
def execRefTest (c : Cmd) (s : State) : Host.Outcome State Fault Refusal := .next (cmdRefTest c s)

/-- The block stands in its lane's table with ORIGIN 0b00 (R580). -/
def State.factoryBad (s : State) (r : Word) : Bool :=
  decide (resType r = 5) && (s.lane (resIndex r / 2 ^ 24)).bad.any fun b => decide (b.1 = resIndex r % 2 ^ 24 ∧ b.2 = 0)

/-- Why REF_RETURN of a resource is refused (R786, R789). -/
def State.returnRefused (s : State) (r : Word) : Refuse :=
  if !s.resExists r then some (.badArg, 2)
  else if !s.isRetired r || s.onProbation r || s.underTest r then some (.badState, 0)
  else if s.factoryBad r then some (.badArg, 2)
  else none

/-- Place a retired resource on probation (R771). -/
def toProbation (s : State) (r : Word) : State :=
  let s := { s with ref := { s.ref with probation := s.ref.probation ++ [r] } }
  if resType r = 6 then
    let x := resIndex r
    postLaneState (s.setLane x { s.lane x with state := .probation }) x
  else s

/-- The master-table row of REF_RETURN. -/
def infoRefReturn : OpInfo := ⟨0x0B04, .adm, none, true, false, [1], [0]⟩

/-- What REF_RETURN does. -/
def meanRefReturn (c : Cmd) : Meaning where
  cond s := s.returnRefused (pw c 2)
  run s r :=
    requestTest (toProbation (accept s 0x0B04 c r) (pw c 2)) (pw c 2) true (some (0x0B04, c.stream, c.tag))

/-- REF_RETURN on a state. -/
def cmdRefReturn (c : Cmd) (s : State) : State := mailbox s infoRefReturn c (meanRefReturn c)

/-- REF_RETURN (R771). -/
def execRefReturn (c : Cmd) (s : State) : Host.Outcome State Fault Refusal := .next (cmdRefReturn c s)

/-- REF_TEST_CTL_GO (R786): a 1 written to the GO bit through the set view. -/
def execRefTestCtlGo (path : Path) (s : State) : Host.Outcome State Fault Refusal :=
  .next (accessWrite s path (0x10000 + Reg.addr ⟨.refTestCtl, 0, 0⟩) 1)

/-! ### The Referee's events (R751 to R755, R762, R771) -/

/-- REFEREE_TEST_START (R754): `type` counts the types of R751 from 0. -/
def execRefereeTestStart (type : Fin 8) (s : State) : Host.Outcome State Fault Refusal := .next (startTest s (type.val + 1))

/-- REFEREE_VERDICT (R753). -/
def execRefereeVerdict (type : Fin 8) (pass : Bool) (s : State) : Host.Outcome State Fault Refusal :=
  .next (if s.live then endTest s (type.val + 1) pass else s)

/-- SRAM_ECC (R762). -/
def execSramEcc (bank : Fin 96) (double : Bool) (s : State) : Host.Outcome State Fault Refusal :=
  .next (if s.live && s.resExists (resSram bank.val) then
      (if double then raiseFault s (resSram bank.val) 0x0301 else s.bumpWrap .refSramCorr 0 0 31 0 1)
    else s)

/-- The job of an engine whose instruction has been ended by force waits for the verdict, to repeat its step (R513, R751); a
measurement or a calibration starts anew. -/
def hangEngine (s : State) (e : Nat) : State :=
  match s.jobOn e with
  | none => s
  | some j =>
    let s := s.setJob { j with await := some (resEngine e) }
    let s := if e = 8 then preempt (iuDiscard s) 8 else s
    raiseFault s (resEngine e) 0x0403

/-- ENG_HANG (R752). -/
def execEngHang (e : Fin 9) (s : State) : Host.Outcome State Fault Refusal :=
  .next (if s.umpireRuns e.val then hangEngine s e.val else s)

/-- RESOURCE_REJOIN (R771). -/
def execResourceRejoin (res : Word) (s : State) : Host.Outcome State Fault Refusal :=
  .next (if s.live then reachBoundary s res else s)

/-- PARITY_SCRUB (R203): `upsets` are the bits that have flipped since the pass before. -/
def execParityScrub (upsets : List Upset) (s : State) : Host.Outcome State Fault Refusal :=
  .next (if s.live then scrubParity (s.each upsets flipBit) else s)

end Sys2Proof.Machine
end

