-- ==== Sys2Proof/Machine/CalendarCommands.lean ====
section
/-! DEFINITION. Calendar commands, group 0x0A, and the calendar's registers as commands (R791 to R814). -/

namespace Sys2Proof.Machine

/-! ### CAL_SET (R811 to R813) -/

/-- The master-table row of CAL_SET. -/
def infoCalSet : OpInfo := ⟨0x0A01, .adm, none, false, false, [3], [0xFFE0F000, 0xFFE0C0C0, 0xFFFF8000]⟩

/-- What CAL_SET does: the values are staged and committed, and the answer follows the commit. -/
def meanCalSet (c : Cmd) : Meaning where
  args _ :=
    orElse (refuseIf (!validDate (pw c 2)) .badArg 2) (refuseIf (!validTime (pw c 3)) .badArg 3)
  run s _ :=
    let s := ((s.wr .calSetDate 0 0 (pw c 2)).wr .calSetTime 0 0 (pw c 3)).wr .calSetSub 0 0 (pw c 4)
    let s := requestCommit s
    { s with cal := { s.cal with answer := some c } }

/-- CAL_SET on a state. -/
def cmdCalSet (c : Cmd) (s : State) : State := mailbox s infoCalSet c (meanCalSet c)

/-- CAL_SET (R813). -/
def execCalSet (c : Cmd) (s : State) : Host.Outcome State Fault Refusal := .next (cmdCalSet c s)

/-! ### CAL_GET (R811, R814) -/

/-- The master-table row of CAL_GET. -/
def infoCalGet : OpInfo := ⟨0x0A02, .any, some statesIAPH, false, true, [1], [0xFFFFFFF0]⟩

/-- The words of CAL_GET, of one AON tick. -/
def calGetWords (s : State) : List Word :=
  [s.shown .calStatus, s.shown .calDate, s.shown .calTime, s.shown .calSub, s.shown .calLinLo, s.shown .calLinHi,
    s.shown .calBtLo, s.shown .calBtHi]

/-- What CAL_GET does. -/
def meanCalGet (c : Cmd) : Meaning where
  run s r := done s 0x0A02 c (calGetWords s) r

/-- CAL_GET on a state. -/
def cmdCalGet (c : Cmd) (s : State) : State := mailbox s infoCalGet c (meanCalGet c)

/-- CAL_GET (R814). -/
def execCalGet (c : Cmd) (s : State) : Host.Outcome State Fault Refusal := .next (cmdCalGet c s)

/-! ### Registers and the date (R797, R802, R809) -/

/-- CAL_COMMIT (R797). -/
def execCalCommit (path : Path) (data : Word) (s : State) : Host.Outcome State Fault Refusal :=
  .next (accessWrite s path (Reg.addr ⟨.calCommit, 0, 0⟩) data)

/-- CALENDAR_READ_LATCH (R802): a read of CAL_LIN_LO, or of CAL_DATE. -/
def execCalendarReadLatch (path : Path) (lin : Bool) (s : State) : Host.Outcome State Fault Refusal :=
  .next (accessRead s path (if lin then Reg.addr ⟨.calLinLo, 0, 0⟩ else Reg.addr ⟨.calDate, 0, 0⟩))

/-- CALENDAR_DATE_CHANGE (R791, R809): Survo firmware recomputes IU_CORR for a date that an AON tick has changed. -/
def execCalendarDateChange (s : State) : Host.Outcome State Fault Refusal :=
  .next (if s.survoRuns ∧ s.cal.dateChanged then updateCorr { s with cal := { s.cal with dateChanged := false } } else s)

end Sys2Proof.Machine
end

