-- ==== Sys2Proof/Machine/PowerCommands.lean ====
section
/-! DEFINITION. Power and Distaff commands, group 0x0D, and their events (R81 to R124). -/

namespace Sys2Proof.Machine

/-! ### POWER_ENTER (R81 to R86, R122) -/

/-- The master-table row of POWER_ENTER. -/
def infoPowerEnter : OpInfo := ⟨0x0D01, .adm, none, false, false, [2], [0xFFFFFCFC, 0]⟩

/-- PWR_CTRL and PWR_WAKE_AT as POWER_ENTER sets them. -/
def setPowerCtrl (s : State) (c : Cmd) : State :=
  (s.wr .pwrCtrl 0 0 (pack [(pf c 2 8 8, 0), (pf c 2 9 9, 1)])).wr .pwrWakeAt 0 0 (pw c 3)

/-- What POWER_ENTER does: an entry that R82 refuses changes nothing but PWR_STATUS.REFUSED; with a TARGET that is no power state the
conditions of R82 that name no target are judged before it (R318). -/
def meanPowerEnter (c : Cmd) : Meaning where
  cond s := refuseIf ((setPowerCtrl s c).entryBlocked ((entryTarget (pf c 2 1 0)).getD .doze)) .badState 0
  denied s := { s with power := { s.power with refused := true } }
  args _ := refuseIf (entryTarget (pf c 2 1 0)).isNone .badArg 2
  run s r :=
    match entryTarget (pf c 2 1 0) with
    | none => s
    | some t => done (requestEntry (setPowerCtrl s c) t).2 0x0D01 c [] r

/-- POWER_ENTER on a state. -/
def cmdPowerEnter (c : Cmd) (s : State) : State := mailbox s infoPowerEnter c (meanPowerEnter c)

/-- POWER_ENTER (R82). -/
def execPowerEnter (c : Cmd) (s : State) : Host.Outcome State Fault Refusal := .next (cmdPowerEnter c s)

/-- PWR_ENTER_WRITE (R81). -/
def execPwrEnterWrite (path : Path) (data : Word) (s : State) : Host.Outcome State Fault Refusal :=
  .next (accessWrite s path (Reg.addr ⟨.pwrEnter, 0, 0⟩) data)

/-- POWER_ENTRY_START (R84). -/
def execPowerEntryStart (s : State) : Host.Outcome State Fault Refusal := .next (startEntry s)

/-! ### POWER_QUERY (R120, R122) -/

/-- The master-table row of POWER_QUERY. -/
def infoPowerQuery : OpInfo := ⟨0x0D02, .any, some statesIAPH, false, false, [0], []⟩

/-- What POWER_QUERY does: it answers the live values (log entry 64). -/
def meanPowerQuery (c : Cmd) : Meaning where
  run s r := done s 0x0D02 c [s.shown .pwrStatus, s.shown .pwrWakeBtLo, s.shown .pwrWakeBtHi, s.shown .pwrWakeAtick] r

/-- POWER_QUERY on a state. -/
def cmdPowerQuery (c : Cmd) (s : State) : State := mailbox s infoPowerQuery c (meanPowerQuery c)

/-- POWER_QUERY (R122). -/
def execPowerQuery (c : Cmd) (s : State) : Host.Outcome State Fault Refusal := .next (cmdPowerQuery c s)

/-! ### DST_SET_RULES, DST_SET_INPUTS and DST_COUNTERS (R122) -/

/-- FIRST and COUNT of DST_SET_RULES lie in their ranges. -/
def ruleRangeOk (c : Cmd) : Bool := decide (1 ≤ pf c 2 8 4 ∧ pf c 2 8 4 ≤ 16 ∧ pf c 2 3 0 + pf c 2 8 4 ≤ 16)

/-- The master-table row of DST_SET_RULES: LEN is 1 + COUNT. -/
def infoDstSetRules (c : Cmd) : OpInfo :=
  ⟨0x0D10, .adm, none, false, false, if ruleRangeOk c then [1 + pf c 2 8 4] else (List.range 16).map (· + 2),
    0xFFFFFE00 :: List.replicate 16 0x3F⟩

/-- What DST_SET_RULES does; an ARM action names a bench of the member (R6). -/
def meanDstSetRules (c : Cmd) : Meaning where
  args s := orElse (refuseIf (!ruleRangeOk c) .badArg 2) <|
    ((List.range (pf c 2 8 4)).find? fun j =>
      bitB (pw c (3 + j)) 13 && decide (s.member.benches ≤ pf c (3 + j) 12 10)).map fun j => (.badArg, 3 + j)
  run s r :=
    done (s.each (List.range (pf c 2 8 4)) fun s j => s.wr .dstRule (pf c 2 3 0 + j) 0 (pw c (3 + j))) 0x0D10 c [] r

/-- DST_SET_RULES on a state. -/
def cmdDstSetRules (c : Cmd) (s : State) : State := mailbox s (infoDstSetRules c) c (meanDstSetRules c)

/-- DST_SET_RULES (R122). -/
def execDstSetRules (c : Cmd) (s : State) : Host.Outcome State Fault Refusal := .next (cmdDstSetRules c s)

/-- The master-table row of DST_SET_INPUTS. -/
def infoDstSetInputs : OpInfo :=
  ⟨0x0D11, .adm, none, false, false, [10],
    [0xFFFFFFF8, 0, 0x88888888, 0x88888888, 0x88888888, 0x88888888, 0xFF000000, 0xFF000000, 0xFF000000, 0xFF000000]⟩

/-- What DST_SET_INPUTS does. -/
def meanDstSetInputs (c : Cmd) : Meaning where
  run s r :=
    let s := (s.wr .dstCtrl 0 0 (pw c 2)).wr .dstThr 0 0 (pw c 3)
    let s := s.each (List.range 4) fun s j => s.wr .dstFilt j 0 (pw c (4 + j))
    done (s.each (List.range 4) fun s j => s.wr .dstLim j 0 (pw c (8 + j))) 0x0D11 c [] r

/-- DST_SET_INPUTS on a state. -/
def cmdDstSetInputs (c : Cmd) (s : State) : State := mailbox s infoDstSetInputs c (meanDstSetInputs c)

/-- DST_SET_INPUTS (R122). -/
def execDstSetInputs (c : Cmd) (s : State) : Host.Outcome State Fault Refusal := .next (cmdDstSetInputs c s)

/-- The master-table row of DST_COUNTERS. -/
def infoDstCounters : OpInfo :=
  ⟨0x0D13, .adm, none, false, false, [5], [0xFFFFFFF0, 0xFF000000, 0xFF000000, 0xFF000000, 0xFF000000]⟩

/-- What DST_COUNTERS does. -/
def meanDstCounters (c : Cmd) : Meaning where
  run s r :=
    let s := s.each (List.range 4) fun s k => if bitB (pw c 2) k then writeCounter s k (pw c (3 + k)) else s
    done s 0x0D13 c ((List.range 4).map fun k => s.rd .dstCnt k) r

/-- DST_COUNTERS on a state. -/
def cmdDstCounters (c : Cmd) (s : State) : State := mailbox s infoDstCounters c (meanDstCounters c)

/-- DST_COUNTERS (R122). -/
def execDstCounters (c : Cmd) (s : State) : Host.Outcome State Fault Refusal := .next (cmdDstCounters c s)

/-! ### DST_READ_LOG (R107, R122 to R124) -/

/-- A student of bench `n` sees the entry: a marker, or a RULE entry of a channel in a pod of the bench (R123; log entry 65). -/
def logSeen (s : State) (n : Nat) (e : DWord) : Bool :=
  decide (e.toNat / 2 ^ 52 % 16 ≠ 0) || s.owns n (e.toNat / 2 ^ 44 % 16 / 2)

/-- Entries of the ring from an index on, at most `k`, and the next index; `fuel` bounds those looked at. -/
def logFrom (s : State) (keep : DWord → Bool) : Nat → Nat → Nat → List DWord × Nat
  | 0, i, _ => ([], i)
  | fuel + 1, i, k =>
    if k = 0 ∨ i = s.distaff.wptr then ([], i)
    else
      let e := s.distaff.log.get (fun _ => 0) (i % 4096)
      let r := logFrom s keep fuel ((i + 1) % 8192) (if keep e then k - 1 else k)
      (if keep e then e :: r.1 else r.1, r.2)

/-- START of DST_READ_LOG. -/
def readStart (c : Cmd) : Nat := pf c 2 12 0

/-- What DST_READ_LOG returns, and the next index. -/
def distaffEntries (s : State) (c : Cmd) : List DWord × Nat :=
  logFrom s (fun e => isAdmin c || logSeen s (cmdBench c) e) ((s.distaff.wptr + 8192 - readStart c) % 8192) (readStart c) 6

/-- The master-table row of DST_READ_LOG. -/
def infoDstReadLog : OpInfo := ⟨0x0D12, .any, some statesIAPH, false, false, [1], [0xFFFEE000]⟩

/-- What DST_READ_LOG does. -/
def meanDstReadLog (c : Cmd) : Meaning where
  perm _ := refuseIf (bitB (pw c 2) 16 && !isAdmin c) .noPermission 0
  args s := refuseIf (decide (4096 < (s.distaff.wptr + 8192 - readStart c) % 8192)) .badArg 2
  run s r :=
    let e := distaffEntries s c
    let s := if bitB (pw c 2) 16 then writeRptr s e.2 else s
    done s 0x0D12 c
      ([pack [(e.1.length, 0), (e.2, 16)], s.rd .dstLogLost] ++ e.1.flatMap fun d => [DWord.lo d, DWord.hi d]) r

/-- DST_READ_LOG on a state. -/
def cmdDstReadLog (c : Cmd) (s : State) : State := mailbox s infoDstReadLog c (meanDstReadLog c)

/-- DST_READ_LOG (R123). -/
def execDstReadLog (c : Cmd) (s : State) : Host.Outcome State Fault Refusal := .next (cmdDstReadLog c s)

/-- DST_READ_LOG with CONSUME (R124). -/
def execDstReadLogConsume (c : Cmd) (s : State) : Host.Outcome State Fault Refusal := .next (cmdDstReadLog c s)

/-- DST_LOG_RPTR_WRITE (R107). -/
def execDstLogRptrWrite (path : Path) (data : Word) (s : State) : Host.Outcome State Fault Refusal :=
  .next (accessWrite s path (Reg.addr ⟨.dstLogRptr, 0, 0⟩) data)

/-! ### Distaff and the AON tick (R94, R97) -/

/-- Distaff watches: every power state but OFF (R80). -/
def State.distaffWatches (s : State) : Bool := decide (s.power.state ≠ .off)

/-- DISTAFF_EDGE_LATCH (R94). -/
def execDistaffEdgeLatch (w : Fin 16) (falling : Bool) (s : State) : Host.Outcome State Fault Refusal :=
  .next (if s.distaffWatches then
      { s with distaff := if falling then { s.distaff with fall := s.distaff.fall ||| BitVec.ofNat 16 (2 ^ w.val) }
        else { s.distaff with rise := s.distaff.rise ||| BitVec.ofNat 16 (2 ^ w.val) } }
    else s)

/-- DISTAFF_TICK (R97): one AON tick, with the voltages at the watched balls in mV at it. -/
def execDistaffTick (mv : List Int) (s : State) : Host.Outcome State Fault Refusal := .next (partResetDue (romDue (aonTick s mv)))

/-! ### Wakes (R87, R90) -/

/-- WAKE_TIMER_MATCH (R87). -/
def execWakeTimerMatch (s : State) : Host.Outcome State Fault Refusal :=
  .next (if bitB (s.rd .pwrCtrl) 1 ∧ s.power.atick % 2 ^ 32 = (s.rd .pwrWakeAt).toNat then wakeFor s .timer 0 .awake else s)

/-- WAKE_COMPLETE (R90). -/
def execWakeComplete (s : State) : Host.Outcome State Fault Refusal := .next (if s.power.fastReset then s else finishWake s)

end Sys2Proof.Machine
end

