-- ==== Sys2Proof/Machine/RegisterCommands.lean ====
section
/-! DEFINITION. Accesses of the register window and the events of the hardware queues (R164 to R261). -/

namespace Sys2Proof.Machine

/-! ### Register accesses (R164 to R192) -/

/-- REGISTER_WRITE (R172). -/
def execRegisterWrite (path : Path) (addr : BitVec 16) (data : Word) (s : State) : Host.Outcome State Fault Refusal :=
  .next (accessWrite s path addr.toNat data)

/-- The address lies in the AON domain, in a view that R164 names (R191). -/
def isAon (addr : Nat) : Bool := decide (viewOf addr ≤ 4 ∧ 0x1000 ≤ addr % 0x10000 ∧ addr % 0x10000 < 0x2000)

/-- CROSS_DOMAIN_ACCESS (R191): the access, complete after its stall; `data` is the data of a write. -/
def execCrossDomainAccess (path : Path) (addr : BitVec 20) (data : Option Word) (s : State) : Host.Outcome State Fault Refusal :=
  .next (match isAon addr.toNat, data with
    | true, some d => accessWrite s path addr.toNat d
    | true, none => accessRead s path addr.toNat
    | false, _ => s)

/-- SET_ALIAS_WRITE (R167, R168). -/
def execSetAliasWrite (path : Path) (addr : BitVec 16) (data : Word) (s : State) : Host.Outcome State Fault Refusal :=
  .next (accessWrite s path (0x10000 + addr.toNat) data)

/-- CLEAR_ALIAS_WRITE (R167). -/
def execClearAliasWrite (path : Path) (addr : BitVec 16) (data : Word) (s : State) : Host.Outcome State Fault Refusal :=
  .next (accessWrite s path (0x20000 + addr.toNat) data)

/-- TOGGLE_ALIAS_WRITE (R167). -/
def execToggleAliasWrite (path : Path) (addr : BitVec 16) (data : Word) (s : State) : Host.Outcome State Fault Refusal :=
  .next (accessWrite s path (0x30000 + addr.toNat) data)

/-- ACCUMULATOR_LO_READ (R179). -/
def execAccumulatorLoRead (path : Path) (addr : BitVec 16) (s : State) : Host.Outcome State Fault Refusal :=
  .next (accessRead s path addr.toNat)

/-- ACCUMULATOR_LO_WRITE (R180). -/
def execAccumulatorLoWrite (path : Path) (addr : BitVec 16) (data : Word) (s : State) : Host.Outcome State Fault Refusal :=
  .next (accessWrite s path addr.toNat data)

/-- ACCUMULATOR_HI_WRITE (R180). -/
def execAccumulatorHiWrite (path : Path) (addr : BitVec 16) (data : Word) (s : State) : Host.Outcome State Fault Refusal :=
  .next (accessWrite s path addr.toNat data)

/-! ### Queue registers (R221, R239, R242, R243, R247) -/

/-- The address of Q_CTL of a queue, or of an admin chain. -/
def queueBase (q : Nat) : Nat := if q < 64 then 0x6000 + q * 0x40 else 0x100 + (q - 64) * 0x40

/-- Q_WR_LO (R239). -/
def execQWrLo (path : Path) (q : Fin 66) (data : Word) (s : State) : Host.Outcome State Fault Refusal :=
  .next (accessWrite s path (queueBase q.val + 0x08) data)

/-- Q_WR_HI (R239). -/
def execQWrHi (path : Path) (q : Fin 66) (data : Word) (s : State) : Host.Outcome State Fault Refusal :=
  .next (accessWrite s path (queueBase q.val + 0x0C) data)

/-- Q_WR_HIM (R239, R242). -/
def execQWrHim (path : Path) (q : Fin 66) (data : Word) (s : State) : Host.Outcome State Fault Refusal :=
  .next (accessWrite s path (queueBase q.val + 0x10) data)

/-- Q_RD_LO (R221, R224). -/
def execQRdLo (path : Path) (q : Fin 66) (s : State) : Host.Outcome State Fault Refusal :=
  .next (accessRead s path (queueBase q.val + 0x14))

/-- QUEUE_FLUSH (R243): the write leaves HOLD as it is. -/
def execQueueFlush (path : Path) (q : Fin 66) (s : State) : Host.Outcome State Fault Refusal :=
  .next (accessWrite s path (queueBase q.val) (pack [(bN (s.qHold q.val), 0), (0xF1, 24)]))

/-! ### Queue events (R220, R239, R240, R242) -/

/-- A push that waited has completed: on the two-wire bus its byte is acknowledged and the pointer advances (R240, R698). -/
def endStretch (s : State) : State :=
  match s.tw.stretched with
  | none => s
  | some _ => { s with tw := { s.tw with stretched := none, ack := true, pointer := nextPointer s.tw.pointer } }

/-- A path has a push that waits on a queue. -/
def State.pathWaits (s : State) (p : Path) (q : Nat) : Bool := (s.queue q).waiting.any fun w => decide (w.1 = .path p)

/-- A waiting push of a queue completes if it can; a USB vendor request that was NAKed until then goes on (R239, R746). -/
def pushCompletes (s : State) (q : Nat) : State :=
  let t := completeHost s q
  let t := if s.pathWaits .twoWire q && !t.pathWaits .twoWire q then endStretch t else t
  if s.pathWaits .usb q && !t.pathWaits .usb q then resumeRequest t else t

/-- QUEUE_PUSH_COMPLETE (R239). -/
def execQueuePushComplete (q : Fin 68) (s : State) : Host.Outcome State Fault Refusal :=
  .next (if s.live then pushCompletes s q.val else s)

/-- WLOCK_TIMEOUT (R242). -/
def execWlockTimeout (q : Fin 66) (s : State) : Host.Outcome State Fault Refusal :=
  .next (if s.live then s.setQueue q.val { s.queue q.val with wlock := none } else s)

/-- The words in the USB admin OUT buffer, which lies in Survo SRAM, join the words of their stream, unless a response of it is held
(R250, R271, R280). -/
def collectAdmin (s : State) : State :=
  if s.survoRuns ∧ (s.stream .adminUsb).held = [] then
    let ws := (s.queue 66).words
    let s := s.setQueue 66 { s.queue 66 with stages := [] }
    s.setStream .adminUsb ((s.stream .adminUsb).collect ws)
  else s

/-- QUEUE_WORD_FALL (R220): HCLK cycles pass in a queue.  The USB admin buffers hold no stage registers, so an upset concerns
only the queues and the admin chains (R219, R250). -/
def execQueueWordFall (q : Fin 68) (fall : QueueFall) (s : State) : Host.Outcome State Fault Refusal :=
  .next (if !s.live then s
    else if q.val < 66 then fallQueue s q.val fall.cycles (fall.upset.map fun u => (u.1, u.2.val))
    else if q.val = 66 then collectAdmin s else s)

end Sys2Proof.Machine
end

