-- ==== Sys2Proof/Machine/MailboxCommands.lean ====
section
/-! DEFINITION. What Survo firmware does with a stream beside taking whole commands: frames that do not arrive, poisoned frames,
deadlines and backlogs (R232, R268, R280 to R284, R293, R294, R308, R309, R317). -/

namespace Sys2Proof.Machine

/-! ### Frames as collected (R263 to R267) -/

/-- Frame `f` of a command repeats words 0 and 1 of the first, with FRAME `f` (R265, R267). -/
def frameFits (ws : List Word) (f : Nat) : Bool :=
  wordAt ws (16 * f) == wordAt ws 0 && wordAt ws (16 * f + 1) == setFld (wordAt ws 1) 15 12 f

/-- The opcode and the command that whole frames spell; `via` is the transport they came over (R263 to R266). -/
def frameCmd (st : Stream) (via : Transport) (qs : List QWord) : BitVec 16 × Cmd :=
  let ws := halfWords qs
  let w0 := wordAt ws 0
  let w1 := wordAt ws 1
  let frames := frameCount (fld w1 11 4)
  let payload := (List.range frames).flatMap fun f => (List.range 14).map fun i => wordAt ws (16 * f + 2 + i)
  (BitVec.ofNat 16 (fld w0 15 0),
    { stream := st, via := via, tag := BitVec.ofNat 8 (fld w0 23 16), resume := bitB w0 24, fence := bitB w0 25,
      rsvd := BitVec.ofNat 6 (fld w0 31 26), bench := BitVec.ofNat 4 (fld w1 3 0), deadline := BitVec.ofNat 16 (fld w1 31 16),
      payload := payload.take (fld w1 11 4), seqOk := (List.range frames).all (frameFits ws) })

/-- The transport that a stream's answers count under. -/
def State.streamTransport (s : State) : Stream → Transport
  | .bench n => (s.sess n.val).transport
  | .adminUsb => .usb
  | .adminTw => .twoWire

/-- Survo firmware may deal with the stream's next frame: it runs, no response is held and no command waits (R271, R280). -/
def State.streamFree (s : State) (st : Stream) : Bool :=
  s.survoRuns && (s.stream st).held.isEmpty && (s.stream st).fence.isNone && !s.unanswered st

/-- Discard `k` of the words that Survo firmware has collected. -/
def dropWords (s : State) (st : Stream) (k : Nat) : State :=
  s.setStream st ((s.stream st).discard k)

/-- The command that begins with the words collected. -/
def State.headCmd (s : State) (st : Stream) : BitVec 16 × Cmd := frameCmd st (s.streamTransport st) (s.stream st).rx

/-- The next frame of a command has not arrived in time (R268): what has arrived is discarded. -/
def frameTimeout (s : State) (st : Stream) : State :=
  let rx := (s.stream st).rx
  if s.streamFree st ∧ 8 ≤ rx.length ∧ rx.length < cmdSpan rx ∧ (rx.head?.any fun w => decide (w.tag = .mark)) then
    let c := s.headCmd st
    respond (dropWords s st rx.length) c.1 c.2 .timeout 0 [] s.isReplaying
  else s

/-- COMMAND_FRAME_TIMEOUT (R268). -/
def execCommandFrameTimeout (st : Stream) (s : State) : Host.Outcome State Fault Refusal := .next (frameTimeout s st)

/-! ### Poisoned frames (R232, R308, R309) -/

/-- The words before the next MARK. -/
def beforeMark (ws : List QWord) : List QWord := ws.takeWhile fun w => decide (w.tag ≠ .mark)

/-- Words are discarded without a response: CMD_DISCARDED goes to the bench (R309); an admin stream has none. -/
def discardUnnamed (s : State) (st : Stream) (k : Nat) : State :=
  let s := dropWords s st k
  match st with
  | .bench n => postEvent s n.val 0x8103 (min k 0xFFFFF)
  | .adminUsb => s
  | .adminTw => s

/-- The words of the command that begins the words collected, up to one tagged MARK where no frame of it begins: the frame that
stands there is cut short (R225, R242). -/
def commandWords (ws : List QWord) : List QWord :=
  let all := ws.take (cmdSpan ws)
  all.take (((List.range all.length).find? fun i =>
    decide (i % 8 ≠ 0) && (all[i]?).any fun w => decide (w.tag = .mark)).getD all.length)

/-- Survo firmware meets the words collected: words that begin no frame go up to the next MARK (R232); a command with a POISON word
goes whole, once its frames are there, and is answered FAULT_LET with the code of QUEUE_PARITY (R232, R308); a frame cut short by the next
MARK goes without a report (R242), and a command whose later frame is cut short is answered as one whose frame has not come
(R268). -/
def discardPoisoned (s : State) (st : Stream) : State :=
  if !s.streamFree st then s
  else match (s.stream st).rx with
    | [] => s
    | w :: rest =>
      if w.tag ≠ .mark then discardUnnamed s st (1 + (beforeMark rest).length)
      else
        let mine := commandWords (w :: rest)
        let cut := decide (mine.length < cmdSpan (w :: rest)) && decide (mine.length < rest.length + 1)
        let whole := decide (mine.length = cmdSpan (w :: rest))
        let c := s.headCmd st
        if (cut || whole) && mine.any fun x => decide (x.tag = .poison) then
          respond (dropWords s st mine.length) c.1 c.2 .faultLet 0x0201 [] s.isReplaying
        else if !cut then s
        else if mine.length < 8 then dropWords s st mine.length
        else respond (dropWords s st mine.length) c.1 c.2 .timeout 0 [] s.isReplaying

/-- CMD_DISCARDED (R309). -/
def execCmdDiscarded (st : Stream) (s : State) : Host.Outcome State Fault Refusal := .next (discardPoisoned s st)

/-! ### Deadlines (R293, R294, R305, R317) -/

/-- The deadline of the opcode is "—" (R313, R317). -/
def noDeadline (op : Nat) : Bool :=
  [0x0102, 0x0103, 0x0110, 0x0604, 0x0802, 0x0C02, 0x0E03].contains op

/-- DETAIL of TIMEOUT: the elapsed ms, at least 1 and saturating (R291). -/
def elapsedDetail (elapsed : Nat) : Nat := min 0xFFFF (max 1 elapsed)

/-- A synchronous command that waits (R278, R338, R435, R813) is answered TIMEOUT: one that waits for its fence, TRG_FORCE, CAL_SET, whose
commit has been written and takes effect all the same, or POD_ASSIGN, whose values stay pending. -/
def waitingTimeout (s : State) (st : Stream) (tag : BitVec 8) (d : Nat) : Option State :=
  match (s.stream st).fence with
  | some (op, c) =>
    if c.tag = tag ∧ !noDeadline op.toNat then some (respond (takeCommand s op c) op c .timeout d [] (isReplayTake s op c)) else none
  | none =>
    let isIt (c : Option Cmd) : Option Cmd := c.filter fun c => decide (c.stream = st) && c.tag == tag
    match isIt s.cal.answer, isIt s.fw.assign with
    | some c, _ => some (respond { s with cal := { s.cal with answer := none } } 0x0A01 c .timeout d [] s.isReplaying)
    | none, some c => some (respond { s with fw := { s.fw with assign := none } } 0x0111 c .timeout d [] s.isReplaying)
    | none, none =>
      ((List.range 8).findSome? fun n => (isIt (s.seqr n).force).map fun c => (n, c)).map fun x =>
        respond (s.setSeqr x.1 { s.seqr x.1 with force := none }) 0x0304 x.2 .timeout d [] s.isReplaying

/-- The containers of a command that have not been sent are discarded, its staging and its reads with them. -/
def dropData (s : State) (st : Stream) (tag : BitVec 8) : State :=
  match st with
  | .bench n =>
    let e := s.endpoint (n.val + 1)
    let mine := e.data.filter fun d => d.tag == tag
    let s := s.setEndpoint (n.val + 1) { e with data := e.data.filter fun d => d.tag != tag }
    let s := { s with storage := { s.storage with
      reads := s.storage.reads.filter fun r => !(r.bench == n.val && r.tag == tag) } }
    freeStaging s n.val (mine.foldl (fun k d => k + d.staging) 0)
  | .adminUsb => s
  | .adminTw => s

/-- The test of a command, while it waits. -/
def State.waitingTest (s : State) (st : Stream) (tag : BitVec 8) : Bool :=
  s.ref.waiting.any fun t => match t.by_ with
    | some (_, x, g) => decide (x = st) && g == tag
    | none => false

/-- The test of a command is taken from those that wait. -/
def dropTest (s : State) (st : Stream) (tag : BitVec 8) : State :=
  { s with ref := { s.ref with waiting := s.ref.waiting.filter fun t => match t.by_ with
      | some (_, x, g) => !(decide (x = st) && g == tag)
      | none => true } }

/-- The test of a command runs as its deadline expires: the command completes TIMEOUT with the verdict (R294, R790). -/
def lateTest (s : State) (st : Stream) (tag : BitVec 8) (d : Nat) : State :=
  { s with ref := { s.ref with running := s.ref.running.map fun t => match t.by_ with
      | some (_, x, g) => if x = st ∧ g = tag then { t with late := some d } else t
      | none => t } }

/-- An ACCEPTED command is stopped at its next indivisible step (R294): an engine job at the end of its step, a command that sends DATA
before its next container, a scrub after its lane, a transfer or a test before it starts, a commit before its step 3 (R362); a test
that runs, one indivisible step, goes to its verdict (R790). -/
def acceptedTimeout (s : State) (st : Stream) (a : Accepted) (d : Nat) : State :=
  let expire (s : State) : State := completeCode s st a.op a.tag Status.timeout.code d
  if noDeadline a.op.toNat then s
  else match s.jobOf st a.tag with
    | some j => tellStop s j Status.timeout.code d
    | none =>
      match a.op.toNat with
      | 0x0605 => expire { s with storage := { s.storage with scrubBy := none } }
      | 0x0903 =>
        expire { s with tw := { s.tw with xfers := s.tw.xfers.filter fun x => !(decide (x.1.stream = st) && x.1.tag == a.tag) } }
      | 0x0B03 | 0x0B04 => if s.waitingTest st a.tag then expire (dropTest s st a.tag) else lateTest s st a.tag d
      | 0x0E22 =>
        match s.fw.commit with
        | some g => if g.writing then s else expire { s with fw := { s.fw with commit := none, staging := none } }
        | none => s
      | _ => expire (dropData s st a.tag)

/-- The deadline of a command expires while later frames of it are awaited (R293): what has arrived is discarded. -/
def framesTimeout (s : State) (st : Stream) (tag : BitVec 8) (d : Nat) : Option State :=
  let rx := (s.stream st).rx
  let c := s.headCmd st
  if s.streamFree st ∧ rx.length < cmdSpan rx ∧ (rx.head?.any fun w => decide (w.tag = .mark)) ∧ c.2.tag = tag ∧ !noDeadline c.1.toNat then
    some (respond (dropWords s st rx.length) c.1 c.2 .timeout d [] s.isReplaying)
  else none

/-- A command's deadline expires (R294). -/
def deadlineOver (s : State) (st : Stream) (tag : BitVec 8) (elapsed : Nat) : State :=
  let d := elapsedDetail elapsed
  if !s.survoRuns then s
  else match (framesTimeout s st tag d).or (waitingTimeout s st tag d) with
    | some t => t
    | none =>
      match (s.stream st).outstanding.find? fun a => a.tag == tag with
      | some a => acceptedTimeout s st a d
      | none => s

/-- COMMAND_DEADLINE (R294). -/
def execCommandDeadline (st : Stream) (tag : BitVec 8) (elapsed : Nat) (s : State) : Host.Outcome State Fault Refusal :=
  .next (deadlineOver s st tag elapsed)

/-! ### Backlogs (R249, R280 to R284) -/

/-- RESPONSE_BACKLOG_WRITE (R280): held words first, then an event frame of the two-wire admin stream (R249, R284). -/
def execResponseBacklogWrite (st : Stream) (s : State) : Host.Outcome State Fault Refusal :=
  .next (if s.survoRuns then
      let t := pumpResponse s st
      match st with
      | .adminTw => writeAdminFrame t
      | .adminUsb => t
      | .bench _ => t
    else s)

/-- EVENT_BACKLOG_WRITE (R281). -/
def execEventBacklogWrite (n : Fin 8) (s : State) : Host.Outcome State Fault Refusal := .next (writeBacklog s n.val)

end Sys2Proof.Machine
end

