-- ==== Sys2Proof/Machine/Replay.lean ====
section
/-! DEFINITION. Mboron's log: snapshot, merge, log pages, and the reading back of a log (R815 to R825, R836, R840 to R842,
R847). -/

namespace Sys2Proof.Machine

/-! ### The log on the lanes (R815, R816, R822, R552) -/

/-- The 16 bytes of an entry (R815). -/
def LogEntry.bytes (e : LogEntry) : List Byte := bytesOfDWord e.head ++ bytesOfDWord e.body

/-- The PAD entry (R816). -/
def LogEntry.pad : LogEntry := ⟨0, 0, 0, 0⟩

/-- The entries that the bytes of a page spell; `fuel` bounds them. -/
def entriesOfBytes : Nat → List Byte → List LogEntry
  | 0, _ => []
  | fuel + 1, bs =>
    if bs.length < 16 then []
    else logEntryOf (BitVec.ofNat 64 (leNat (bs.take 8))) (BitVec.ofNat 64 (leNat ((bs.drop 8).take 8))) ::
      entriesOfBytes fuel (bs.drop 16)

/-- The pages of a log in the order of their SEQ, each with its lane and key; the pages of a hank that a relocation is filling are
copies. -/
def State.logPlaces (s : State) (num : Nat) : List (Nat × Nat × NandPage) :=
  let of (x : Nat) : List (Nat × Nat × NandPage) :=
    let l := s.lane x
    (l.pages.filter fun e => decide (e.2.type = 4 ∧ e.2.session = num ∧ some (e.1 / 4096) ≠ l.moving.map Prod.snd)).map
      fun e => (x, e.1, e.2)
  sortBy (fun p => p.2.2.seq) (of 0 ++ of 1)

/-- The pages of a log in the order of their SEQ. -/
def State.logPages (s : State) (num : Nat) : List NandPage := (s.logPlaces num).map fun p => p.2.2

/-- The lane reader reads the pages of a log (R570, R571, R836). -/
def readLogPages (s : State) (num : Nat) : State := s.each (s.logPlaces num) fun s p => readPage s p.1 p.2.1

/-- The entries of a log up to the first page that is missing or uncorrectable, and whether an uncorrectable one ends it (R836). -/
def readPages : Nat → List NandPage → List LogEntry × Bool
  | _, [] => ([], false)
  | k, p :: rest =>
    if p.seq ≠ k then ([], false)
    else if p.lost || pageBad p.words then ([], true)
    else
      let r := readPages (k + 1) rest
      ((entriesOfBytes (p.data.length / 16) p.asRead).filter (fun e => decide (e.type ≠ 0)) ++ r.1, r.2)

/-- A log as the lane reader gives it. -/
def State.readLog (s : State) (num : Nat) : List LogEntry × Bool := readPages 0 (s.logPages num)

/-- The lanes named by RPL_CFG.LANES that serve. -/
def State.logLanes (s : State) : List Nat :=
  (List.range 2).filter fun x => (fld (s.rd .rplCfg) 9 8).testBit x && s.laneServes x

/-- A place for the next log page: the next page of the open hank, or the first of a new one. -/
def logSlot (s : State) : Option (Nat × Nat × State) :=
  let fresh : Option (Nat × Nat × State) := s.logLanes.findSome? fun x => (drawHank s x (.log s.rpl.log)).map fun r =>
    (x, r.1 * 4096, { r.2 with rpl := { r.2.rpl with openHank := some (x, r.1) } })
  match s.rpl.openHank with
  | none => fresh
  | some (x, h) =>
    let k := (s.lane x).hank h
    if s.logLanes.contains x ∧ k.pages < (s.lane x).capacity h ∧ !k.closed then some (x, h * 4096 + k.pages, s)
    else fresh

/-- Program one log page with the first of the staged entries, filled up with PAD (R816, R822, R824); `none` where no lane takes it. -/
def programLog (s : State) : Option State :=
  (logSlot s).map fun r =>
    let x := r.1
    let s := r.2.2
    let l := s.lane x
    let n := l.pageBytes / 16
    let page : NandPage := {
      type := 4, bench := s.homeBench, fill := l.pageBytes, seq := s.rpl.pages, session := s.rpl.log,
      data := (padTo n LogEntry.pad (s.rpl.staged.take n)).flatMap LogEntry.bytes }
    let h := r.2.1 / 4096
    let l := l.setHank h { l.hank h with pages := (l.hank h).pages + 1 }
    let s := s.setLane x { l with pages := l.pages.put blankPage r.2.1 page }
    { s with rpl := { s.rpl with staged := s.rpl.staged.drop n, pages := s.rpl.pages + 1 } }

/-- Program pages while a whole page is staged, or, at the end of a log, while anything is; `fuel` bounds them. -/
def programAll (s : State) (all : Bool) : Nat → State
  | 0 => s
  | fuel + 1 =>
    let size := match (logSlot s) with
      | some (x, _, _) => (s.lane x).pageBytes / 16
      | none => 0
    if (if all then s.rpl.staged = [] else s.rpl.staged.length < size) then s
    else match programLog s with
      | some t => programAll t all fuel
      | none => s

/-! ### The merge (R822) -/

/-- The entry at the head of bench `n`'s RPL queue. -/
def State.rplHead (s : State) (n : Nat) : Option LogEntry :=
  match s.readable (n * 8 + 7), (s.queue (n * 8 + 7)).words with
  | true, h :: b :: _ => some (logEntryOf h.data b.data)
  | _, _ => none

/-- The RPL queue whose head has the lowest TICK, the lowest index among equals. -/
def State.nextRpl (s : State) : Option Nat :=
  let heads := (List.range 8).filterMap fun n => (s.rplHead n).map fun e => (e.tick, n)
  (sortBy Prod.fst heads).head?.map Prod.snd

/-- Stage one entry from the RPL queue of bench `n`. -/
def stageFrom (s : State) (n : Nat) : State :=
  let r := deliverMany s (n * 8 + 7) 2
  let w (i : Nat) : DWord := (r.1.getD i QWord.idle).data
  { r.2 with rpl := { r.2.rpl with staged := r.2.rpl.staged ++ [logEntryOf (w 0) (w 1)] } }

/-- Stage entries in TICK order while `room` has place for them. -/
def stageEntries (s : State) : Nat → State
  | 0 => s
  | room + 1 =>
    match s.nextRpl with
    | none => s
    | some n => stageEntries (stageFrom s n) room

/-- Move the recorder buffer into the RPL queues while they have room (R823); `fuel` bounds the entries. -/
def refillQueues (s : State) : Nat → State
  | 0 => s
  | fuel + 1 =>
    match s.rpl.buffer with
    | [] => s
    | (b, e) :: rest =>
      if (s.queue (b * 8 + 7)).roomFor 2 then
        refillQueues (pushRecord { s with rpl := { s.rpl with buffer := rest } } (b * 8 + 7) .unit [e.head, e.body]) fuel
      else s

/-- Entries that the staging granules hold: 1,024 in each (R822). -/
def State.stageRoom (s : State) : Nat := s.rplGranules * 1024 - s.rpl.staged.length

/-- Every entry of the RPL queues and the recorder buffer is staged (R842); `fuel` bounds the rounds. -/
def drainQueues (s : State) : Nat → State
  | 0 => s
  | fuel + 1 =>
    let s := s.each (List.range 8) fun s n => settleQueue s (n * 8 + 7)
    drainQueues (refillQueues (stageEntries s 64) 256) fuel

/-! ### Recording starts and ends (R818, R819, R825, R840 to R842) -/

/-- Every instance of a row. -/
def RegName.instances (n : RegName) : List Reg :=
  match n.row.dims with
  | [] => [⟨n, 0, 0⟩]
  | [d] => (List.range d.1).map fun i => ⟨n, i, 0⟩
  | d :: e :: _ => (List.range d.1).flatMap fun i => (List.range e.1).map fun j => ⟨n, i, j⟩

/-- The registers outside the bench windows that hold a C or a G field (R819, R826). -/
def State.configRegs (s : State) : List Reg :=
  let rows := (regsGlb ++ regsAon ++ regsQueue ++ regsEngine ++ regsUnit ++ regsRef).filter fun n =>
    decide (n.row.bits .c ||| n.row.bits .g ≠ 0)
  (rows.flatMap RegName.instances).filter fun r => r.present s.member

/-- A REG entry of the snapshot (R816, R819). -/
def snapEntry (t a : Nat) (w : Word) : LogEntry := ⟨t, 0xE, 15, BitVec.ofNat 64 (a + 3 * 2 ^ 20 + w.toNat * 2 ^ 32)⟩

/-- The snapshot of one register: of a G field the pending value first, then the one in effect (R819). -/
def State.snapReg (s : State) (t : Nat) (r : Reg) : List LogEntry :=
  let a := r.addr
  if r.name.row.bits .g = 0 then [snapEntry t a (s.regWord a)] else [snapEntry t a (s.regWord a), snapEntry t a (s.actWord a)]

/-- The firmware BUILD (R327). -/
def State.buildWord (s : State) : Word := s.boot.build

/-- The START mark's body: KIND, MEMBER, STEP, the recorded benches and BUILD (R818). -/
def State.startBody (s : State) (mask : Nat) : Nat :=
  1 + fld s.member.param2 7 0 * 2 ^ 8 + s.part.step.toNat * 2 ^ 16 + mask % 256 * 2 ^ 24 + s.buildWord.toNat * 2 ^ 32

/-- What Mboron writes before anything else (R819). -/
def State.startEntries (s : State) (mask : Nat) : List LogEntry :=
  let t := s.power.baseTick
  (⟨t, 0xD, 15, BitVec.ofNat 64 (s.startBody mask)⟩ :: s.configRegs.flatMap (s.snapReg t)) ++
    s.ref.retired.map fun p => ⟨t, 8, 15, BitVec.ofNat 64 (p.2 + 2 * 2 ^ 16 + p.1.toNat * 2 ^ 32)⟩

/-- Post RPL_REC to the recorded benches (R825). -/
def postRecorded (s : State) (mask on : Nat) : State := s.each (onesBelow 8 mask) fun s n => postEvent s n 0x8C01 on

/-- A recording starts (R819, R822, R825). -/
def startRecording (s : State) (cfg : Word) (mask num : Nat) : State :=
  let s := postRecorded (s.wr .rplCfg 0 0 cfg) mask 1
  let first := s.startEntries mask
  let s := ((s.wr .rplEntriesLo 0 0 (W first.length)).wr .rplEntriesHi 0 0 0).wr .rplLost 0 0 0
  { s with rpl := {
      state := .recording, log := num, nextLog := (num + 1) % 2 ^ 16, staged := first, tick := s.power.baseTick,
      logs := s.rpl.logs ++ [⟨num, BitVec.ofNat 8 mask⟩] } }

/-- The recording is over: its open hank is closed, and the benches are told (R825). -/
def stopRecording (s : State) : State :=
  let s := match s.rpl.openHank with
    | none => s
    | some (x, h) => s.setLane x ((s.lane x).setHank h { (s.lane x).hank h with closed := true })
  let s := { s with rpl := { s.rpl with state := .idle, staged := [], buffer := [], openHank := none, gapCount := 0 } }
  postRecorded s (fld (s.rd .rplCfg) 7 0) 0

/-- The GAP mark for the entries discarded, and all pods afresh at their next sample (R818, R821, R823). -/
def writeGap (s : State) : State :=
  if s.rpl.state = .recording ∧ 0 < s.rpl.gapCount then
    let k := s.rpl.gapCount
    let s := logPart { s with rpl := { s.rpl with gapCount := 0 } } 0xD (4 + k * 2 ^ 32)
    s.each (onesBelow 8 (fld (s.rd .rplCfg) 7 0)) fun s n => s.setCap n { s.cap n with smpAll := true }
  else s

/-- RPL_STOP ends a recording: the queues and the buffer drain into the log, END closes it (R842). -/
def finishRecording (s : State) : State :=
  let s := drainQueues s 8
  let s := drainQueues (writeGap s) 2
  let last : LogEntry := ⟨s.power.baseTick, 0xD, 15, 5⟩
  let s := { s with rpl := { s.rpl with staged := s.rpl.staged ++ [last] } }
  stopRecording (programAll s true (s.rpl.staged.length + 1))

/-- The lane writer works (R822, R841): it merges, stages and programs whole pages; with no lane left the recording ends. -/
def programStep (s : State) : State :=
  if s.rpl.state ≠ .recording ∨ !s.live then s
  else if s.logLanes = [] then stopRecording s
  else
    let s := refillQueues (stageEntries s s.stageRoom) 256
    programAll s false (s.rpl.staged.length + 1)

end Sys2Proof.Machine
end

