-- ==== Sys2Proof/Machine/RecordCommands.lean ====
section
/-! DEFINITION. Recording commands, group 0x0C, and the lane writer's events (R815 to R825, R842, R846, R847, R849). -/

namespace Sys2Proof.Machine

/-! ### RPL_RECORD (R819, R846, R847) -/

/-- DELETE of RPL_RECORD. -/
def recDelete (c : Cmd) : Bool := bitB (pw c 2) 31

/-- LOG of RPL_RECORD. -/
def recLog (c : Cmd) : Nat := pf c 3 15 0

/-- RPL_CFG as RPL_RECORD writes it: SLACK, CONTINUE and STRICT_FAULT stay. -/
def recConfig (s : State) (c : Cmd) : Word :=
  let w := setFld (setFld (s.rd .rplCfg) 23 21 (pf c 2 23 21)) 12 10 (pf c 2 12 10)
  setFld (setFld w 9 8 (pf c 2 9 8)) 7 0 (pf c 2 7 0)

/-- The hanks that hold a log and nothing else, by lane. -/
def State.logHanks (s : State) (x num : Nat) : List Nat :=
  ((s.lane x).hanks.filter fun e => decide (e.2.owner = .log num)).map Prod.fst

/-- Delete a stored log and free its hanks, abandoning a relocation of one (R567, R847). -/
def deleteLog (s : State) (num : Nat) : State :=
  let s := { s with rpl := { s.rpl with logs := s.rpl.logs.filter fun l => l.num != num } }
  s.each (List.range 2) fun s x => s.each (s.logHanks x num) fun s h =>
    let s := match (s.lane x).moving with
      | some (old, new) => if old = h then freeHank (s.setLane x { s.lane x with moving := none }) x new else s
      | none => s
    freeHank s x h

/-- Word 2 of RPL_RECORD without DELETE names benches, lanes and a HOME of the member. -/
def recBadUnits (s : State) (c : Cmd) : Bool :=
  decide (pf c 2 7 0 = 0) || decide (2 ^ s.member.benches ≤ pf c 2 7 0) || decide (pf c 2 9 8 = 0) ||
    decide (2 ^ s.member.lanes ≤ pf c 2 9 8) || decide (s.member.benches ≤ pf c 2 23 21)

/-- Word 2 of RPL_RECORD with DELETE, which uses none of them, names benches, lanes or a HOME that the member lacks (R6). -/
def recAbsent (s : State) (c : Cmd) : Bool :=
  decide (2 ^ s.member.benches ≤ pf c 2 7 0) || decide (2 ^ s.member.lanes ≤ pf c 2 9 8) || decide (s.member.benches ≤ pf c 2 23 21)

/-- The log is stored. -/
def State.hasLog (s : State) (num : Nat) : Bool := s.rpl.logs.any fun l => l.num == num

/-- The master-table row of RPL_RECORD. -/
def infoRplRecord : OpInfo := ⟨0x0C01, .adm, none, false, false, [2], [0x7F1FE000, 0xFFFF0000]⟩

/-- What RPL_RECORD does; the response to it is no item of the recording that it has started, which holds no TAKE of the command. -/
def meanRplRecord (c : Cmd) : Meaning where
  cond s :=
    refuseIf (decide (s.rpl.state ≠ .idle) || (!recDelete c && (onesBelow 8 (pf c 2 7 0)).any fun n => decide (s.bstate n ≠ .closed)))
      .badState 0
  args s :=
    if recDelete c then orElse (refuseIf (recAbsent s c) .badArg 2) (refuseIf (!s.hasLog (recLog c)) .badArg 3)
    else orElse (refuseIf (recBadUnits s c) .badArg 2) (refuseIf (decide (recLog c ≠ 0)) .badArg 3)
  space s :=
    refuseIf (!recDelete c && (decide (s.poolUnlent < pf c 2 12 10 + 1) || decide (16 ≤ s.rpl.logs.length))) .noSpace 0
  run s r :=
    if recDelete c then done (deleteLog s (recLog c)) 0x0C01 c [W (recLog c)] r
    else respondUnseen (startRecording s (recConfig s c) (pf c 2 7 0) s.rpl.nextLog) 0x0C01 c .done 0 [W s.rpl.nextLog]

/-- RPL_RECORD on a state. -/
def cmdRplRecord (c : Cmd) (s : State) : State := mailbox s infoRplRecord c (meanRplRecord c)

/-- RPL_RECORD (R819). -/
def execRplRecord (c : Cmd) (s : State) : Host.Outcome State Fault Refusal := .next (cmdRplRecord c s)

/-- RPL_RECORD with DELETE (R846). -/
def execRplRecordDelete (c : Cmd) (s : State) : Host.Outcome State Fault Refusal := .next (cmdRplRecord c s)

/-! ### RPL_STATUS (R846, R849) -/

/-- A student of bench `n` sees more than word 2: the bench is recorded or replayed. -/
def State.rplShown (s : State) (n : Nat) : Bool := decide (s.rpl.state ≠ .idle) && s.rplNames n

/-- The words of RPL_STATUS. -/
def State.rplWords (s : State) (all : Bool) : List Word :=
  let rest := [.rplTickLo, .rplTickHi, .rplLost, .rplDiv, .rplDivWord, .rplDivTickLo, .rplDivTickHi].map fun (n : RegName) => s.shown n
  s.rplStatus :: (if all then rest else List.replicate 7 0)

/-- The master-table row of RPL_STATUS. -/
def infoRplStatus : OpInfo := ⟨0x0C03, .any, some statesIAPH, false, true, [1], [0xFFFFFFF0]⟩

/-- What RPL_STATUS does. -/
def meanRplStatus (c : Cmd) : Meaning where
  run s r := done s 0x0C03 c (s.rplWords (isAdmin c || s.rplShown (cmdTarget c))) r

/-- RPL_STATUS on a state. -/
def cmdRplStatus (c : Cmd) (s : State) : State := mailbox s infoRplStatus c (meanRplStatus c)

/-- RPL_STATUS (R846). -/
def execRplStatus (c : Cmd) (s : State) : Host.Outcome State Fault Refusal := .next (cmdRplStatus c s)

/-! ### RPL_STOP (R842, R846, R849) -/

/-- Stop what Mboron does: a recording drains and closes its log; a replay ends PARTIAL (R838, R842). -/
def stopMboron (s : State) : State :=
  match s.rpl.state with
  | .recording => finishRecording s
  | .replaying => { s with rpl := { s.rpl with state := .stopping, outcome := some Status.partial_.code } }
  | .idle => s
  | .stopping => s

/-- The master-table row of RPL_STOP. -/
def infoRplStop : OpInfo := ⟨0x0C04, .adm, none, false, false, [0], []⟩

/-- What RPL_STOP does. -/
def meanRplStop (c : Cmd) : Meaning where
  cond s := refuseIf (decide (s.rpl.state = .idle)) .badState 0
  run s r := done (stopMboron s) 0x0C04 c [W s.rpl.log] r

/-- RPL_STOP on a state. -/
def cmdRplStop (c : Cmd) (s : State) : State := mailbox s infoRplStop c (meanRplStop c)

/-- RPL_STOP (R842). -/
def execRplStop (c : Cmd) (s : State) : Host.Outcome State Fault Refusal := .next (cmdRplStop c s)

/-! ### The lane writer and the recorder buffer (R822, R823) -/

/-- REPLAY_LOG_PROGRAM (R822). -/
def execReplayLogProgram (s : State) : Host.Outcome State Fault Refusal := .next (programStep s)

/-- RECORDER_GAP (R823): the recorder buffer has room again. -/
def execRecorderGap (s : State) : Host.Outcome State Fault Refusal :=
  .next (if s.live ∧ s.rpl.buffer.length < 256 then writeGap s else s)

end Sys2Proof.Machine
end

