-- ==== Sys2Proof/Machine/ReplayRun.lean ====
section
/-! DEFINITION. Running a replay: the injector, the re-enactment of faults, the end (R816, R826 to R839, R843 to R845). -/

namespace Sys2Proof.Machine

/-! ### Fields of an entry's body (R816) -/

/-- Bits [hi:lo] of an entry's BODY. -/
def LogEntry.bits (e : LogEntry) (hi lo : Nat) : Nat := e.body.toNat / 2 ^ lo % 2 ^ (hi + 1 - lo)

/-- SOURCE of a CHK entry. -/
def LogEntry.source (e : LogEntry) : Nat := e.bits 39 32

/-! ### Commands of the log (R816, R827) -/

/-- The stream that a NIB names: a bench's, or for 0xF the admin stream that RPL_RUN did not come on. -/
def State.replayStream (s : State) (nib : Nat) : Stream :=
  if nib < 8 then .bench (Fin.ofNat 8 nib)
  else match s.rpl.by_ with
    | some (.adminUsb, _) => .adminTw
    | _ => .adminUsb

/-- The transport of a replayed stream: of a session that is still to open, USB where the log checks events of the bench, since the
events of a session over two-wire are no items of their own. -/
def State.replayVia (s : State) (st : Stream) : Transport :=
  match st with
  | .bench n =>
    if s.bstate n.val ≠ .closed then (s.sess n.val).transport
    else if s.rpl.checks.any fun e => e.source == n.val * 8 + 2 then .usb else .twoWire
  | .adminUsb => .usb
  | .adminTw => .twoWire

/-- The words of a stream that Mboron has handed over and that are not taken yet. -/
def State.replayRx (s : State) (st : Stream) : List QWord := s.rpl.rx.get (fun _ => []) (streamKey st)

/-- Write those words. -/
def setReplayRx (s : State) (st : Stream) (ws : List QWord) : State :=
  { s with rpl := { s.rpl with rx := s.rpl.rx.put (fun _ => []) (streamKey st) ws } }

/-- CMDM and CMDD: a frame word for a stream. -/
def handWord (s : State) (e : LogEntry) : State :=
  let st := s.replayStream e.nib
  setReplayRx s st (s.replayRx st ++ [mkQWord e.body (if e.type = 1 then .mark else .data)])

/-- The words from the first frame on that carries an OPCODE and a TAG; what comes before it was discarded when it was recorded. -/
def framesFrom (op tag : Nat) : List QWord → List QWord
  | [] => []
  | w :: ws =>
    if w.tag = .mark ∧ w.data.toNat % 2 ^ 16 = op ∧ w.data.toNat / 2 ^ 16 % 2 ^ 8 = tag then w :: ws else framesFrom op tag ws

/-- What each opcode does, groups 0x01 to 0x06. -/
def replayOpsLow : List (Nat × (Cmd → State → State)) :=
  [(0x0101, cmdBenchOpen), (0x0102, cmdBenchClose), (0x0103, cmdBenchReset), (0x0104, cmdBenchStatus), (0x0105, cmdCapsQuery),
   (0x0106, cmdAccountsQuery), (0x0110, cmdBenchControl), (0x0111, cmdPodAssign), (0x0112, cmdPlyMembership),
   (0x0201, cmdFeSetPod), (0x0202, cmdFeSetMode), (0x0203, cmdFeQuery), (0x0204, fun c => cmdFeHealth c none),
   (0x0205, cmdFeDeskew), (0x0301, cmdTrgSetLevel), (0x0302, cmdTrgSetResource), (0x0303, cmdTrgQuery), (0x0304, cmdTrgForce),
   (0x0310, cmdRelayEnable)] ++
  [(0x0401, cmdCapArm), (0x0402, cmdCapStop), (0x0403, cmdCapConfig), (0x0404, cmdSknList), (0x0405, cmdSknRead),
   (0x0406, cmdSknDelete), (0x0410, cmdBobbinLend), (0x0501, cmdCmpConfig), (0x0502, cmdCmpExport), (0x0503, cmdCmpVerify),
   (0x0504, cmdCmpFlush), (0x0505, cmdCmpQuery), (0x0601, cmdSlQuery), (0x0602, cmdSlStream), (0x0603, cmdSlRead),
   (0x0604, cmdSlFormat), (0x0605, cmdSlScrub), (0x0606, cmdSlBbtRead)]

/-- What each opcode does, groups 0x07 to 0x0E, but for RPL_RUN, RPL_STOP, TW_XFER and FW_LOAD_COMMIT. -/
def replayOpsHigh : List (Nat × (Cmd → State → State)) :=
  [(0x0701, cmdSearchJob), (0x0702, cmdDecodeJob), (0x0703, cmdJobCancel), (0x0704, cmdEngQuery), (0x0710, cmdPlyConfig),
   (0x0711, cmdRegulatorSet), (0x0801, cmdIuConfig), (0x0802, cmdIuMeasure), (0x0803, cmdIuCalibrate), (0x0804, cmdIuQuery),
   (0x0810, cmdIuSetAge), (0x0901, cmdTwConfig), (0x0902, cmdTwAlertRead), (0x0904, cmdTwQuery), (0x0A01, cmdCalSet),
   (0x0A02, cmdCalGet), (0x0B01, cmdFltList), (0x0B02, cmdRefInservice), (0x0B03, cmdRefTest), (0x0B04, cmdRefReturn),
   (0x0C01, cmdRplRecord), (0x0C03, cmdRplStatus)] ++
  [(0x0D01, cmdPowerEnter), (0x0D02, cmdPowerQuery), (0x0D10, cmdDstSetRules), (0x0D11, cmdDstSetInputs),
   (0x0D12, cmdDstReadLog), (0x0D13, cmdDstCounters), (0x0E01, cmdAdminOpen), (0x0E02, cmdAdminClose), (0x0E03, cmdSetCredential),
   (0x0E10, cmdOpenBenchEnter), (0x0E11, cmdOpenBenchLeave), (0x0E12, cmdRegLogRead), (0x0E13, cmdRegRead), (0x0E14, cmdRegWrite),
   (0x0E20, cmdFwLoadBegin), (0x0E21, cmdFwLoadData), (0x0E23, cmdPartReset)]

/-! ### Two-wire transfers of the log -/

/-- The outcome that a TW entry and the TWD entries after it record (R816). -/
def twOutcome (e : LogEntry) (more : List LogEntry) : XferOut :=
  match e.bits 15 14 with
  | 0 => .done ((bytesOfDWord e.body).drop 2 ++ more.flatMap fun m => bytesOfDWord m.body)
  | 1 => .nack (e.bits 13 8)
  | 2 => .lost
  | _ => .timeout

/-- The recorded outcomes of a TW_XFER, its repetitions after lost arbitration included, and the entries that are left. -/
def takeOutcomes (addr : Nat) (read : Bool) : Nat → List LogEntry → List XferOut × List LogEntry
  | 0, l => ([], l)
  | fuel + 1, l =>
    let isIt (e : LogEntry) : Bool := decide (e.type = 6) && e.bits 7 0 == addr + bN read * 128
    let before := l.takeWhile fun e => !isIt e
    match l.drop before.length with
    | [] => ([], l)
    | e :: rest =>
      let more := rest.takeWhile fun m => decide (m.type = 7)
      let left := before ++ rest.drop more.length
      if e.bits 15 14 = 2 then
        let r := takeOutcomes addr read fuel left
        (.lost :: r.1, r.2)
      else ([twOutcome e more], left)

/-- A TW_XFER of the log: the recorded outcomes stand in for the bus. -/
def replayXfer (s : State) (c : Cmd) : State :=
  let r := takeOutcomes (pf c 2 6 0) (decide (0 < pf c 2 21 16)) 5 s.rpl.todo
  cmdTwXfer c r.1 { s with rpl := { s.rpl with todo := r.2 } }

/-- A FW_LOAD_COMMIT of the log: what the NAND did is not in the log, and is a free value. -/
def replayCommit (s : State) (c : Cmd) : State :=
  let a := s.draw 1
  let b := a.2.draw 1
  cmdFwLoadCommit c (a.1 == 1) (b.1 == 1) b.2

/-- The master-table row of RPL_RUN. -/
def infoRplRun : OpInfo := ⟨0x0C02, .adm, none, true, false, [3], [0x00FC0000]⟩

/-- Survo firmware runs a command of the log; a RPL_RUN finds a replay running. -/
def runReplayed (s : State) (op : BitVec 16) (c : Cmd) : State :=
  if op = 0x0903 then replayXfer s c
  else if op = 0x0E22 then replayCommit s c
  else match (replayOpsLow ++ replayOpsHigh).find? fun p => p.1 == op.toNat with
    | some p => p.2 c s
    | none =>
      mailbox s (if op = 0x0C02 then infoRplRun else ⟨op, .any, none, false, false, [], []⟩) c
        { cond := fun _ => some (.badState, 0), run := fun s _ => s }

/-- TAKE: Survo firmware takes the command whose frames have been handed over.  RPL_STOP ended the recording itself, and is
skipped. -/
def takeEntry (s : State) (e : LogEntry) : State :=
  let st := s.replayStream e.nib
  let op : BitVec 16 := BitVec.ofNat 16 (e.bits 15 0)
  let tag : BitVec 8 := BitVec.ofNat 8 (e.bits 23 16)
  let ws := framesFrom (e.bits 15 0) (e.bits 23 16) (s.replayRx st)
  if ws = [] then s
  else
    let c := (frameCmd st (s.replayVia st) (ws.take (cmdSpan ws))).2
    let s := setReplayRx s st (ws.drop (cmdSpan ws))
    if op = 0x0C04 then s
    else
      let s := runReplayed { s with rpl := { s.rpl with takes := [(streamKey st, op, tag)] } } op c
      { s with rpl := { s.rpl with takes := [] } }

/-! ### Umpire choices (R816, R844, R845) -/

/-- UMP: an idle engine takes the recorded choice at once; a rally in progress keeps it for its end, and a step in progress finds it
there.  A choice for an engine that is really retired is a fault of its own; one for an injected retire is re-enacted. -/
def umpEntry (s : State) (e : LogEntry) : State :=
  let eng := e.bits 3 0
  if s.rpl.saved.retired.any fun p => decide (p.1 = resEngine eng) then diverge s 7 s.rpl.tick 0 0
  else
    let s := { s with rpl := { s.rpl with choices := s.rpl.choices ++ [(eng, e.bits 11 8, e.bits 63 32)] } }
    if (s.engine eng).job.isNone then
      let r := choose s eng
      let s := giveEngine r.2 eng r.1 true
      if eng = 8 then iuBegin s else s
    else if s.interleaved eng ∨ eng = 8 then s
    else
      let r := choose s eng
      r.2.setEngine eng { r.2.engine eng with chosen := some r.1 }

/-! ### Faults (R833 to R835) -/

/-- The benches whose job on an engine a recorded verdict concerns: those that wait for it, or else the one that runs. -/
def State.replayWaiting (s : State) (e : Nat) : List Nat :=
  match (s.umpire.jobs.filter fun j => decide (j.await = some (resEngine e))).map Job.bench with
  | [] => ((s.jobOn e).map Job.bench).toList
  | l => l

/-- The TEST marker of a recorded loopback test: the log has its end; its length, at most 2 µs (R397), is a free value. -/
def replayTestMarker (s : State) (ch : Nat) : State :=
  let d := s.draw 12
  markTest d.2 ch (s.power.baseTick - d.1 % 3201)

/-- A let of the log: the work is done again (R755, R833). -/
def injectLet (s : State) (res : Word) (code : Nat) : State :=
  let i := resIndex res
  match resType res with
  | 1 => if code = 0x0101 then postStuck s i .let_ else s
  | 4 =>
    let w := if code = 0x0401 then s.replayWaiting i else []
    postSelfcheck (wakeJobs s res) res .let_ w
  | _ => s

/-- A retire of the log, for the replay only (R833): the resource counts as retired, and its work is discarded or moves as the retire
requires.  A block, a lane and the pads, which a replay does not use, do nothing more. -/
def injectRetire (s : State) (res : Word) (code : Nat) (requested : Bool) : State :=
  let i := resIndex res
  if s.ref.retired.any fun p => decide (p.1 = res) then s
  else
    let t : RefTest := ⟨res, code, 0, requested, false, none, none⟩
    let w := if code = 0x0401 then s.replayWaiting i else []
    let s := if resType res = 5 then s else { s with ref := { s.ref with retired := s.ref.retired ++ [(res, code)] } }
    match resType res with
    | 1 | 2 | 3 => retireEffect s t
    | 4 => postSelfcheck (retireEffect s t) res .retire w
    | 6 =>
      s.each (s.openBenches.filter fun n => (fld (s.rd .slSCfg n) 1 0).testBit i) fun s n =>
        postEvent s n 0x8602 (i + LaneState.retired.code * 2)
    | 7 => if (bankWindow i).isNone then refreshFaulted s else s
    | _ => s

/-- A rejoin of the log. -/
def injectRejoin (s : State) (res : Word) : State :=
  let i := resIndex res
  let s := { s with ref := { s.ref with
    retired := s.ref.retired.filter fun p => decide (p.1 ≠ res), probation := s.ref.probation.filter fun r => decide (r ≠ res) } }
  match resType res with
  | 2 | 3 | 4 | 7 => rejoinEffect s res
  | 6 =>
    s.each (s.openBenches.filter fun n => (fld (s.rd .slSCfg n) 1 0).testBit i) fun s n =>
      postEvent s n 0x8602 (i + LaneState.ready.code * 2)
  | _ => s

/-- The test that a replayed command asked for and that waits for its entry. -/
def State.askedTest (s : State) (res : Word) : Option RefTest :=
  s.ref.waiting.find? fun t => decide (t.res = res) && t.requested

/-- A verdict of the log is re-enacted (R833): the event, the effect, and the answer to a command of the log that asked for the test. -/
def injectVerdict (s : State) (e : LogEntry) : State :=
  let res := W (e.bits 63 32)
  let code := e.bits 15 0
  let v := e.bits 17 16
  let three := e.bits 18 18 == 1
  let requested := e.bits 19 19 == 1
  let asked := if requested then s.askedTest res else none
  let s := { s with ref := { s.ref with waiting := s.ref.waiting.filter fun t => !(decide (t.res = res) && t.requested && requested) } }
  let s := if resType res = 1 ∧ v ≠ 3 then replayTestMarker s (resIndex res) else s
  let s := match v with
    | 1 => injectLet (if requested then s else postFault s res code .let_ three) res code
    | 2 => injectRetire (postFault s res code .retire three) res code requested
    | 3 => injectRejoin (postFault s res code .rejoined three) res
    | _ => s
  match asked with
  | some t => if v = 3 then s else answerTest s t (v == 1)
  | none => s

/-- REF (R833, R834). -/
def refEntry (s : State) (e : LogEntry) : State :=
  let res := W (e.bits 63 32)
  if e.bits 17 16 = 1 ∧ bitB (s.rd .rplCfg) 16 then
    if s.rpl.seen.contains res then wakeJobs { s with rpl := { s.rpl with seen := s.rpl.seen.erase res } } res
    else diverge s 4 e.tick 0 0
  else injectVerdict (s.bumpSat .rplInj 0 0 15 0 1) e

/-! ### Samples (R821, R827) -/

/-- The base ticks between two timing-mode samples (R378). -/
def samplePeriod (rate : Nat) : Nat := if rate = 1 then 2 else if rate = 2 then 1 else 4

/-- One sample of the log is presented to the sequencer and the capture store. -/
def presentSample (s : State) (n t : Nat) (ws : List Word) : State :=
  let s := runDue s n t
  if !s.capturing n || (s.cap n).cur.isNone then s
  else
    let s := takeSample s n t ws (s.seqr n).force.isSome
    s.setCap n { s.cap n with smpAll := false }

/-- The timing-mode samples of a replayed bench before tick `t` that the log leaves out, as they equal the one before; `fuel` bounds
them. -/
def heldSamples (s : State) (n t : Nat) : Nat → State
  | 0 => s
  | fuel + 1 =>
    let at_ := (s.cap n).lastTick + samplePeriod (s.feRate n)
    match (s.seqr n).prev with
    | none => s
    | some ws =>
      if s.capturing n ∧ (s.cap n).cur.isSome ∧ !s.stateMode n ∧ !(s.cap n).smpAll ∧ at_ < t then
        heldSamples (presentSample s n at_ ws) n t fuel
      else s

/-- Every replayed bench has its samples up to tick `t`. -/
def holdAll (s : State) (t : Nat) : State :=
  s.each (onesBelow 8 (fld (s.rd .rplCfg) 7 0)) fun s n => heldSamples s n t (t - (s.cap n).lastTick)

/-- The SMP entries of the same sample: one bench's pods in increasing order. -/
def samplePods (s : State) (tick n : Nat) : Nat → List LogEntry → List LogEntry
  | _, [] => []
  | last, e :: rest =>
    if e.type = 9 ∧ e.tick = tick ∧ last < e.nib ∧ s.ownerOf e.nib = some n then e :: samplePods s tick n e.nib rest else []

/-- SMP: with the entries of the bench's other pods that follow, one sample. -/
def sampleEntry (s : State) (e : LogEntry) : State :=
  match s.ownerOf e.nib with
  | none => s
  | some n =>
    let more := samplePods s e.tick n e.nib s.rpl.todo
    let s := { s with rpl := { s.rpl with todo := s.rpl.todo.drop more.length } }
    let prev := ((s.seqr n).prev).getD []
    let ws := (List.range 8).map fun p =>
      match (e :: more).find? fun x => x.nib == p with
      | some x => W x.body.toNat
      | none => wordAt prev p
    presentSample s n e.tick ws

/-! ### Interval records (R675) -/

/-- Words in records of four. -/
def recordsOfFour : List Word → List (List Word)
  | a :: b :: c :: d :: rest => [a, b, c, d] :: recordsOfFour rest
  | _ => []

/-- SUBST set in a record (R669). -/
def substRecord (r : List Word) : List Word := r.mapIdx fun i w => if i = 1 then setFld w 27 27 1 else w

/-- The measurement job of bench `n`: the one that engine 8 runs, or else its oldest. -/
def State.measureJob (s : State) (n : Nat) : Option Job :=
  let isIt (j : Job) : Bool := decide (j.bench = n) && decide (j.kind.op = 0x0802)
  match (s.jobOn 8).filter isIt with
  | some j => some j
  | none => s.umpire.jobs.find? isIt

/-- The records of one measurement stand in for its result (R670, R675): the host's copy is compared as recorded; the result store
shows SUBST. -/
def substitute (s : State) (n : Nat) (recs : List (List Word)) : State :=
  match s.measureJob n with
  | none => s
  | some j =>
    match j.kind with
    | .measure left d =>
      let s := (s.bumpWrap .iuMeas 0 0 31 0 1).bumpSat .rplInj 0 0 31 16 recs.length
      let s := deliverRecords s j left d recs
      let shown := recs.map substRecord
      { s with iu := { s.iu with results := shown, byBench := s.iu.byBench.put (fun _ => []) n shown } }
    | _ => s

/-- IUR0 and IUR1: the measurement is complete with the record whose KIND says END. -/
def recordEntry (s : State) (e : LogEntry) : State :=
  let ws := s.rpl.iur.get (fun _ => []) e.nib ++ [DWord.lo e.body, DWord.hi e.body]
  let put (s : State) (l : List Word) : State := { s with rpl := { s.rpl with iur := s.rpl.iur.put (fun _ => []) e.nib l } }
  let recs := recordsOfFour ws
  let complete := e.type = 11 ∧ (recs.getLast?.any fun r => fld (wordAt r 1) 25 24 == 2)
  if complete then substitute (put s []) e.nib recs else put s ws

/-! ### Registers (R816, R819) -/

/-- The C and G bits of the register at an address outside the bench windows; RPL_CFG belongs to the replay itself. -/
def configBits (a : Nat) : Word :=
  match regAt a with
  | some r => if r.name = .rplCfg ∨ (windowOf a).isSome then 0 else r.name.row.bits .c ||| r.name.row.bits .g
  | none => 0

/-- Set the C and pending G fields of a register, leaving the rest of its word. -/
def restoreWord (s : State) (a : Nat) (w : Word) : State :=
  s.setRegWord a ((s.regWord a &&& ~~~ configBits a) ||| (w &&& configBits a))

/-- Set the G fields in effect of a register. -/
def restoreAct (s : State) (a : Nat) (w : Word) : State :=
  s.setActWord a ((s.actWord a &&& ~~~ (configBits a &&& gBitsAt a)) ||| (w &&& (configBits a &&& gBitsAt a)))

/-- REG: a snapshot value, of a G field the pending one first, or a write on the Survo firmware path. -/
def regEntry (s : State) (e : LogEntry) : State :=
  let a := e.bits 19 0
  let w := W (e.bits 63 32)
  if e.bits 21 20 ≠ 3 then accessWrite s .survo a w
  else if s.rpl.snap = some a then restoreAct { s with rpl := { s.rpl with snap := none } } a w
  else restoreWord { s with rpl := { s.rpl with snap := if gBitsAt a = 0 then none else some a } } a w

/-! ### The injector (R816, R839) -/

/-- MARK (R818). -/
def markEntry (s : State) (e : LogEntry) : State :=
  match e.bits 7 0 with
  | 4 => diverge s 6 e.tick 0 0
  | 5 => { s with rpl := { s.rpl with ended := true } }
  | _ => s

/-- One entry is applied (R816). -/
def applyEntry (s : State) (e : LogEntry) : State :=
  match e.type with
  | 1 => handWord s e
  | 2 => handWord s e
  | 3 => takeEntry s e
  | 4 => umpEntry s e
  | 5 => if e.bits 6 6 = 1 then distaffArm s (e.bits 9 7) (e.bits 3 0) else s
  | 8 => refEntry s e
  | 9 => sampleEntry s e
  | 10 => recordEntry s e
  | 11 => recordEntry s e
  | 13 => markEntry s e
  | 14 => regEntry s e
  | 15 => if e.nib < 8 then s.setSess e.nib { s.sess e.nib with seq := (s.sess e.nib).seq + 1 } else s
  | _ => s

/-- The entries of a tick, in log order; `fuel` bounds them. -/
def injectTick (s : State) (t : Nat) : Nat → State
  | 0 => s
  | fuel + 1 =>
    match s.rpl.todo with
    | [] => s
    | e :: rest =>
      if e.tick ≤ t ∧ s.rpl.state = .replaying then
        injectTick (applyEntry { s with rpl := { s.rpl with todo := rest } } e) t fuel
      else s

/-- The resources that the REF entries of a tick name. -/
def refsAt (t : Nat) (l : List LogEntry) : List Word :=
  ((l.takeWhile fun e => decide (e.tick ≤ t)).filter fun e => decide (e.type = 8)).map fun e => W (e.bits 63 32)

/-- What the tick has produced is compared once its entries have all been applied (R839). -/
def compareItems (s : State) : State :=
  let l := s.rpl.items
  let s := { s with rpl := { s.rpl with injecting := false, items := [] } }
  s.each l fun s x => compareItem s x.1 x.2.1 x.2.2

/-- The next tick of the log is replayed (R827, R839); a log that has run out without END is a GAP, or a LOG_ERROR (R836). -/
def injectNext (s : State) : State :=
  match s.rpl.todo with
  | [] => if s.rpl.ended then s else diverge s (if s.rpl.logBad then 8 else 6) s.rpl.tick 0 0
  | e :: _ =>
    let now := s.power.baseTick
    let left := s.rpl.todo.length
    let t := e.tick
    let s := s.each s.rpl.refsNow wakeJobs
    let s := { s with rpl := { s.rpl with tick := t, refsNow := refsAt t s.rpl.todo, injecting := true },
                      power := { s.power with baseTick := t } }
    let s := injectTick (holdAll s t) t left
    let s := compareItems { s with power := { s.power with baseTick := now } }
    s.addAcc .rplEntriesLo .rplEntriesHi 0 (left - s.rpl.todo.length)

/-- 1 ms in base ticks. -/
def msTicks : Nat := 1600000

/-- RPL_CFG.SLACK in base ticks. -/
def State.slackTicks (s : State) : Nat := fld (s.rd .rplCfg) 31 24 * msTicks

/-- A CHK entry whose item has not come is given up (R836). -/
def missCheck (s : State) (e : LogEntry) : State :=
  let s := { s with rpl := { s.rpl with checks := s.rpl.checks.erase e } }
  diverge s 2 e.tick e.source (s.rpl.words.get (fun _ => 0) e.source)

/-- The first unmatched CHK entry of a SOURCE, once replay time has passed it by SLACK or the log has ended (R836, R843). -/
def missOne (s : State) (source : Nat) : State :=
  match s.rpl.checks.find? fun e => e.source == source with
  | none => s
  | some e =>
    if s.rpl.state = .replaying ∧ (s.rpl.ended ∨ e.tick + s.slackTicks < s.rpl.tick) then missCheck s e else s

/-! ### The start of a replay (R826, R848) -/

/-- The START mark of a log's entries. -/
def startMark (es : List LogEntry) : Option LogEntry := es.head?.filter fun e => decide (e.type = 13) && e.bits 7 0 == 1

/-- The resources that were retired at START: the REF entries of the snapshot (R819). -/
def retiredAtStart (es : List LogEntry) : List Word :=
  let head := (es.drop 1).takeWhile fun e => decide (e.type = 14 ∧ e.bits 21 20 = 3) || decide (e.type = 8)
  (head.filter fun e => decide (e.type = 8)).map fun e => W (e.bits 63 32)

/-- The log was made on another MEMBER or STEP or with another BUILD (R848). -/
def State.startDiffers (s : State) (e : LogEntry) : Bool :=
  e.bits 15 8 != fld s.member.param2 7 0 || e.bits 23 16 != s.part.step.toNat || e.bits 63 32 != s.buildWord.toNat

/-- A resource in service at START that is retired now, by its fault code (R848). -/
def State.newlyRetired (s : State) (es : List LogEntry) : Option Nat :=
  (s.ref.retired.find? fun p => !(retiredAtStart es).contains p.1).map Prod.snd

/-- The entries of a log up to UNTIL, where it ends as at END; 0 means the whole log (R846). -/
def cutLog (until_ : Nat) (es : List LogEntry) : List LogEntry :=
  if until_ = 0 ∨ (es.all fun e => decide (e.tick ≤ until_)) then es
  else (es.filter fun e => decide (e.tick ≤ until_)) ++ [⟨until_, 13, 15, 5⟩]

/-- What the end of the replay restores (R826, R833). -/
def State.replaySave (s : State) : RplSaved :=
  let as := (s.configRegs.map Reg.addr).filter fun a => decide (a ≠ Reg.addr ⟨.rplCfg, 0, 0⟩)
  { regs := as.map fun a => (a, s.regWord a),
    act := (as.filter fun a => decide (gBitsAt a ≠ 0)).map fun a => (a, s.actWord a),
    retired := s.ref.retired, retained := s.fw.retained, catalogue := s.storage.catalogue }

/-- A replay starts (R826, R846). -/
def startReplay (s : State) (st : Stream) (tag : BitVec 8) (num benches until_ : Nat) (cfg : Word) : State :=
  let k := s.readLog num
  let es := cutLog until_ k.1
  let isChk (e : LogEntry) : Bool := decide (e.type = 12)
  let s := (readLogPages s num).wr .rplCfg 0 0 (setFld cfg 7 0 benches)
  let s := ((s.wr .rplDivCnt 0 0 0).wr .rplInj 0 0 0).wr .rplEntriesLo 0 0 0
  let s := s.wr .rplEntriesHi 0 0 0
  { s with rpl := {
      state := .replaying, logs := s.rpl.logs, log := num, nextLog := s.rpl.nextLog, tick := (es.head?.map LogEntry.tick).getD 0,
      todo := es.filter fun e => !isChk e, checks := es.filter isChk, logBad := k.2, by_ := some (st, tag), saved := s.replaySave } }

/-! ### The end of a replay (R826, R833, R838) -/

/-- A replayed bench is CLOSED again; nothing of it goes out. -/
def closeReplayed (s : State) (n : Nat) : State :=
  if s.bstate n = .closed then s
  else
    let s := closeHank (startReset s n true none) n
    let s := (resetWindow s n).setSeqr n {}
    let s := { s with iu := { s.iu with configs := s.iu.configs.put iuConfigInit n (iuConfigInit n) } }
    releaseSession s n

/-- The retired set is the one before the replay (R826, R833). -/
def restoreRetired (s : State) : State :=
  let old := s.rpl.saved.retired
  let isOld (r : Word) : Bool := old.any fun p => decide (p.1 = r)
  let queues := ((s.ref.retired ++ old).filter fun p => decide (resType p.1 = 2)).map fun p => resIndex p.1
  let s := s.each queues fun s i =>
    if isOld (resQueue i) then s.setQueue i { s.queue i with retired := true } else rejoinQueue s i
  let s := s.each (List.range 8) fun s n =>
    s.setCap n { s.cap n with lostBanks := (old.filter fun p => decide (resType p.1 = 3 ∧ resIndex p.1 / 10 = n)).length }
  refreshFaulted { s with ref := { s.ref with retired := old }, fw := { s.fw with retained := s.rpl.saved.retained } }

/-- The registers outside the bench windows are as they were before the replay (R826). -/
def restoreRegs (s : State) : State :=
  let v := s.rpl.saved
  let s := s.each v.regs fun s e => restoreWord s e.1 e.2
  s.each v.act fun s e => restoreAct s e.1 e.2

/-- Mboron idle after a replay: the divergence and the tick stay readable. -/
def Mboron.finished (r : Mboron) : Mboron :=
  { logs := r.logs, log := r.log, nextLog := r.nextLog, gapSeen := r.gapSeen, diverged := r.diverged, tick := r.tick,
    divTick := r.divTick, divKind := r.divKind, divSource := r.divSource, divWord := r.divWord }

/-- The status of the completion (R838). -/
def Mboron.result (r : Mboron) : BitVec 8 :=
  match r.outcome with
  | some c => c
  | none => if r.diverged then Status.verifyMismatch.code else Status.done.code

/-- The state before the replay comes back, and RPL_RUN completes (R826, R838). -/
def finishReplay (s : State) : State :=
  let s := { s with rpl := { s.rpl with state := .stopping } }
  let code := s.rpl.result
  let by_ := s.rpl.by_
  let s := s.each (onesBelow 8 (fld (s.rd .rplCfg) 7 0)) closeReplayed
  let s := s.each s.umpire.jobs fun s j => dropJob s j.id
  let s := restoreRegs (restoreRetired s)
  let s := { s with storage := { s.storage with catalogue := s.rpl.saved.catalogue }, rpl := s.rpl.finished }
  let s := iuPump s
  match by_ with
  | some (st, tag) => completeCode s st 0x0C02 tag code (min 0xFFFFF (fld (s.rd .rplDivCnt) 15 0))
  | none => s

/-- The replay ends: at END, where what is still unmatched is missing, or once something has stopped it (R836 to R838). -/
def endReplay (s : State) : State :=
  if s.rpl.state = .stopping then finishReplay s
  else if s.rpl.state = .replaying ∧ s.rpl.ended then finishReplay (s.each s.rpl.checks missCheck)
  else s

end Sys2Proof.Machine
end

