-- ==== Sys2Proof/Machine/ReplayCommands.lean ====
section
/-! DEFINITION. RPL_RUN and the events of a replay (R826, R836 to R839, R846, R848). -/

namespace Sys2Proof.Machine

/-! ### RPL_RUN (R826, R846, R848) -/

/-- LOG of RPL_RUN. -/
def runLog (c : Cmd) : Nat := pf c 2 15 0

/-- Something of R826 stands against a replay. -/
def State.replayBarred (s : State) : Bool :=
  decide (s.rpl.state ≠ .idle) || s.openBench || !s.umpire.jobs.isEmpty || s.benchList.any fun n => decide (s.bstate n ≠ .closed)

/-- The log cannot be run: it is absent, or has no START. -/
def State.runAbsent (s : State) (num : Nat) : Bool := !s.hasLog num || (startMark (s.readLog num).1).isNone

/-- What START says against a replay (R848). -/
def State.runRefused (s : State) (num : Nat) : Refuse :=
  let es := (s.readLog num).1
  match startMark es with
  | none => none
  | some e =>
    if s.startDiffers e then some (.verifyMismatch, 0x10) else (s.newlyRetired es).map fun code => (.retired, code)

/-- RPL_CFG as RPL_RUN writes it: SLACK, CONTINUE and STRICT_FAULT; BENCHES are the log's. -/
def runConfig (s : State) (c : Cmd) : Word :=
  setFld (setFld (setFld (s.rd .rplCfg) 31 24 (pf c 2 31 24)) 17 17 (pf c 2 17 17)) 16 16 (pf c 2 16 16)

/-- The benches of a log. -/
def State.logBenches (s : State) (num : Nat) : Nat :=
  match s.rpl.logs.find? fun l => l.num == num with
  | some l => l.benches.toNat
  | none => 0

/-- UNTIL of RPL_RUN. -/
def runUntil (c : Cmd) : Nat := ofLoHi (pw c 3) (pw c 4) % 2 ^ 56

/-- What RPL_RUN does. -/
def meanRplRun (c : Cmd) : Meaning where
  cond s := refuseIf s.replayBarred .badState 0
  args s := refuseIf (s.runAbsent (runLog c)) .badArg 2
  space s := s.runRefused (runLog c)
  run s r := startReplay (accept s 0x0C02 c r) c.stream c.tag (runLog c) (s.logBenches (runLog c)) (runUntil c) (runConfig s c)

/-- RPL_RUN on a state. -/
def cmdRplRun (c : Cmd) (s : State) : State := mailbox s infoRplRun c (meanRplRun c)

/-- RPL_RUN (R826). -/
def execRplRun (c : Cmd) (s : State) : Host.Outcome State Fault Refusal := .next (cmdRplRun c s)

/-! ### The events of a replay -/

/-- REPLAY_INJECT (R839). -/
def execReplayInject (s : State) : Host.Outcome State Fault Refusal :=
  .next (if s.rpl.state = .replaying ∧ s.survoRuns then injectNext s else s)

/-- REPLAY_MISSING (R836). -/
def execReplayMissing (source : Byte) (s : State) : Host.Outcome State Fault Refusal := .next (missOne s source.toNat)

/-- REPLAY_END (R838). -/
def execReplayEnd (s : State) : Host.Outcome State Fault Refusal := .next (if s.survoRuns then endReplay s else s)

end Sys2Proof.Machine
end

