-- ==== Sys2Proof/Machine/StartupCommands.lean ====
section
/-! DEFINITION. The events of supplies, resets and start-up, and the recovery requests (R57 to R73, R125 to R163). -/

namespace Sys2Proof.Machine

/-! ### Supplies and resets (R57, R59, R73, R125, R126) -/

/-- A fast-domain reset that leaves the power state OFF while a required rail is missing (R57, R80). -/
def resetHeld (s : State) (cause : BitVec 8) : State :=
  let t := fastReset s cause
  if s.power.state = .off then { t with power := { t.power with state := .off } } else t

/-- COLD_RESET (R125): everything resets, and stays so until VAON has risen again (R57). -/
def execColdReset (s : State) : Host.Outcome State Fault Refusal :=
  .next (let t := coldResetState s
    { t with power := { t.power with state := .off } })

/-- SUPPLY_MONITOR_RESET (R59): each of the four rails has the same effect. -/
def execSupplyMonitorReset (_rail : Rail) (s : State) : Host.Outcome State Fault Refusal :=
  .next (let t := fastReset s 2
    { t with power := { t.power with state := .off } })

/-- VUSB33 and VUSB08 are above their rising thresholds again (R59). -/
def railsRisen (s : State) : State :=
  { s with power := { s.power with usbLow := false, usbRails := s.part.usbSupplied && decide (s.boot.phase ≠ .none) } }

/-- SUPPLY_RISE (R57, R59): the last required rail, or the USB rails, are above their rising thresholds. -/
def execSupplyRise (rail : RisingRail) (s : State) : Host.Outcome State Fault Refusal :=
  .next (if rail = .usb then railsRisen s
    else if s.power.state = .off then
      let t := if rail = .vaon then coldResetState s else s
      { t with power := { t.power with state := .awake, fastReset := true } }
    else s)

/-- JUNCTION_HOT (R59, R73): TJ in two's complement. -/
def execJunctionHot (tj : BitVec 8) (s : State) : Host.Outcome State Fault Refusal :=
  .next { s with power := { s.power with
    tj := tj, hot := if 110 ≤ tj.toInt then true else if tj.toInt < 100 then false else s.power.hot } }

/-- JUNCTION_TRIP (R59, R73): HOT is set and the fast domain is held in reset. -/
def execJunctionTrip (s : State) : Host.Outcome State Fault Refusal :=
  .next (let t := resetHeld s 3
    { t with power := { t.power with trip := true, hot := true, tj := 120 } })

/-- JUNCTION_TRIP_RELEASE (R59). -/
def execJunctionTripRelease (s : State) : Host.Outcome State Fault Refusal :=
  .next { s with power := { s.power with trip := false } }

/-- NRESET_LOW (R125, R126). -/
def execNresetLow (s : State) : Host.Outcome State Fault Refusal :=
  .next (let t := resetHeld s 4
    { t with power := { t.power with nresetLow := true } })

/-- NRESET_RELEASE (R126). -/
def execNresetRelease (s : State) : Host.Outcome State Fault Refusal :=
  .next { s with power := { s.power with nresetLow := false } }

/-- SURVO_WATCHDOG (R125): only running firmware can fail to service it. -/
def execSurvoWatchdog (s : State) : Host.Outcome State Fault Refusal := .next (if s.survoRuns then fastReset s 5 else s)

/-! ### The timeline (R129) -/

/-- No cause holds the fast domain in reset any longer. -/
def State.mayRelease (s : State) : Bool :=
  s.power.fastReset && !s.power.nresetLow && !s.power.trip && decide (s.power.state ≠ .off)

/-- FAST_DOMAIN_RESET_RELEASE (R51, R60, R129): the straps are sampled, and the OPEN strap selects Open Bench mode (R36). -/
def execFastDomainResetRelease (straps : Straps) (s : State) : Host.Outcome State Fault Refusal :=
  .next (if s.mayRelease then
      { s with
        power := { s.power with fastReset := false, writeProtect := false, baseTick := 0 },
        boot := { s.boot with straps := straps },
        fw := { s.fw with openMode := straps.openMode } }
    else s)

/-- BOOT_ROM_RUN (R132). -/
def execBootRomRun (a b : Option ImageView) (s : State) : Host.Outcome State Fault Refusal := .next (tryPods (runBootRom s a b))

/-- BBT_LOADED (R559). -/
def execBbtLoaded (a b : LaneProbe) (s : State) : Host.Outcome State Fault Refusal := .next (loadTables s a b)

/-- QUIET_PERIOD_END (R131, R144). -/
def execQuietPeriodEnd (s : State) : Host.Outcome State Fault Refusal :=
  .next (if s.live then tryPods (setBoot s fun b => { b with quietOver := true }) else s)

/-- POD_DISCOVERY (R145). -/
def execPodDiscovery (reads : List PodRead) (s : State) : Host.Outcome State Fault Refusal := .next (discoverPods s reads)

/-- READY (R129). -/
def execReady (s : State) : Host.Outcome State Fault Refusal := .next (becomeReady s)

/-- The timeline has come as far as the USB pull-up: its 300 ms can fall in BBT, in PODS or later (R129), and in recovery the
boot ROM enumerates (R136). -/
def State.pullupDue (s : State) : Bool :=
  match s.boot.phase with
  | .bbt | .pods | .ready | .recovery => s.live
  | .none | .rom | .fwStart | .failed => false

/-- USB_PULLUP_ENABLE (R54, R59, R129, R150). -/
def execUsbPullupEnable (s : State) : Host.Outcome State Fault Refusal := .next (if s.pullupDue then attach s else s)

/-- VBUS_CHANGE (R63, R724). -/
def execVbusChange (high : Bool) (s : State) : Host.Outcome State Fault Refusal := .next (vbusTo s high)

/-! ### Recovery requests (R136 to R138, R736) -/

/-- The host can make a request on endpoint 0: the fast domain runs and the A9 shows its pull-up. -/
def State.hostPresent (s : State) : Bool := s.live && s.usb.pullup

/-- REC_WRITE (R136). -/
def execRecWrite (offset : Nat) (data : List Byte) (s : State) : Host.Outcome State Fault Refusal :=
  .next (if s.hostPresent then recoveryWrite s offset data else s)

/-- REC_BOOT (R137). -/
def execRecBoot (s : State) : Host.Outcome State Fault Refusal := .next (if s.hostPresent then recoveryBoot s else s)

/-- REC_STATUS (R136). -/
def execRecStatus (s : State) : Host.Outcome State Fault Refusal := .next (if s.hostPresent then recoveryStatus s else s)

end Sys2Proof.Machine
end

