-- ==== Sys2Proof/Machine/UsbCommands.lean ====
section
/-! DEFINITION. The events of the USB host link and its register window (R30, R722 to R750). -/

namespace Sys2Proof.Machine

/-! ### The link -/

/-- A reset of the bus (R741): before the link has attached it is only counted; in SLEEP and DOZE it wakes the A9 (R743). -/
def busResetSeen (s : State) : State :=
  if s.usb.link = .detached then (if s.hostPresent then s.bumpSat .usbCnt 0 0 23 16 1 else s)
  else if s.live then linkLost s true else wakeFor (linkLost s true) .usb 0 .awake

/-- VUSB33 or VUSB08 falls: the pull-up goes away and the link detaches (R30, R59, R75). -/
def railsFallen (s : State) : State :=
  dropPullup { s with power := { s.power with usbLow := true, usbRails := false } }

/-- USB_DETACH (R30, R59, R741). -/
def execUsbDetach (cause : LinkLoss) (s : State) : Host.Outcome State Fault Refusal :=
  .next (match cause with
    | .busReset => busResetSeen s
    | .unplugged => if s.usb.link = .detached then s else linkLost s false
    | .railsFall => railsFallen s)

/-- USB_ENUMERATION (R725). -/
def execUsbEnumeration (superSpeed : Bool) (req : CtlReq) (s : State) : Host.Outcome State Fault Refusal :=
  .next (controlRequest s superSpeed req)

/-- HS_CHIRP_TIMEOUT (R724). -/
def execHsChirpTimeout (s : State) : Host.Outcome State Fault Refusal :=
  .next (if s.hostPresent then
      let t := dropPullup s
      { t with usb := { t.usb with fsReject := true } }
    else s)

/-- SUPERSPEED_FALLBACK (R723): link training precedes the attach. -/
def execSuperspeedFallback (s : State) : Host.Outcome State Fault Refusal :=
  .next (if s.hostPresent ∧ s.usb.link = .detached then { s with usb := { s.usb with hsOnly := true } } else s)

/-- USB_SUSPEND (R742). -/
def execUsbSuspend (s : State) : Host.Outcome State Fault Refusal := .next (suspendLink s)

/-- USB_RESUME (R743). -/
def execUsbResume (busReset : Bool) (s : State) : Host.Outcome State Fault Refusal :=
  .next (if busReset then busResetSeen s
    else if s.usb.link ≠ .suspended then s
    else if s.live then resumeLink s else wakeFor s .usb 0 .awake)

/-- REMOTE_WAKEUP (R745). -/
def execRemoteWakeup (s : State) : Host.Outcome State Fault Refusal := .next (signalWakeup s)

/-! ### Bulk endpoints (R726 to R735) -/

/-- The bulk endpoints are there: none is in USB recovery (R136). -/
def State.bulkThere (s : State) : Bool := s.usbUp && decide (s.boot.phase ≠ .recovery)

/-- BULK_OUT_FRAME (R727). -/
def execBulkOutFrame (ep : BitVec 8) (words : List Word) (s : State) : Host.Outcome State Fault Refusal :=
  .next (if s.bulkThere then bulkOut s ep.toNat words else s)

/-- BULK_OUT_PARTIAL_FRAME (R728). -/
def execBulkOutPartialFrame (ep : BitVec 8) (s : State) : Host.Outcome State Fault Refusal :=
  .next (if s.bulkThere then partialFrame s ep.toNat else s)

/-- BULK_IN_CONTAINER (R730): bit 7 of an IN endpoint's address is 1 (R726). -/
def execBulkInContainer (ep : BitVec 8) (s : State) : Host.Outcome State Fault Refusal :=
  .next (if s.bulkThere ∧ 128 ≤ ep.toNat then bulkIn s (ep.toNat - 128) else s)

/-- CLEAR_FEATURE_ENDPOINT_HALT (R735, R750). -/
def execClearFeatureEndpointHalt (halt : HaltClear) (s : State) : Host.Outcome State Fault Refusal :=
  .next (if s.bulkThere then clearHalt s halt.ep halt.gone else s)

/-! ### The register window (R736 to R739, R149) -/

/-- The address that a request names. -/
def requestAddr (wValue wIndex : BitVec 16) : Nat := wValue.toNat + wIndex.toNat % 16 * 2 ^ 16

/-- The request is well formed (R737). -/
def requestOk (wIndex wLength : BitVec 16) : Bool :=
  decide (wIndex.toNat < 16 ∧ wLength.toNat % 4 = 0 ∧ 4 ≤ wLength.toNat ∧ wLength.toNat ≤ 64)

/-- The words of a read in address order, up to the first bus error (R738). -/
def windowReads (s : State) (addr : Nat) : Nat → List Word × Bool × State
  | 0 => ([], false, s)
  | k + 1 =>
    let r := busRead s .usb addr
    if r.2.1 ≠ 0 then ([], true, r.2.2)
    else
      let t := windowReads r.2.2 (addr + 4) k
      (r.1 :: t.1, t.2.1, t.2.2)

/-- The vendor requests of R736 are answered: the link is up, and the boot ROM's recovery, which stalls them, does not run. -/
def State.windowThere (s : State) : Bool := s.usbUp && decide (s.boot.phase ≠ .recovery)

/-- The latest request is still NAKed, so that the host sends no other (R739). -/
def State.requestWaits (s : State) : Bool := s.usb.request.isSome || s.usbWaits

/-- USB_REG_READ (R737, R738). -/
def execUsbRegRead (wValue wIndex wLength : BitVec 16) (s : State) : Host.Outcome State Fault Refusal :=
  .next (if !s.usbUp ∨ s.requestWaits then s
    else if !s.windowThere then setStall s true
    else if !requestOk wIndex wLength then windowDone (busError s .usb (requestAddr wValue wIndex) 2 false) [] true
    else
      let r := windowReads s (requestAddr wValue wIndex) (wLength.toNat / 4)
      windowDone r.2.2 (if r.2.1 then [] else r.1) r.2.1)

/-- USB_REG_WRITE (R737 to R739, R746): `data` are the words of the data stage. -/
def execUsbRegWrite (wValue wIndex wLength : BitVec 16) (data : List Word) (s : State) : Host.Outcome State Fault Refusal :=
  .next (if !s.usbUp ∨ s.requestWaits then s
    else if !s.windowThere then setStall s true
    else if !requestOk wIndex wLength then windowDone (busError s .usb (requestAddr wValue wIndex) 2 true) [] true
    else
      windowWrite s (requestAddr wValue wIndex) (data.take (wLength.toNat / 4)))

end Sys2Proof.Machine
end

