-- ==== Sys2Proof/Machine/Dispatch.lean ====
section
/-! DEFINITION. The dispatch of a command to its meaning, one arm for each row of the opcode table. -/

namespace Sys2Proof.Machine

/-- The effect of a command on everything but the queue of waiting commands. -/
def exec (i : Instr) (s : State) : Host.Outcome State Fault Refusal :=
  match i with
  | .coldReset => Sys2Proof.Machine.execColdReset s
  | .supplyMonitorReset rail => Sys2Proof.Machine.execSupplyMonitorReset rail s
  | .junctionHot tj => Sys2Proof.Machine.execJunctionHot tj s
  | .junctionTrip => Sys2Proof.Machine.execJunctionTrip s
  | .nresetLow => Sys2Proof.Machine.execNresetLow s
  | .nresetRelease => Sys2Proof.Machine.execNresetRelease s
  | .survoWatchdog => Sys2Proof.Machine.execSurvoWatchdog s
  | .fastDomainResetRelease straps => Sys2Proof.Machine.execFastDomainResetRelease straps s
  | .bootRomRun a b => Sys2Proof.Machine.execBootRomRun a b s
  | .recWrite offset data => Sys2Proof.Machine.execRecWrite offset data s
  | .recBoot => Sys2Proof.Machine.execRecBoot s
  | .recStatus => Sys2Proof.Machine.execRecStatus s
  | .bbtLoaded a b => Sys2Proof.Machine.execBbtLoaded a b s
  | .quietPeriodEnd => Sys2Proof.Machine.execQuietPeriodEnd s
  | .podDiscovery reads => Sys2Proof.Machine.execPodDiscovery reads s
  | .ready => Sys2Proof.Machine.execReady s
  | .usbPullupEnable => Sys2Proof.Machine.execUsbPullupEnable s
  | .vbusChange high => Sys2Proof.Machine.execVbusChange high s
  | .usbDetach cause => Sys2Proof.Machine.execUsbDetach cause s
  | .hsChirpTimeout => Sys2Proof.Machine.execHsChirpTimeout s
  | .superspeedFallback => Sys2Proof.Machine.execSuperspeedFallback s
  | .usbSuspend => Sys2Proof.Machine.execUsbSuspend s
  | .usbResume busReset => Sys2Proof.Machine.execUsbResume busReset s
  | .remoteWakeup => Sys2Proof.Machine.execRemoteWakeup s
  | .bulkOutFrame ep words => Sys2Proof.Machine.execBulkOutFrame ep words s
  | .bulkOutPartialFrame ep => Sys2Proof.Machine.execBulkOutPartialFrame ep s
  | .bulkInContainer ep => Sys2Proof.Machine.execBulkInContainer ep s
  | .clearFeatureEndpointHalt halt => Sys2Proof.Machine.execClearFeatureEndpointHalt halt s
  | .usbRegRead wValue wIndex wLength => Sys2Proof.Machine.execUsbRegRead wValue wIndex wLength s
  | .usbRegWrite wValue wIndex wLength data => Sys2Proof.Machine.execUsbRegWrite wValue wIndex wLength data s
  | .twBootStatusRead count => Sys2Proof.Machine.execTwBootStatusRead count s
  | .twPreReadyWrite => Sys2Proof.Machine.execTwPreReadyWrite s
  | .twPointerWrite p2 p1 p0 => Sys2Proof.Machine.execTwPointerWrite p2 p1 p0 s
  | .twWordWrite data => Sys2Proof.Machine.execTwWordWrite data s
  | .twWordRead => Sys2Proof.Machine.execTwWordRead s
  | .twStretchTimeout => Sys2Proof.Machine.execTwStretchTimeout s
  | .twAddressWake => Sys2Proof.Machine.execTwAddressWake s
  | .twArbitrationLoss winner => Sys2Proof.Machine.execTwArbitrationLoss winner s
  | .twControllerTimeout => Sys2Proof.Machine.execTwControllerTimeout s
  | .twStuck => Sys2Proof.Machine.execTwStuck s
  | .alertSend out => Sys2Proof.Machine.execAlertSend out s
  | .alertWaitExpiry => Sys2Proof.Machine.execAlertWaitExpiry s
  | .backoffExpiry out => Sys2Proof.Machine.execBackoffExpiry out s
  | .podPresencePoll p read => Sys2Proof.Machine.execPodPresencePoll p read s
  | .overdriveOnset p d => Sys2Proof.Machine.execOverdriveOnset p d s
  | .stuckWindowExpiry n p d => Sys2Proof.Machine.execStuckWindowExpiry n p d s
  | .clkIdleTimeout n => Sys2Proof.Machine.execClkIdleTimeout n s
  | .sampleVector n window pods => Sys2Proof.Machine.execSampleVector n window pods s
  | .overrunResume n => Sys2Proof.Machine.execOverrunResume n s
  | .skeinBoundary n => Sys2Proof.Machine.execSkeinBoundary n s
  | .segmentedRearm n => Sys2Proof.Machine.execSegmentedRearm n s
  | .skeinEnd n => Sys2Proof.Machine.execSkeinEnd n s
  | .parityScrub upsets => Sys2Proof.Machine.execParityScrub upsets s
  | .registerWrite path addr data => Sys2Proof.Machine.execRegisterWrite path addr data s
  | .crossDomainAccess path addr data => Sys2Proof.Machine.execCrossDomainAccess path addr data s
  | .setAliasWrite path addr data => Sys2Proof.Machine.execSetAliasWrite path addr data s
  | .clearAliasWrite path addr data => Sys2Proof.Machine.execClearAliasWrite path addr data s
  | .toggleAliasWrite path addr data => Sys2Proof.Machine.execToggleAliasWrite path addr data s
  | .accumulatorLoRead path addr => Sys2Proof.Machine.execAccumulatorLoRead path addr s
  | .accumulatorLoWrite path addr data => Sys2Proof.Machine.execAccumulatorLoWrite path addr data s
  | .accumulatorHiWrite path addr data => Sys2Proof.Machine.execAccumulatorHiWrite path addr data s
  | .qWrLo path q data => Sys2Proof.Machine.execQWrLo path q data s
  | .qWrHi path q data => Sys2Proof.Machine.execQWrHi path q data s
  | .qWrHim path q data => Sys2Proof.Machine.execQWrHim path q data s
  | .queuePushComplete q => Sys2Proof.Machine.execQueuePushComplete q s
  | .wlockTimeout q => Sys2Proof.Machine.execWlockTimeout q s
  | .qRdLo path q => Sys2Proof.Machine.execQRdLo path q s
  | .queueFlush path q => Sys2Proof.Machine.execQueueFlush path q s
  | .commandFrameTimeout st => Sys2Proof.Machine.execCommandFrameTimeout st s
  | .cmdDiscarded st => Sys2Proof.Machine.execCmdDiscarded st s
  | .commandDeadline st tag elapsed => Sys2Proof.Machine.execCommandDeadline st tag elapsed s
  | .responseBacklogWrite st => Sys2Proof.Machine.execResponseBacklogWrite st s
  | .benchOpen c => Sys2Proof.Machine.execBenchOpen c s
  | .benchClose c => Sys2Proof.Machine.execBenchClose c s
  | .benchReset c => Sys2Proof.Machine.execBenchReset c s
  | .benchResetComplete n => Sys2Proof.Machine.execBenchResetComplete n s
  | .benchStatus c => Sys2Proof.Machine.execBenchStatus c s
  | .capsQuery c => Sys2Proof.Machine.execCapsQuery c s
  | .accountsQuery c => Sys2Proof.Machine.execAccountsQuery c s
  | .benchControlEnable c => Sys2Proof.Machine.execBenchControlEnable c s
  | .benchControlReset c => Sys2Proof.Machine.execBenchControlReset c s
  | .benchControlClose c => Sys2Proof.Machine.execBenchControlClose c s
  | .podAssign c => Sys2Proof.Machine.execPodAssign c s
  | .plyMembership c => Sys2Proof.Machine.execPlyMembership c s
  | .feSetPod c => Sys2Proof.Machine.execFeSetPod c s
  | .feSetMode c => Sys2Proof.Machine.execFeSetMode c s
  | .feQuery c => Sys2Proof.Machine.execFeQuery c s
  | .feHealth c => Sys2Proof.Machine.execFeHealth c s
  | .feHealthTest c fails => Sys2Proof.Machine.execFeHealthTest c fails s
  | .feDeskew c => Sys2Proof.Machine.execFeDeskew c s
  | .trgSetLevel c => Sys2Proof.Machine.execTrgSetLevel c s
  | .trgSetResource c => Sys2Proof.Machine.execTrgSetResource c s
  | .trgQuery c => Sys2Proof.Machine.execTrgQuery c s
  | .trgForce c => Sys2Proof.Machine.execTrgForce c s
  | .relayEnable c => Sys2Proof.Machine.execRelayEnable c s
  | .capArm c => Sys2Proof.Machine.execCapArm c s
  | .capStop c => Sys2Proof.Machine.execCapStop c s
  | .capConfig c => Sys2Proof.Machine.execCapConfig c s
  | .sknList c => Sys2Proof.Machine.execSknList c s
  | .sknRead c => Sys2Proof.Machine.execSknRead c s
  | .sknDelete c => Sys2Proof.Machine.execSknDelete c s
  | .bobbinLend c => Sys2Proof.Machine.execBobbinLend c s
  | .cmpConfig c => Sys2Proof.Machine.execCmpConfig c s
  | .cmpExport c => Sys2Proof.Machine.execCmpExport c s
  | .cmpVerify c => Sys2Proof.Machine.execCmpVerify c s
  | .cmpFlush c => Sys2Proof.Machine.execCmpFlush c s
  | .cmpQuery c => Sys2Proof.Machine.execCmpQuery c s
  | .cmpSnFlushWrite path n data => Sys2Proof.Machine.execCmpSnFlushWrite path n data s
  | .autoflushExpiry n => Sys2Proof.Machine.execAutoflushExpiry n s
  | .blockEnd e checkOk => Sys2Proof.Machine.execBlockEnd e checkOk s
  | .cmpStreamStop n cause => Sys2Proof.Machine.execCmpStreamStop n cause s
  | .cmpStreamResume n => Sys2Proof.Machine.execCmpStreamResume n s
  | .slQuery c => Sys2Proof.Machine.execSlQuery c s
  | .slStream c => Sys2Proof.Machine.execSlStream c s
  | .slRead c => Sys2Proof.Machine.execSlRead c s
  | .slFormat c => Sys2Proof.Machine.execSlFormat c s
  | .slScrub c => Sys2Proof.Machine.execSlScrub c s
  | .slBbtRead c => Sys2Proof.Machine.execSlBbtRead c s
  | .pageProgramDone lane => Sys2Proof.Machine.execPageProgramDone lane s
  | .programStatusFail fail => Sys2Proof.Machine.execProgramStatusFail fail s
  | .eraseStatusFail lane block => Sys2Proof.Machine.execEraseStatusFail lane block s
  | .uncorrectableRead lane block read => Sys2Proof.Machine.execUncorrectableRead lane block read s
  | .nandBusyTimeout lane op block => Sys2Proof.Machine.execNandBusyTimeout lane op block s
  | .retentionScrub lane pages => Sys2Proof.Machine.execRetentionScrub lane pages s
  | .wearLevelRelocation lane => Sys2Proof.Machine.execWearLevelRelocation lane s
  | .readDisturbRelocation lane block => Sys2Proof.Machine.execReadDisturbRelocation lane block s
  | .relocationComplete lane => Sys2Proof.Machine.execRelocationComplete lane s
  | .searchJob c => Sys2Proof.Machine.execSearchJob c s
  | .decodeJob c => Sys2Proof.Machine.execDecodeJob c s
  | .jobCancel c => Sys2Proof.Machine.execJobCancel c s
  | .engQuery c => Sys2Proof.Machine.execEngQuery c s
  | .plyConfig c => Sys2Proof.Machine.execPlyConfig c s
  | .regulatorSet c => Sys2Proof.Machine.execRegulatorSet c s
  | .umpireChoice e => Sys2Proof.Machine.execUmpireChoice e s
  | .rallyExpiry e contextOk => Sys2Proof.Machine.execRallyExpiry e contextOk s
  | .jobBlockedTimeout e => Sys2Proof.Machine.execJobBlockedTimeout e s
  | .jobStepEnd e => Sys2Proof.Machine.execJobStepEnd e s
  | .regulatorRefill => Sys2Proof.Machine.execRegulatorRefill s
  | .iuConfig c => Sys2Proof.Machine.execIuConfig c s
  | .iuMeasure c => Sys2Proof.Machine.execIuMeasure c s
  | .iuCalibrate c => Sys2Proof.Machine.execIuCalibrate c s
  | .iuQuery c => Sys2Proof.Machine.execIuQuery c s
  | .iuSetAge c => Sys2Proof.Machine.execIuSetAge c s
  | .iuCtrlGo path => Sys2Proof.Machine.execIuCtrlGo path s
  | .iuCtrlCalGo path => Sys2Proof.Machine.execIuCtrlCalGo path s
  | .iuStartEdge src falling coarse code => Sys2Proof.Machine.execIuStartEdge src falling coarse code s
  | .iuStopEdge src falling coarse code => Sys2Proof.Machine.execIuStopEdge src falling coarse code s
  | .iuMeasurementEnd => Sys2Proof.Machine.execIuMeasurementEnd s
  | .iuCalibrationEnd hits => Sys2Proof.Machine.execIuCalibrationEnd hits s
  | .iuTempUpdate temp => Sys2Proof.Machine.execIuTempUpdate temp s
  | .twConfig c => Sys2Proof.Machine.execTwConfig c s
  | .twAlertRead c => Sys2Proof.Machine.execTwAlertRead c s
  | .twXfer c outs => Sys2Proof.Machine.execTwXfer c outs s
  | .twQuery c => Sys2Proof.Machine.execTwQuery c s
  | .twAlertRdLoRead path => Sys2Proof.Machine.execTwAlertRdLoRead path s
  | .calSet c => Sys2Proof.Machine.execCalSet c s
  | .calGet c => Sys2Proof.Machine.execCalGet c s
  | .calCommit path data => Sys2Proof.Machine.execCalCommit path data s
  | .calendarReadLatch path lin => Sys2Proof.Machine.execCalendarReadLatch path lin s
  | .calendarDateChange => Sys2Proof.Machine.execCalendarDateChange s
  | .fltList c => Sys2Proof.Machine.execFltList c s
  | .refInservice c => Sys2Proof.Machine.execRefInservice c s
  | .refTest c => Sys2Proof.Machine.execRefTest c s
  | .refReturn c => Sys2Proof.Machine.execRefReturn c s
  | .refTestCtlGo path => Sys2Proof.Machine.execRefTestCtlGo path s
  | .refereeTestStart type => Sys2Proof.Machine.execRefereeTestStart type s
  | .refereeVerdict type pass => Sys2Proof.Machine.execRefereeVerdict type pass s
  | .sramEcc bank double => Sys2Proof.Machine.execSramEcc bank double s
  | .engHang e => Sys2Proof.Machine.execEngHang e s
  | .resourceRejoin res => Sys2Proof.Machine.execResourceRejoin res s
  | .rplRecord c => Sys2Proof.Machine.execRplRecord c s
  | .rplRecordDelete c => Sys2Proof.Machine.execRplRecordDelete c s
  | .rplRun c => Sys2Proof.Machine.execRplRun c s
  | .rplStatus c => Sys2Proof.Machine.execRplStatus c s
  | .rplStop c => Sys2Proof.Machine.execRplStop c s
  | .replayLogProgram => Sys2Proof.Machine.execReplayLogProgram s
  | .recorderGap => Sys2Proof.Machine.execRecorderGap s
  | .replayInject => Sys2Proof.Machine.execReplayInject s
  | .replayMissing source => Sys2Proof.Machine.execReplayMissing source s
  | .replayEnd => Sys2Proof.Machine.execReplayEnd s
  | .powerEnter c => Sys2Proof.Machine.execPowerEnter c s
  | .pwrEnterWrite path data => Sys2Proof.Machine.execPwrEnterWrite path data s
  | .powerEntryStart => Sys2Proof.Machine.execPowerEntryStart s
  | .powerQuery c => Sys2Proof.Machine.execPowerQuery c s
  | .dstSetRules c => Sys2Proof.Machine.execDstSetRules c s
  | .dstSetInputs c => Sys2Proof.Machine.execDstSetInputs c s
  | .dstReadLog c => Sys2Proof.Machine.execDstReadLog c s
  | .dstReadLogConsume c => Sys2Proof.Machine.execDstReadLogConsume c s
  | .dstCounters c => Sys2Proof.Machine.execDstCounters c s
  | .dstLogRptrWrite path data => Sys2Proof.Machine.execDstLogRptrWrite path data s
  | .distaffEdgeLatch w falling => Sys2Proof.Machine.execDistaffEdgeLatch w falling s
  | .distaffTick mv => Sys2Proof.Machine.execDistaffTick mv s
  | .wakeTimerMatch => Sys2Proof.Machine.execWakeTimerMatch s
  | .wakeComplete => Sys2Proof.Machine.execWakeComplete s
  | .adminOpen c => Sys2Proof.Machine.execAdminOpen c s
  | .adminClose c => Sys2Proof.Machine.execAdminClose c s
  | .adminSessionTimeout => Sys2Proof.Machine.execAdminSessionTimeout s
  | .setCredential c => Sys2Proof.Machine.execSetCredential c s
  | .setCredentialClear c => Sys2Proof.Machine.execSetCredentialClear c s
  | .openBenchEnter c => Sys2Proof.Machine.execOpenBenchEnter c s
  | .openBenchLeave c => Sys2Proof.Machine.execOpenBenchLeave c s
  | .regLogRead c => Sys2Proof.Machine.execRegLogRead c s
  | .regRead c => Sys2Proof.Machine.execRegRead c s
  | .regWrite c => Sys2Proof.Machine.execRegWrite c s
  | .fwLoadBegin c => Sys2Proof.Machine.execFwLoadBegin c s
  | .fwLoadData c => Sys2Proof.Machine.execFwLoadData c s
  | .fwLoadCommit c programOk verifyOk => Sys2Proof.Machine.execFwLoadCommit c programOk verifyOk s
  | .partReset c => Sys2Proof.Machine.execPartReset c s
  | .supplyRise rail => Sys2Proof.Machine.execSupplyRise rail s
  | .junctionTripRelease => Sys2Proof.Machine.execJunctionTripRelease s
  | .queueWordFall q fall => Sys2Proof.Machine.execQueueWordFall q fall s
  | .twBusStop partialBytes => Sys2Proof.Machine.execTwBusStop partialBytes s
  | .usbEnumeration superSpeed req => Sys2Proof.Machine.execUsbEnumeration superSpeed req s
  | .overdriveEnd p d => Sys2Proof.Machine.execOverdriveEnd p d s
  | .eventBacklogWrite n => Sys2Proof.Machine.execEventBacklogWrite n s
  | .badOpcodeCommand opcode c => Sys2Proof.Machine.execBadOpcodeCommand opcode c s

end Sys2Proof.Machine
end

