-- ==== Sys2Proof/Machine/Tick.lean ====
section
/-! DEFINITION. What the block does while no command waits. -/

namespace Sys2Proof.Machine

/-- One base tick of SCLK passes while the fast clocks run (R77, R79); with them stopped nothing happens.  The reset that a
PART_RESET has announced takes place when it is due (R366), the boot ROM runs from its time on (R129), and a firmware commit in progress
takes its next step (R361). -/
def idleTick (s : State) : State :=
  if s.live then partResetDue (romDue (commitStep { s with power := { s.power with baseTick := (s.power.baseTick + 1) % 2 ^ 56 } })) else s

end Sys2Proof.Machine
end

