-- ==== Sys2Proof/Safety.lean ====
section
/-! DEFINITION. What counts as a safe step, and the properties of a state that every step keeps. -/

namespace Sys2Proof

/-- The command completes: `exec` answers a next state. -/
def Completes (i : Instr) (s : Machine.State) : Prop := ∃ t, Machine.exec i s = .next t

/-- A step is safe: it answers a next state. -/
def StepSafe (s : Machine.State) : Prop := ∃ t, Machine.step s = .next t

namespace Machine

/-- Every array of the A9 (registers stored and in effect, paths, queues, benches, pods, streams, engines, lanes) is in the canonical
form of `Store.wf`, so that equal contents are equal data. -/
def Canonical (s : State) : Prop :=
  s.regs.wf regDefault = true ∧ s.act.wf regDefault = true ∧ s.paths.wf PathState.init = true ∧
  s.queues.wf Queue.init = true ∧ s.sessions.wf Session.init = true ∧ s.seqs.wf Sequencer.init = true ∧
  s.caps.wf Capture.init = true ∧ s.cmps.wf CmpStream.init = true ∧ s.pods.wf Pod.init = true ∧
  s.streams.wf CmdStream.init = true ∧ s.engines.wf Engine.init = true ∧ s.lanes.wf Lane.init = true

/-- The calendar's fields lie in the ranges in which it counts (R791, R792). -/
def Calendar.InRange (c : Calendar) : Prop :=
  c.year ≤ 199 ∧ 1 ≤ c.month ∧ c.month ≤ 12 ∧ 1 ≤ c.day ∧ c.day ≤ monthDays c.year c.month ∧ c.hour ≤ 23 ∧ c.minute ≤ 59 ∧
  c.second ≤ 59 ∧ c.sub ≤ 32767

/-- What every command keeps: the fixed data of the part, the queue of waiting commands, the canonical form of the arrays, and the
ranges of the calendar's fields. -/
def Kept (s t : State) : Prop :=
  t.part = s.part ∧ t.pending = s.pending ∧ (Canonical s → Canonical t) ∧ (s.cal.InRange → t.cal.InRange)

end Machine

end Sys2Proof
end

