-- ==== Sys2Proof/WellFormed.lean ====
section
/-! DEFINITION. Which operands the surroundings of the A9 can bring: the checks that a command of the model meets when it stands
for something that can happen at the pins.  The meanings do not ask for them; statements may. -/

namespace Sys2Proof

/-- LEN has 8 bits (R266). -/
def Cmd.wf (c : Cmd) : Bool := decide (c.payload.length ≤ 255)

/-- Steps come in the order of their times. -/
def stepsRise : List (Int × Int) → Bool
  | x :: y :: rest => decide (x.1 < y.1) && stepsRise (y :: rest)
  | _ => true

/-- A pod has 32 data balls, and each ball's steps come in order. -/
def podInputWf (x : PodInput) : Bool :=
  decide (x.data.length = 32) && x.data.all (fun b => stepsRise b.steps) && stepsRise x.clk.steps

/-- A pod's EEPROM gives 32 bytes (R146). -/
def podReadWf : PodRead → Bool
  | .bytes k b => decide (b.length = 32) && decide (k < 4)
  | .absent k => decide (k < 4)
  | .lost => true

/-- A lane has four chip enables, each with at most three copies of its parameter page (R541, R542). -/
def laneProbeWf (p : LaneProbe) : Bool := decide (p.ce.length = 4) && p.ce.all fun c => decide (c.length ≤ 3)

/-- A page has at most 16 codewords (R549). -/
def pageReadWf (r : PageRead) : Bool := decide (r.words.length ≤ 16)

/-- A read reports bytes up to the 32 that a transfer reads (R721). -/
def xferOutWf : XferOut → Bool
  | .done rd => decide (rd.length ≤ 32)
  | .nack n => decide (n ≤ 32)
  | .lost => true
  | .timeout => true

/-- The coarse count at an edge has 40 bits (R653). -/
def coarseWf (coarse : Nat) : Bool := decide (coarse < 2 ^ 40)

/-- The operands of a command are ones that can occur. -/
def WellFormed (i : Instr) : Bool :=
  match i with
  | .recWrite _ data => !data.isEmpty
  | .bbtLoaded a b => laneProbeWf a && laneProbeWf b
  | .podDiscovery reads => decide (reads.length ≤ 8) && reads.all podReadWf
  | .bulkOutFrame _ words => decide (words.length = 16)
  | .usbRegWrite _ _ wLength data => decide (data.length = wLength.toNat / 4)
  | .twBootStatusRead count => decide (1 ≤ count)
  | .alertSend out => xferOutWf out
  | .backoffExpiry out => xferOutWf out
  | .podPresencePoll _ read => podReadWf read
  | .sampleVector _ _ pods => decide (pods.length = 8) && pods.all podInputWf
  | .parityScrub upsets => upsets.all fun u => decide (u.addr % 4 = 0)
  | .iuStartEdge _ _ coarse _ => coarseWf coarse
  | .iuStopEdge _ _ coarse _ => coarseWf coarse
  | .iuCalibrationEnd hits => decide (hits.length = 1024)
  | .twXfer c outs => c.wf && decide (outs.length ≤ 5) && outs.all xferOutWf
  | .twBusStop partialBytes => decide (partialBytes.length ≤ 4)
  | .badOpcodeCommand _ c => c.wf
  | .coldReset => true
  | .supplyMonitorReset _ => true
  | .junctionHot _ => true
  | .junctionTrip => true
  | .nresetLow => true
  | .nresetRelease => true
  | .survoWatchdog => true
  | .fastDomainResetRelease _ => true
  | .bootRomRun _ _ => true
  | .recBoot => true
  | .recStatus => true
  | .quietPeriodEnd => true
  | .ready => true
  | .usbPullupEnable => true
  | .vbusChange _ => true
  | .usbDetach _ => true
  | .hsChirpTimeout => true
  | .superspeedFallback => true
  | .usbSuspend => true
  | .usbResume _ => true
  | .remoteWakeup => true
  | .bulkOutPartialFrame _ => true
  | .bulkInContainer _ => true
  | .clearFeatureEndpointHalt _ => true
  | .usbRegRead _ _ _ => true
  | .twPreReadyWrite => true
  | .twPointerWrite _ _ _ => true
  | .twWordWrite _ => true
  | .twWordRead => true
  | .twStretchTimeout => true
  | .twAddressWake => true
  | .twArbitrationLoss _ => true
  | .twControllerTimeout => true
  | .twStuck => true
  | .alertWaitExpiry => true
  | .overdriveOnset _ _ => true
  | .stuckWindowExpiry _ _ _ => true
  | .clkIdleTimeout _ => true
  | .overrunResume _ => true
  | .skeinBoundary _ => true
  | .segmentedRearm _ => true
  | .skeinEnd _ => true
  | .registerWrite _ _ _ => true
  | .crossDomainAccess _ _ _ => true
  | .setAliasWrite _ _ _ => true
  | .clearAliasWrite _ _ _ => true
  | .toggleAliasWrite _ _ _ => true
  | .accumulatorLoRead _ _ => true
  | .accumulatorLoWrite _ _ _ => true
  | .accumulatorHiWrite _ _ _ => true
  | .qWrLo _ _ _ => true
  | .qWrHi _ _ _ => true
  | .qWrHim _ _ _ => true
  | .queuePushComplete _ => true
  | .wlockTimeout _ => true
  | .qRdLo _ _ => true
  | .queueFlush _ _ => true
  | .commandFrameTimeout _ => true
  | .cmdDiscarded _ => true
  | .commandDeadline _ _ _ => true
  | .responseBacklogWrite _ => true
  | .benchOpen c => c.wf
  | .benchClose c => c.wf
  | .benchReset c => c.wf
  | .benchResetComplete _ => true
  | .benchStatus c => c.wf
  | .capsQuery c => c.wf
  | .accountsQuery c => c.wf
  | .benchControlEnable c => c.wf
  | .benchControlReset c => c.wf
  | .benchControlClose c => c.wf
  | .podAssign c => c.wf
  | .plyMembership c => c.wf
  | .feSetPod c => c.wf
  | .feSetMode c => c.wf
  | .feQuery c => c.wf
  | .feHealth c => c.wf
  | .feHealthTest c _ => c.wf
  | .feDeskew c => c.wf
  | .trgSetLevel c => c.wf
  | .trgSetResource c => c.wf
  | .trgQuery c => c.wf
  | .trgForce c => c.wf
  | .relayEnable c => c.wf
  | .capArm c => c.wf
  | .capStop c => c.wf
  | .capConfig c => c.wf
  | .sknList c => c.wf
  | .sknRead c => c.wf
  | .sknDelete c => c.wf
  | .bobbinLend c => c.wf
  | .cmpConfig c => c.wf
  | .cmpExport c => c.wf
  | .cmpVerify c => c.wf
  | .cmpFlush c => c.wf
  | .cmpQuery c => c.wf
  | .cmpSnFlushWrite _ _ _ => true
  | .autoflushExpiry _ => true
  | .blockEnd _ _ => true
  | .cmpStreamStop _ _ => true
  | .cmpStreamResume _ => true
  | .slQuery c => c.wf
  | .slStream c => c.wf
  | .slRead c => c.wf
  | .slFormat c => c.wf
  | .slScrub c => c.wf
  | .slBbtRead c => c.wf
  | .pageProgramDone _ => true
  | .programStatusFail _ => true
  | .eraseStatusFail _ _ => true
  | .uncorrectableRead _ _ read => decide (read.words.length ≤ 16)
  | .nandBusyTimeout _ _ _ => true
  | .retentionScrub _ pages => pages.all pageReadWf
  | .wearLevelRelocation _ => true
  | .readDisturbRelocation _ _ => true
  | .relocationComplete _ => true
  | .searchJob c => c.wf
  | .decodeJob c => c.wf
  | .jobCancel c => c.wf
  | .engQuery c => c.wf
  | .plyConfig c => c.wf
  | .regulatorSet c => c.wf
  | .umpireChoice _ => true
  | .rallyExpiry _ _ => true
  | .jobBlockedTimeout _ => true
  | .jobStepEnd _ => true
  | .regulatorRefill => true
  | .iuConfig c => c.wf
  | .iuMeasure c => c.wf
  | .iuCalibrate c => c.wf
  | .iuQuery c => c.wf
  | .iuSetAge c => c.wf
  | .iuCtrlGo _ => true
  | .iuCtrlCalGo _ => true
  | .iuMeasurementEnd => true
  | .iuTempUpdate _ => true
  | .twConfig c => c.wf
  | .twAlertRead c => c.wf
  | .twQuery c => c.wf
  | .twAlertRdLoRead _ => true
  | .calSet c => c.wf
  | .calGet c => c.wf
  | .calCommit _ _ => true
  | .calendarReadLatch _ _ => true
  | .calendarDateChange => true
  | .fltList c => c.wf
  | .refInservice c => c.wf
  | .refTest c => c.wf
  | .refReturn c => c.wf
  | .refTestCtlGo _ => true
  | .refereeTestStart _ => true
  | .refereeVerdict _ _ => true
  | .sramEcc _ _ => true
  | .engHang _ => true
  | .resourceRejoin _ => true
  | .rplRecord c => c.wf
  | .rplRecordDelete c => c.wf
  | .rplRun c => c.wf
  | .rplStatus c => c.wf
  | .rplStop c => c.wf
  | .replayLogProgram => true
  | .recorderGap => true
  | .replayInject => true
  | .replayMissing _ => true
  | .replayEnd => true
  | .powerEnter c => c.wf
  | .pwrEnterWrite _ _ => true
  | .powerEntryStart => true
  | .powerQuery c => c.wf
  | .dstSetRules c => c.wf
  | .dstSetInputs c => c.wf
  | .dstReadLog c => c.wf
  | .dstReadLogConsume c => c.wf
  | .dstCounters c => c.wf
  | .dstLogRptrWrite _ _ => true
  | .distaffEdgeLatch _ _ => true
  | .distaffTick mv => decide (mv.length = 16)
  | .wakeTimerMatch => true
  | .wakeComplete => true
  | .adminOpen c => c.wf
  | .adminClose c => c.wf
  | .adminSessionTimeout => true
  | .setCredential c => c.wf
  | .setCredentialClear c => c.wf
  | .openBenchEnter c => c.wf
  | .openBenchLeave c => c.wf
  | .regLogRead c => c.wf
  | .regRead c => c.wf
  | .regWrite c => c.wf
  | .fwLoadBegin c => c.wf
  | .fwLoadData c => c.wf
  | .fwLoadCommit c _ _ => c.wf
  | .partReset c => c.wf
  | .supplyRise _ => true
  | .junctionTripRelease => true
  | .queueWordFall _ _ => true
  | .usbEnumeration _ _ => true
  | .overdriveEnd _ _ => true
  | .eventBacklogWrite _ => true

end Sys2Proof
end

