-- ==== Sys2Proof/Certificates/Slice0/Obligations.lean ====
section
/-! DEFINITION. The statements about the A9: for every command, that it completes and with which next state; and the rules of the spec
that say what the machine as a whole does. -/

open Sys2Proof Sys2Proof.Machine

/-- The commands of a student's session complete once they pass the checks of R318: BENCH_OPEN opens or resumes the session and
answers R321's words; BENCH_CLOSE and BENCH_RESET start the bench reset whose end answers them (R297); the queries answer DONE with
their words, ACCOUNTS_QUERY with RESTART closing the account first. Derived from R28, R321 to R324, R326, R327, R329, R630. -/
def Obligations.SessionGroupComplete : Prop :=
  (∀ (s : State) (c : Cmd),
    (checksPass s infoBenchOpen c (meanBenchOpen c) = true →
      exec (.benchOpen c) s = .next (
        let t := takeCommand s 0x0101 c
        let u := if c.resume then resumeSession t c.bench.toNat c.via (BitVec.ofNat 16 (pf c 2 15 0))
          else openSession t c.bench.toNat c.via (BitVec.ofNat 16 (pf c 2 15 0))
        respond u 0x0101 c .done 0 (openWords u c.bench.toNat))) ∧
    (checksPass s infoBenchClose c (meanBenchClose c) = true →
      exec (.benchClose c) s = .next (startReset (takeCommand s 0x0102 c) c.bench.toNat true (some (0x0102, c)))) ∧
    (checksPass s infoBenchReset c (meanBenchReset c) = true →
      exec (.benchReset c) s = .next (startReset (takeCommand s 0x0103 c) c.bench.toNat false (some (0x0103, c))))) ∧
  (∀ (s : State) (c : Cmd),
    (checksPass s infoBenchStatus c (meanBenchStatus c) = true →
      exec (.benchStatus c) s = .next (
        let t := takeCommand s 0x0104 c
        respond t 0x0104 c .done 0 (benchStatusWords t (pf c 2 3 0)))) ∧
    (checksPass s infoCapsQuery c (meanCapsQuery c) = true →
      exec (.capsQuery c) s = .next (
        let t := takeCommand s 0x0105 c
        respond t 0x0105 c .done 0 (capsWords t))) ∧
    (checksPass s infoAccountsQuery c (meanAccountsQuery c) = true →
      exec (.accountsQuery c) s = .next (
        let t := takeCommand s 0x0106 c
        let u := if bitB (pw c 2) 9 then closeAccount t (pf c 2 3 0) else t
        respond u 0x0106 c .done 0 (
          if bitB (pw c 2) 9 || bitB (pw c 2) 8 then finalWords u (pf c 2 3 0) else u.accountWords (pf c 2 3 0) false))))

/-- The administrator's commands over benches complete: BENCH_CONTROL writes ENABLED, or starts the reset or the close of its
target; POD_ASSIGN moves the pods in steps, values that only remove pods first and once these are in effect those that add pods, and
answers DONE once every value is in effect; PLY_MEMBERSHIP stages the plies of every bench and engine and answers. Derived from
R185, R333 to R341. -/
def Obligations.BenchAssignmentCompletes : Prop :=
  (∀ (s : State) (c : Cmd), checksPass s infoBenchControl c (meanBenchControl c) = true →
    (pf c 2 5 4 = 0 →
      exec (.benchControlEnable c) s = .next (
        let t := takeCommand s 0x0110 c
        respond (t.wrFld .bnCtrl (pf c 2 3 0) 0 1 1 (pf c 2 8 8)) 0x0110 c .done 0 [])) ∧
    (pf c 2 5 4 = 1 →
      exec (.benchControlReset c) s = .next (startReset (takeCommand s 0x0110 c) (pf c 2 3 0) false (some (0x0110, c)))) ∧
    (pf c 2 5 4 = 2 →
      exec (.benchControlClose c) s = .next (startReset (takeCommand s 0x0110 c) (pf c 2 3 0) true (some (0x0110, c))))) ∧
  (∀ (s : State) (c : Cmd),
    (checksPass s infoPodAssign c (meanPodAssign c) = true →
      let t := takeCommand s 0x0111 c
      let t := { t with fw := { t.fw with assign := some c } }
      let u := t.each t.benchList fun s n => writePods s n (s.podsOf n &&& podByte c n)
      let v := u.each u.benchList fun s n => writePods s n (podByte c n)
      (u.fw.assign = some c ∧ v.fw.assign = some c) ∧
      ((∃ n ∈ u.benchList, u.podsOf n &&& podByte c n ≠ u.podsOf n) → exec (.podAssign c) s = .next u) ∧
      ((∀ n ∈ u.benchList, u.podsOf n &&& podByte c n = u.podsOf n) →
        ((∀ n ∈ v.benchList, v.podsOf n = podByte c n) →
          exec (.podAssign c) s = .next (respond { v with fw := { v.fw with assign := none } } 0x0111 c .done 0 [] v.isReplaying)) ∧
        ((∃ n ∈ v.benchList, v.podsOf n ≠ podByte c n) → exec (.podAssign c) s = .next v))) ∧
    (checksPass s infoPlyMembership c (meanPlyMembership c) = true →
      exec (.plyMembership c) s = .next (
        let t := takeCommand s 0x0112 c
        let u := t.each t.benchList fun s n => s.wrFld .bnOwn n 0 9 8 (pf c 2 (2 * n + 1) (2 * n))
        let v := u.each u.engineList fun s e => s.wrFld .engCfg e 0 5 4 (pf c 3 (2 * e + 1) (2 * e))
        respond (settleRallyAll v) 0x0112 c .done 0 [])))

/-- Administration completes: a session opens and ends, Open Bench mode changes after the response, and SET_CREDENTIAL stores the
hash of the 16 bytes, with CLEAR none, in the registers' domain and, on a member with lanes, in both copies of the configuration
record on SLA; where SLA is out of service, or neither copy can be programmed, the answer is RETIRED and the credential stays as it
was. Derived from R37, R342 to R350. -/
def Obligations.AdministrationCompletes : Prop :=
  (∀ (s : State) (c : Cmd),
    (checksPass s infoAdminOpen c (meanAdminOpen c) = true →
      exec (.adminOpen c) s = .next (
        let t := takeCommand s 0x0E01 c
        respond { t with fw := { t.fw with admin := some (streamVia c) } } 0x0E01 c .done 0 [])) ∧
    (checksPass s infoAdminClose c (meanAdminClose c) = true →
      exec (.adminClose c) s = .next (respond (endAdmin (takeCommand s 0x0E02 c)) 0x0E02 c .done 0 [])) ∧
    (s.survoRuns = true → exec .adminSessionTimeout s = .next (endAdmin s)) ∧
    (checksPass s infoOpenBenchEnter c (meanOpenBenchEnter c) = true →
      exec (.openBenchEnter c) s = .next (setOpenMode (respond (takeCommand s 0x0E10 c) 0x0E10 c .done 0 []) true)) ∧
    (checksPass s infoOpenBenchLeave c (meanOpenBenchLeave c) = true →
      exec (.openBenchLeave c) s = .next (setOpenMode (respond (takeCommand s 0x0E11 c) 0x0E11 c .done 0 []) false))) ∧
  (∀ (s : State) (c : Cmd), checksPass s infoSetCredential c (meanSetCredential c) = true →
    let t := takeCommand s 0x0E03 c
    let h := if bitB (pw c 6) 0 then none else some (sha256 (credBytes c))
    let w := writeRecord t fun x => { x with hash := h }
    let setHash (u : State) : State := { u with fw := { u.fw with credHash := h } }
    exec (.setCredentialClear c) s = exec (.setCredential c) s ∧
    (t.member.lanes = 0 → exec (.setCredential c) s = .next (respond (setHash t) 0x0E03 c .done 0 [])) ∧
    (0 < t.member.lanes → t.laneServes 0 = false →
      exec (.setCredential c) s = .next (respond t 0x0E03 c .retired (t.retireCode (resLane 0)) [])) ∧
    (0 < t.member.lanes → t.laneServes 0 = true →
      (w.1 = true → exec (.setCredential c) s = .next (respond (setHash w.2) 0x0E03 c .done 0 [])) ∧
      (w.1 = false → exec (.setCredential c) s = .next (respond w.2 0x0E03 c .retired 0x0501 []))) ∧
    (w.1 = true ↔ ¬ ((t.lane 0).sysFail.testBit 0 = true ∧ (t.lane 0).sysFail.testBit 1 = true)) ∧
    (w.1 = false → w.2.fw.credHash = t.fw.credHash))

/-- Register access and firmware loading by mailbox complete. Derived from R351 to R366. -/
def Obligations.RegisterMailboxComplete : Prop :=
  ∀ (s : State) (c : Cmd),
    (checksPass s infoRegLogRead c (meanRegLogRead c) = true →
      exec (.regLogRead c) s = .next (
        let t := takeCommand s 0x0E12 c
        let es := (t.fw.writes.drop (pf c 2 9 0)).take (pf c 2 21 16)
        respond t 0x0E12 c .done 0 (W t.fw.writes.length :: W t.fw.writesEntered :: es.flatMap WriteEntry.words))) ∧
    (checksPass s infoRegRead c (meanRegRead c) = true →
      let d := readMany (takeCommand s 0x0E13 c) (regReadAddrs c)
      (d.2.1 = false → exec (.regRead c) s = .next (respond d.2.2 0x0E13 c .done 0 d.1)) ∧
      (d.2.1 = true → exec (.regRead c) s = .next (respond d.2.2 0x0E13 c .badArg 0 []))) ∧
    (checksPass s infoRegWrite c (meanRegWrite c) = true →
      let d := busWrite (takeCommand s 0x0E14 c) .survo (pf c 2 19 0) (pw c 3)
      (d.1 = 0 → exec (.regWrite c) s = .next (respond (logWrite d.2 .survo (pf c 2 19 0) (pw c 3)) 0x0E14 c .done 0 [])) ∧
      (d.1 ≠ 0 → exec (.regWrite c) s = .next (respond d.2 0x0E14 c .badArg 0 [])))

/-- Firmware loading completes: staging opens with COPY and SIZE, takes bytes at an offset; COMMIT answers ACCEPTED and starts the
commit, whose steps check the CRC and the image, then write and verify it, and complete the command; PART_RESET answers and plans
the reset. Derived from R357 to R366. -/
def Obligations.FirmwareCommandsComplete : Prop :=
  ∀ (s : State) (c : Cmd),
    (checksPass s infoFwLoadBegin c (meanFwLoadBegin c) = true →
      exec (.fwLoadBegin c) s = .next (
        let t := takeCommand s 0x0E20 c
        respond { t with fw := { t.fw with staging := some ⟨bitB (pw c 2) 0, (pw c 3).toNat, []⟩ } } 0x0E20 c .done 0 [])) ∧
    (checksPass s infoFwLoadData c (meanFwLoadData c) = true →
      exec (.fwLoadData c) s = .next (
        let t := takeCommand s 0x0E21 c
        let put (g : Staging) := g.write (pw c 2).toNat (bytesOfWords (c.payload.drop 1))
        respond { t with fw := { t.fw with staging := t.fw.staging.map put } } 0x0E21 c .done 0 [])) ∧
    (∀ programOk verifyOk : Bool,
      checksPass s infoFwLoadCommit c (meanFwLoadCommit c programOk verifyOk) = true →
      exec (.fwLoadCommit c programOk verifyOk) s = .next (
        let t := accept (takeCommand s 0x0E22 c) 0x0E22 c false
        { t with fw := { t.fw with
          commit := some { stream := c.stream, tag := c.tag, crc := pw c 2, programOk := programOk, verifyOk := verifyOk } } })) ∧
    (∀ (j : CommitJob) (g : Staging), s.fw.commit = some j → s.fw.staging = some g → s.survoRuns = true →
      (j.writing = false → commitStep s = match checkImage s g j.crc with
        | some (st, d) => endCommit s j st d
        | none => { s with fw := { s.fw with commit := some { j with writing := true } } }) ∧
      (j.writing = true →
        let k := writeImage s g j.programOk j.verifyOk
        commitStep s = endCommit k.2.2 j k.1 k.2.1)) ∧
    (checksPass s infoPartReset c (meanPartReset c) = true →
      exec (.partReset c) s = .next (
        let t := respond (takeCommand s 0x0E23 c) 0x0E23 c .done 0 []
        { t with fw := { t.fw with partReset := some (c.stream, t.power.baseTick + oneSecond / 200) } }))

/-- A frame whose opcode is not listed is answered BAD_OPCODE and changes nothing else (its stream counts it). Derived from R269,
R318. -/
def Obligations.BadOpcodeAnswered : Prop :=
  ∀ (s : State) (c : Cmd) (op : BitVec 16), (capabilityList s.member).contains op.toNat = false →
    s.survoRuns = true → s.isReady = true → isReplayTake s op c = false → streamBlocked s op c = false →
    (s.stream c.stream).early = 0 → streamResetting s c = false → checkFrame c = none →
    exec (.badOpcodeCommand op c) s = .next (respond (takeCommand s op c) op c .badOpcode 0 [])

/-- The front-end commands complete: the settings are staged in the bench's window (and apply at once where no boundary is in
prospect, R185), the queries answer their words. Derived from R376, R378, R388, R408. -/
def Obligations.FrontEndCommandsComplete : Prop :=
  ∀ (s : State) (c : Cmd),
    (checksPass s infoFeSetPod c (meanFeSetPod c) = true →
      exec (.feSetPod c) s = .next (
        respond (settleBench ((takeCommand s 0x0201 c).wr .fePod c.bench.toNat (pf c 2 2 0) (pw c 3)) c.bench.toNat)
          0x0201 c .done 0 [])) ∧
    (checksPass s infoFeSetMode c (meanFeSetMode c) = true →
      exec (.feSetMode c) s = .next (
        respond (settleBench ((takeCommand s 0x0202 c).wr .feMode c.bench.toNat 0 (pw c 2)) c.bench.toNat) 0x0202 c .done 0 [])) ∧
    (checksPass s infoFeQuery c (meanFeQuery c) = true →
      exec (.feQuery c) s = .next (
        let t := takeCommand s 0x0203 c
        respond t 0x0203 c .done 0 (feQueryWords t (pf c 2 3 0)))) ∧
    (checksPass s infoFeHealth c (meanFeHealth c none) = true → bitB (pw c 2) 8 = false →
      exec (.feHealth c) s = .next (
        let t := takeCommand s 0x0204 c
        respond t 0x0204 c .done 0 (feHealthWords t (pf c 2 3 0) (pf c 2 6 4) 0))) ∧
    (∀ fails : Word, checksPass s infoFeHealth c (meanFeHealth c (some fails)) = true → bitB (pw c 2) 8 = true →
      exec (.feHealthTest c fails) s = .next (
        let k := testPod (takeCommand s 0x0204 c) (pf c 2 6 4) fails
        respond k.2 0x0204 c .done 0 (feHealthWords k.2 (pf c 2 3 0) (pf c 2 6 4) k.1))) ∧
    (checksPass s infoFeDeskew c (meanFeDeskew c) = true →
      exec (.feDeskew c) s = .next (
        let t := takeCommand s 0x0205 c
        respond (stageRegs t c.bench.toNat ((List.range 4).map fun j => (.feDsk, 4 * pf c 2 2 0 + j, pw c (3 + j))))
          0x0205 c .done 0 []))

/-- The front end's own events complete: an onset or the end of overdrive, the stuck-at window, the clock monitor, the presence
poll. Derived from R385, R392 to R395, R399, R400. -/
def Obligations.FrontEndEventsComplete : Prop :=
  ∀ (s : State), s.live = true →
    (∀ (p : Fin 8) (d : Fin 32), bitB (s.pod p).ovd d = false → p.val < s.member.pods →
      let t := setOverdrive s p ((s.pod p).ovd ||| W (2 ^ d.val))
      (t.ownerOf p = none → exec (.overdriveOnset p d) s = .next t) ∧
      (∀ n, t.ownerOf p = some n → exec (.overdriveOnset p d) s = .next (
        let u := { t with fw := { t.fw with ovdNew := t.fw.ovdNew ++ [32 * p.val + d.val] } }
        if u.isReady then postOverdrive u p n else u))) ∧
    (∀ (p : Fin 8) (d : Fin 32),
      exec (.overdriveEnd p d) s = .next (s.setPod p { s.pod p with ovd := (s.pod p).ovd &&& ~~~ W (2 ^ d.val) })) ∧
    (∀ (n p : Fin 8) (d : Fin 32), s.capturing n = true → fld (s.rd .feCtrl n) 7 0 ≠ 0 → s.samples n p d = true →
      bitB (s.pod p).stuck d = false →
      (((s.cap n).lastTick / 8 = s.power.baseTick / 8 ∧ bitB (wordAt (s.cap n).changed p) d = true) →
        exec (.stuckWindowExpiry n p d) s = .next s) ∧
      (¬ ((s.cap n).lastTick / 8 = s.power.baseTick / 8 ∧ bitB (wordAt (s.cap n).changed p) d = true) →
        exec (.stuckWindowExpiry n p d) s = .next (
          let t := s.setPod p { s.pod p with stuck := (s.pod p).stuck ||| W (2 ^ d.val) }
          if bitB (t.rd .feCtrl n) 8 ∧ 32 * p.val + d.val ∉ t.ref.quiet then
            raiseFault { t with ref := { t.ref with
              asked := (32 * p.val + d.val, t.power.baseTick) :: t.ref.asked.filter fun a => a.1 != 32 * p.val + d.val } }
              (resChannel (32 * p.val + d.val)) 0x0101
          else t))) ∧
    (∀ n : Fin 8, s.capturing n = true → s.stateMode n = true →
      exec (.clkIdleTimeout n) s = .next (s.setCap n { s.cap n with clkIdle := true })) ∧
    (∀ (p : Fin 8) (r : PodRead), s.isReady = true → s.mayControl = true → p.val < s.member.pods → (s.pod p).present = false →
      exec (.podPresencePoll p r) s = .next (readPod s p r true)) ∧
    (∀ (p : Fin 8), s.isReady = true → s.mayControl = true → p.val < s.member.pods → (s.pod p).present = true →
      (∀ k : Nat, exec (.podPresencePoll p (.absent k)) s = .next (readPod s p (.absent k) true)) ∧
      exec (.podPresencePoll p .lost) s = .next (lostPod s p 4) ∧
      (∀ (k : Nat) (b : List Byte), exec (.podPresencePoll p (.bytes k b)) s = .next (accessPod s p (.bytes k []) [])))

/-- The trigger commands complete: each stages its registers; TRG_QUERY answers its words; TRG_FORCE waits with the sequencer for
the next sample. Derived from R435, R438, R451 to R453. -/
def Obligations.TriggerCommandsComplete : Prop :=
  ∀ (s : State) (c : Cmd),
    (checksPass s (infoTrgSetLevel c) c (meanTrgSetLevel c) = true →
      exec (.trgSetLevel c) s = .next (
        respond (stageRegs (takeCommand s 0x0301 c) c.bench.toNat ((List.range (pf c 2 8 4)).flatMap (levelRegs c)))
          0x0301 c .done 0 [])) ∧
    (checksPass s (infoTrgSetResource c) c (meanTrgSetResource c) = true →
      exec (.trgSetResource c) s = .next (
        respond (stageRegs (takeCommand s 0x0302 c) c.bench.toNat (resourceRegs c)) 0x0302 c .done 0 [])) ∧
    (checksPass s infoTrgQuery c (meanTrgQuery c) = true →
      exec (.trgQuery c) s = .next (
        let t := takeCommand s 0x0303 c
        respond t 0x0303 c .done 0 (trgQueryWords t (pf c 2 3 0)))) ∧
    (checksPass s infoTrgForce c (meanTrgForce c) = true →
      exec (.trgForce c) s = .next (
        let t := takeCommand s 0x0304 c
        t.setSeqr c.bench.toNat { t.seqr c.bench.toNat with force := some c })) ∧
    (checksPass s infoRelayEnable c (meanRelayEnable c) = true →
      exec (.relayEnable c) s = .next (
        respond (settleBench ((takeCommand s 0x0310 c).wr .trgRelayEn (pf c 2 3 0) 0 (pw c 3)) (pf c 2 3 0)) 0x0310 c .done 0 []))

/-- The capture commands complete. Derived from R436, R456, R462, R463, R490 to R494. -/
def Obligations.CaptureCommandsComplete : Prop :=
  ∀ (s : State) (c : Cmd),
    (checksPass s infoCapArm c (meanCapArm c) = true →
      exec (.capArm c) s = .next (
        let t := takeCommand s 0x0401 c
        respond (followCapture (armBench t c.bench.toNat) c.bench.toNat) 0x0401 c .done 0 (lohi t.power.baseTick))) ∧
    (checksPass s infoCapStop c (meanCapStop c) = true →
      exec (.capStop c) s = .next (
        let t := takeCommand s 0x0402 c
        let u := stopCapture t c.bench.toNat (stopTick t)
        respond (followCapture u c.bench.toNat) 0x0402 c .done 0 (W (u.lastKept c.bench.toNat) :: lohi (stopTick t)))) ∧
    (checksPass s infoCapConfig c (meanCapConfig c) = true →
      exec (.capConfig c) s = .next (
        respond (stageRegs (takeCommand s 0x0403 c) c.bench.toNat
          [(.sknCfg, 0, pw c 2), (.sknPre, 0, pw c 3), (.sknPost, 0, pw c 4)]) 0x0403 c .done 0 [])) ∧
    (checksPass s infoSknList c (meanSknList c) = true →
      exec (.sknList c) s = .next (
        let t := takeCommand s 0x0404 c
        respond t 0x0404 c .done 0 (sknListWords t (pf c 2 3 0) (pw c 3).toNat))) ∧
    (∀ k : Skein, checksPass s infoSknRead c (meanSknRead c) = true →
      (takeCommand s 0x0405 c).bobbinSkein c.bench.toNat (pw c 2).toNat = some k →
      exec (.sknRead c) s = .next (
        let all := k.readBytes c.bench.toNat (bitB (pw c 3) 0)
        let bytes := (all.drop (pw c 4).toNat).take (pw c 5).toNat
        let u := moveSram (accept (takeCommand s 0x0405 c) 0x0405 c false) c.bench.toNat bytes.length
        sendData u c.bench.toNat c.tag bytes (some (0x0405, Status.done.code, bytes.length)) 0
          (if decide (all.length ≤ (pw c 4).toNat + (pw c 5).toNat) then some k.num else none))) ∧
    (checksPass s infoSknDelete c (meanSknDelete c) = true →
      exec (.sknDelete c) s = .next (
        let t := takeCommand s 0x0406 c
        let gone := ((t.deletable c.bench.toNat).take (pw c 2).toNat).takeWhile fun d => !t.exporting c.bench.toNat d
        let u := gone.foldl (fun s d => deleteSkein s c.bench.toNat d) t
        respond u 0x0406 c .done 0
          [W ((t.cap c.bench.toNat).occupied + t.storedBytes c.bench.toNat -
            ((u.cap c.bench.toNat).occupied + u.storedBytes c.bench.toNat))])) ∧
    (checksPass s infoBobbinLend c (meanBobbinLend c) = true →
      exec (.bobbinLend c) s = .next (
        let t := takeCommand s 0x0410 c
        let u := t.setCap (pf c 2 3 0) { t.cap (pf c 2 3 0) with lent := pf c 2 12 8 }
        respond u 0x0410 c .done 0 [u.shown .glbPool]))

/-- The events of a capture complete: a window of samples, the resumption after an overrun, a boundary, a re-arm and an END that are
due. Derived from R413, R429, R461, R462, R479. -/
def Obligations.CaptureEventsComplete : Prop :=
  ∀ (s : State) (n : Fin 8), s.live = true → s.replaysBench n = false →
    (∀ (window : Nat) (pods : List PodInput),
      exec (.sampleVector n window pods) s = .next (followCapture (sampleWindow s n window pods) n)) ∧
    ((s.cap n).ovr = true → s.bobbinBytes n ≤ 4 * s.bobbinFree n →
      exec (.overrunResume n) s = .next (s.setCap n { s.cap n with ovr := false })) ∧
    (∀ (t : Nat) (rearm : Bool), (s.cap n).boundary = some (t, rearm) →
      let u := { s with power := { s.power with baseTick := max s.power.baseTick t } }
      exec (.skeinBoundary n) s = .next (followCapture (runDue u n t) n) ∧
      (rearm = true → exec (.segmentedRearm n) s = .next (followCapture (runDue u n t) n))) ∧
    (∀ (t : Nat), (s.cap n).cur.bind Skein.due = some t →
      let u := { s with power := { s.power with baseTick := max s.power.baseTick t } }
      exec (.skeinEnd n) s = .next (followCapture (runDue u n t) n))

/-- The compression commands complete: CMP_CONFIG stages, CMP_EXPORT and CMP_VERIFY answer ACCEPTED and add their job (an export
with its staging charged to the bobbin), CMP_FLUSH ends the block in progress. Derived from R520, R522, R525, R538. -/
def Obligations.CompressionCommandsComplete : Prop :=
  ∀ (s : State) (c : Cmd),
    (checksPass s infoCmpConfig c (meanCmpConfig c) = true →
      exec (.cmpConfig c) s = .next (
        respond (settleBench ((takeCommand s 0x0501 c).wr .cmpSCfg c.bench.toNat 0 (pw c 2)) c.bench.toNat) 0x0501 c .done 0 [])) ∧
    (checksPass s infoCmpExport c (meanCmpExport c) = true →
      exec (.cmpExport c) s = .next (
        let t := accept (takeCommand s 0x0502 c) 0x0502 c false
        let u := t.setCap c.bench.toNat { t.cap c.bench.toNat with staging := (t.cap c.bench.toNat).staging + (pw c 4).toNat }
        addJob u c.bench.toNat c.stream c.tag (.exportJob (pw c 2).toNat (pw c 3) (pw c 4).toNat) [])) ∧
    (checksPass s infoCmpVerify c (meanCmpVerify c) = true →
      exec (.cmpVerify c) s = .next (
        let t := takeCommand s 0x0503 c
        addJob (accept t 0x0503 c false) c.bench.toNat c.stream c.tag
          (.verify (t.sess c.bench.toNat).session (pw c 2).toNat none) [])) ∧
    (checksPass s infoCmpFlush c (meanCmpFlush c) = true →
      exec (.cmpFlush c) s = .next (
        let f := flushStream (takeCommand s 0x0504 c) c.bench.toNat
        respond f.2 0x0504 c .done 0 [W f.1])) ∧
    (checksPass s infoCmpQuery c (meanCmpQuery c) = true →
      exec (.cmpQuery c) s = .next (
        let t := takeCommand s 0x0505 c
        respond t 0x0505 c .done 0 (cmpQueryWords t (pf c 2 3 0))))

/-- The events of compression complete: an AUTOFLUSH that is set flushes, a block ends on an engine whose job makes blocks, a stream
whose cause stands stops, and one whose cause has gone resumes. Derived from R499, R517 to R521. -/
def Obligations.CompressionEventsComplete : Prop :=
  ∀ (s : State), s.live = true →
    (∀ n : Fin 8, s.autoflush n ≠ 0 → exec (.autoflushExpiry n) s = .next (flushStream s n).2) ∧
    (∀ (e : Fin 4) (ok : Bool), s.makesBlocks e = true → exec (.blockEnd e ok) s = .next (endStep s e ok)) ∧
    (∀ (n : Fin 8) (k : StopCause), s.causeGone n k = false → exec (.cmpStreamStop n k) s = .next (stopStream s n k)) ∧
    (∀ n : Fin 8, s.survoRuns = true → exec (.cmpStreamResume n) s = .next (resumeStream s n))

/-- The storage commands complete: queries answer; SL_STREAM writes SL_Sn_CFG; SL_READ is accepted and reads the stored skein page
by page as the NAND path's regulator lets it, then sends it, or completes RETIRED where a lane with its data is retired. Derived
from R564, R579, R590, R617. -/
def Obligations.StorageCommandsComplete : Prop :=
  ∀ (s : State) (c : Cmd),
    (checksPass s infoSlQuery c (meanSlQuery c) = true →
      exec (.slQuery c) s = .next (
        let t := takeCommand s 0x0601 c
        respond t 0x0601 c .done 0 (slQueryWords t (pf c 2 3 0) (pw c 3).toNat))) ∧
    (checksPass s infoSlStream c (meanSlStream c) = true →
      exec (.slStream c) s = .next (
        respond ((takeCommand s 0x0602 c).wr .slSCfg c.bench.toNat 0 (pw c 2)) 0x0602 c .done 0 [])) ∧
    (∀ e : CatEntry, checksPass s infoSlRead c (meanSlRead c) = true →
      slReadEntry (takeCommand s 0x0603 c) c = some e →
      let t := accept (takeCommand s 0x0603 c) 0x0603 c false
      (∀ code, t.entryRetired e = some code → exec (.slRead c) s = .next (complete t c.stream 0x0603 c.tag .retired code)) ∧
      (t.entryRetired e = none → exec (.slRead c) s = .next (
        readOn t { bench := c.bench.toNat, tag := c.tag, session := e.session, skein := e.skein, left := e.parts } e.parts))) ∧
    (∀ (t : State) (r : LaneRead) (p : Nat × Nat × Nat) (rest : List (Nat × Nat × Nat)),
      readOn t r [] = sendStored t r ∧
      ((t.entry? r.bench r.session r.skein).bind t.entryRetired = none →
        (t.mayStart r.bench 1 = false → readOn t r (p :: rest) =
          { t with storage := { t.storage with reads := t.storage.reads ++ [{ r with left := p :: rest }] } }) ∧
        (t.mayStart r.bench 1 = true →
          let q := readParts t r.bench r.session [p]
          readOn t r (p :: rest) = readOn q.2.2.2 { r with bytes := r.bytes ++ q.1, good := r.good && q.2.1 } rest))) ∧
    (checksPass s infoSlBbtRead c (meanSlBbtRead c) = true →
      exec (.slBbtRead c) s = .next (
        let t := takeCommand s 0x0606 c
        respond t 0x0606 c .done 0 (bbtWords (t.lane (pf c 2 0 0)) (pw c 3).toNat)))

/-- SL_FORMAT answers ACCEPTED, erases every data hank of the named lanes and completes with the number free; SL_SCRUB answers
ACCEPTED and leaves the lanes to be checked, or with no lane named completes at once; a retired lane among them completes either
RETIRED. Derived from R590, R592. -/
def Obligations.StorageLongCommandsComplete : Prop :=
  ∀ (s : State) (c : Cmd),
    (checksPass s infoSlFormat c (meanSlFormat c) = true →
      let t := accept (takeCommand s 0x0604 c) 0x0604 c false
      (∀ code, t.retiredIn (pf c 2 1 0) = some code →
        exec (.slFormat c) s = .next (complete t c.stream 0x0604 c.tag .retired code)) ∧
      (t.retiredIn (pf c 2 1 0) = none →
        exec (.slFormat c) s = .next (
          let u := t.each (maskLanes (pf c 2 1 0)) formatLane
          complete u c.stream 0x0604 c.tag .done ((maskLanes (pf c 2 1 0)).foldl (fun k x => k + (u.freeHanks x).length) 0)))) ∧
    (checksPass s infoSlScrub c (meanSlScrub c) = true →
      let t := accept (takeCommand s 0x0605 c) 0x0605 c false
      (∀ code, t.retiredIn (pf c 2 1 0) = some code →
        exec (.slScrub c) s = .next (complete t c.stream 0x0605 c.tag .retired code)) ∧
      (t.retiredIn (pf c 2 1 0) = none → pf c 2 1 0 = 0 →
        exec (.slScrub c) s = .next (complete t c.stream 0x0605 c.tag .done 0)) ∧
      (t.retiredIn (pf c 2 1 0) = none → pf c 2 1 0 ≠ 0 →
        exec (.slScrub c) s = .next
          { t with storage := { t.storage with scrubBy := some (c.stream, c.tag, pf c 2 1 0, 0) } }))

/-- The NAND's own events complete: the oldest program of a lane passes, with the pages issued to the other planes with it, and each
page is there; or it fails and its hank is left, or it is that of a copy of the system records; an erase or a read fails; a busy
timeout tests the lane. Derived from R547, R554, R558, R563, R576. -/
def Obligations.NandEventsComplete : Prop :=
  ∀ (s : State) (x : Fin 2), s.live = true →
    (∀ (i : Issued) (rest : List Issued), (s.lane x).issued = i :: rest →
      exec (.pageProgramDone x) s = .next (s.each (i :: rest.takeWhile Issued.joined) fun s _ => finishPage s x) ∧
      (let t := s.setLane x { s.lane x with issued := rest, pages := (s.lane x).pages.put blankPage i.key i.page };
        (i.page.type ≠ 1 ∨ i.page.session ≠ (t.sess i.page.bench).session → finishPage s x = t) ∧
        (i.page.type = 1 → i.page.session = (t.sess i.page.bench).session →
          finishPage s x = followCapture (pageDurable t i.page.bench i.page.seq) i.page.bench))) ∧
    ((s.lane x).issued ≠ [] → exec (.programStatusFail ⟨x, none⟩) s = .next (failProgram s x)) ∧
    (∀ k : Fin 2, exec (.programStatusFail ⟨x, some k⟩) s = .next
      (s.setLane x { s.lane x with sysFail := (s.lane x).sysFail ||| 2 ^ k.val })) ∧
    (∀ b : Nat, ((s.lane x).hank ((s.lane x).hankOf b)).owner ≠ .free →
      ((s.lane x).pages.any fun e => decide (e.1 / 4096 = (s.lane x).hankOf b)) = false → (s.lane x).isBad b = false →
      exec (.eraseStatusFail x b) s = .next (failErase s x b)) ∧
    (∀ (b page : Nat) (words : List Codeword),
      let l := s.lane x
      let key := l.keyOf b page
      let p := l.pages.get blankPage key
      p.type ≠ 0 → p.lost = false → b ∈ l.goodBlocks (l.hankOf b) → page < l.geom.pagesPerBlock → pageBad words = true →
      exec (.uncorrectableRead x b ⟨page, words⟩) s = .next
        (losePage (s.setLane x { l with pages := l.pages.put blankPage key { p with words := words } }) x key)) ∧
    (∀ b : Nat, s.laneServes x = true →
      exec (.nandBusyTimeout x .read b) s = .next (raiseFault s (resLane x) 0x0601) ∧
      exec (.nandBusyTimeout x .program b) s = .next (raiseFault (failProgram s x) (resLane x) 0x0601) ∧
      exec (.nandBusyTimeout x .erase b) s = .next (raiseFault (failErase s x b) (resLane x) 0x0601))

/-- The upkeep of a lane completes: a scrub that is due or asked for, a relocation for wear or for read disturb, and its two ends.
Derived from R569 to R573. -/
def Obligations.LaneUpkeepCompletes : Prop :=
  ∀ (s : State) (x : Fin 2), s.live = true → s.laneServes x = true →
    (∀ pages : List PageRead, s.survoRuns = true → s.storage.suspended = false → s.scrubPaused = false →
      s.storage.scrubDue.testBit x = true ∨ s.scrubAsked x = true →
      exec (.retentionScrub x pages) s = .next (scrubLane s x pages)) ∧
    (s.laneQuiet x = true → exec (.wearLevelRelocation x) s = .next (levelWear s x)) ∧
    (∀ b : Nat, fld (s.rd .slWlCfg) 31 16 * 1000 ≤ (s.lane x).reads.get (fun _ => 0) b →
      exec (.readDisturbRelocation x b) s = .next (queueMove s x ((s.lane x).hankOf b))) ∧
    (s.storage.suspended = false → (s.lane x).moving.isSome = true → exec (.relocationComplete x) s = .next (finishMove s x)) ∧
    (s.storage.suspended = false → (s.lane x).moving = none → exec (.relocationComplete x) s = .next (startMove s x))

/-- The engine commands complete: a search or decode answers ACCEPTED and adds its job over the items of the selected skeins, of the
bobbin or read back from the lanes; over an empty selection it completes DONE, and RETIRED where a lane with its data is retired;
JOB_CANCEL tells the job to stop and answers; the others stage or query. Derived from R594, R624, R625, R638, R641, R644, R646. -/
def Obligations.EngineCommandsComplete : Prop :=
  ∀ (s : State) (c : Cmd),
    (checksPass s (infoSearchJob c) c (meanSearchJob c) = true → bitB (pw c 2) 0 = false →
      let t := accept (takeCommand s 0x0701 c) 0x0701 c false
      let input := bobbinInput t c.bench.toNat (pw c 3).toNat (pw c 4).toNat
      exec (.searchJob c) s = .next (if input = [] then complete t c.stream 0x0701 c.tag .done 0
        else addJob t c.bench.toNat c.stream c.tag (.search c.payload) input)) ∧
    (checksPass s (infoSearchJob c) c (meanSearchJob c) = true → bitB (pw c 2) 0 = true →
      let t := accept (takeCommand s 0x0701 c) 0x0701 c false
      let es := t.selectedEntries c.bench.toNat (pf c 2 31 16) (pw c 3).toNat (pw c 4).toNat
      let q := storedInput t (es.map CatEntry.skein) [] (t.scanBefore c.bench.toNat es ++ es)
      (∀ code, es.findSome? t.entryRetired = some code →
        exec (.searchJob c) s = .next (complete t c.stream 0x0701 c.tag .retired code)) ∧
      (es.findSome? t.entryRetired = none →
        exec (.searchJob c) s = .next (if q.1 = [] then complete q.2 c.stream 0x0701 c.tag .done 0
          else addJob q.2 c.bench.toNat c.stream c.tag (.search c.payload) q.1))) ∧
    (checksPass s (infoDecodeJob c) c (meanDecodeJob c) = true → bitB (pw c 2) 0 = false →
      let t := accept (takeCommand s 0x0702 c) 0x0702 c false
      let input := bobbinInput t c.bench.toNat (pw c 3).toNat (pw c 4).toNat
      exec (.decodeJob c) s = .next (if input = [] then complete t c.stream 0x0702 c.tag .done 0
        else addJob t c.bench.toNat c.stream c.tag (.decode c.payload) input)) ∧
    (checksPass s (infoDecodeJob c) c (meanDecodeJob c) = true → bitB (pw c 2) 0 = true →
      let t := accept (takeCommand s 0x0702 c) 0x0702 c false
      let es := t.selectedEntries c.bench.toNat (pf c 2 31 16) (pw c 3).toNat (pw c 4).toNat
      let q := storedInput t (es.map CatEntry.skein) [] (t.scanBefore c.bench.toNat es ++ es)
      (∀ code, es.findSome? t.entryRetired = some code →
        exec (.decodeJob c) s = .next (complete t c.stream 0x0702 c.tag .retired code)) ∧
      (es.findSome? t.entryRetired = none →
        exec (.decodeJob c) s = .next (if q.1 = [] then complete q.2 c.stream 0x0702 c.tag .done 0
          else addJob q.2 c.bench.toNat c.stream c.tag (.decode c.payload) q.1))) ∧
    (∀ j : Job, checksPass s infoJobCancel c (meanJobCancel c) = true → cancelled (takeCommand s 0x0703 c) c = some j →
      exec (.jobCancel c) s = .next (
        respond (tellStop (takeCommand s 0x0703 c) j Status.partial_.code 0) 0x0703 c .done 0 [])) ∧
    (checksPass s infoEngQuery c (meanEngQuery c) = true →
      exec (.engQuery c) s = .next (
        let t := takeCommand s 0x0704 c
        respond t 0x0704 c .done 0 (t.engQueryWords (pf c 2 3 0) (if isAdmin c then none else some (pf c 2 3 0))))) ∧
    (checksPass s infoPlyConfig c (meanPlyConfig c) = true →
      exec (.plyConfig c) s = .next (
        let y := pf c 2 1 0
        let t := settleRally ((takeCommand s 0x0710 c).wrFld .plyCfg y 0 12 0 (pw c 3).toNat) (Reg.addr ⟨.plyCfg, y, 0⟩)
        let u := t.each (t.plyEngines y) fun s e =>
          settleRally (s.wrFld .engCfg e 0 0 0 (bN (bitB (pw c 4) e))) (Reg.addr ⟨.engCfg, e, 0⟩)
        respond u 0x0710 c .done 0 [])) ∧
    (checksPass s infoRegulatorSet c (meanRegulatorSet c) = true →
      exec (.regulatorSet c) s = .next (
        let y := pf c 2 1 0
        let k := pf c 2 9 8
        let t := settleRally ((takeCommand s 0x0711 c).wr .plyRate y k (pw c 3)) (Reg.addr ⟨.plyRate, y, k⟩)
        respond (settleRally (t.wr .plyBurst y k (pw c 4)) (Reg.addr ⟨.plyBurst, y, k⟩)) 0x0711 c .done 0 []))

/-- The Umpire's events complete: an idle engine chooses and starts, a rally in progress keeps a choice and changes over at its end,
a blocked job gives its engine up, a step ends, the regulators refill. Derived from R598, R602 to R604, R617. -/
def Obligations.UmpireEventsComplete : Prop :=
  ∀ (s : State),
    (∀ e : Fin 9, s.umpireRuns e = true → (s.engine e).job = none → exec (.umpireChoice e) s = .next (startIdle s e)) ∧
    (∀ e : Fin 9, s.umpireRuns e = true → (s.engine e).job.isSome = true → s.interleaved e = false → e.val ≠ 8 →
      (s.engine e).chosen = none →
      exec (.umpireChoice e) s = .next (
        let r := choose s e
        r.2.setEngine e { r.2.engine e with chosen := some r.1 })) ∧
    (∀ (e : Fin 9) (ok : Bool) (k : Option Nat), s.inRally e = true → (s.engine e).chosen = some k →
      exec (.rallyExpiry e ok) s = .next (sweepOrphans (switchTo (rallyBoundary s e) e k ok))) ∧
    (∀ (e : Fin 9) (ok : Bool), s.inRally e = true → (s.engine e).chosen = none →
      let r := choose s e
      exec (.rallyExpiry e ok) s = .next (sweepOrphans (switchTo (rallyBoundary r.2 e) e r.1 ok))) ∧
    (∀ e : Fin 9, s.inRally e = true → s.blocked e = true →
      exec (.jobBlockedTimeout e) s = .next (sweepOrphans (startIdle (rallyBoundary (preempt s e) e) e))) ∧
    (∀ e : Fin 9, s.umpireRuns e = true → exec (.jobStepEnd e) s = .next (endStep s e true)) ∧
    (s.live = true →
      exec .regulatorRefill s = .next (
        let t := refillAll s
        pumpReads (t.each t.benchList fun s n => pumpPages s n (s.cmp n).queued.length)))

/-- The interval commands complete: a configuration is stored for the bench, IU_MEASURE and IU_CALIBRATE answer ACCEPTED and add
their job, IU_QUERY answers, IU_SET_AGE recomputes the correction. Derived from R656, R659, R666, R674, R686. -/
def Obligations.IntervalCommandsComplete : Prop :=
  ∀ (s : State) (c : Cmd),
    (checksPass s infoIuConfig c (meanIuConfig c) = true →
      exec (.iuConfig c) s = .next (
        let t := takeCommand s 0x0801 c
        respond { t with iu := { t.iu with configs := t.iu.configs.put iuConfigInit c.bench.toNat (pw c 2, pw c 3, pw c 4) } }
          0x0801 c .done 0 [])) ∧
    (checksPass s infoIuMeasure c (meanIuMeasure c) = true →
      exec (.iuMeasure c) s = .next (
        addJob (accept (takeCommand s 0x0802 c) 0x0802 c false) c.bench.toNat c.stream c.tag (.measure (pf c 2 15 0) 0) [])) ∧
    (checksPass s infoIuCalibrate c (meanIuCalibrate c) = true →
      exec (.iuCalibrate c) s = .next (
        let t := accept (takeCommand s 0x0803 c) 0x0803 c false
        addJob (if pf c 2 4 0 = 0 then t else t.wrFld .iuCtrl 0 0 20 16 (pf c 2 4 0)) 15 c.stream c.tag .calibrate [])) ∧
    (checksPass s infoIuQuery c (meanIuQuery c) = true →
      exec (.iuQuery c) s = .next (
        let t := takeCommand s 0x0804 c
        respond t 0x0804 c .done 0 (if bitB (pw c 2) 4 then iuTableWords t (pf c 2 11 8) (pf c 2 25 16)
          else iuStatusWords t (pf c 2 3 0) (isAdmin c)))) ∧
    (checksPass s infoIuSetAge c (meanIuSetAge c) = true →
      exec (.iuSetAge c) s = .next (
        let t := takeCommand s 0x0810 c
        let u := updateCorr ({ t with fw := { t.fw with age := some (pw c 2) } }.wr .iuAge 0 0 (pw c 2))
        respond u 0x0810 c .done 0 [u.rd .iuCorr]))

/-- The interval unit's events complete: GO and CAL_GO through the set view, START of an armed measurement, a STOP that is wanted
and comes late enough, the end of a measurement, of a job or of none, an interpolator's calibration, the temperature. Derived from
R651 to R653, R655, R660, R664, R665. -/
def Obligations.IntervalEventsComplete : Prop :=
  ∀ (s : State),
    (∀ p : Path, s.pathLive p = true →
      let go := busWrite s p (0x10000 + Reg.addr ⟨.iuCtrl, 0, 0⟩) 1
      let cal := busWrite s p (0x10000 + Reg.addr ⟨.iuCtrl, 0, 0⟩) 2
      exec (.iuCtrlGo p) s = .next (go.2.setPath p { go.2.path p with data := [], error := decide (go.1 ≠ 0) }) ∧
      exec (.iuCtrlCalGo p) s = .next (cal.2.setPath p { cal.2.path p with data := [], error := decide (cal.1 ≠ 0) })) ∧
    (∀ (src : Fin 5) (falling : Bool) (coarse : Nat) (code : BitVec 10), s.live = true → s.iu.state = .waitStart →
      src.val = s.iuStartSrc → falling = bitB (s.eff .iuCfg) 3 → coarse ≤ s.iuTimeout → s.iuSees src = true →
      exec (.iuStartEdge src falling coarse code) s = .next { s with
        power := { s.power with baseTick := max s.power.baseTick (s.iu.armTick + 4 * coarse) }
        iu := { s.iu with state := .collecting, start := some ⟨src, falling, s.iu.nextInterp src, code.toNat, coarse⟩ } }) ∧
    (∀ (src : Fin 5) (falling : Bool) (coarse : Nat) (code : BitVec 10), s.live = true → s.iu.state = .collecting →
      (fld (s.eff .iuCfg) 8 4).testBit src = true → s.iuStopSense falling = true → s.iuSees src = true →
      coarse ≤ s.iuTimeout → s.iu.stops.length < s.iuWanted →
      let e : IuEvent := ⟨src, falling, s.iu.nextInterp src, code.toNat, coarse⟩
      s.iuTooSoon e = false →
      exec (.iuStopEdge src falling coarse code) s = .next { s with
        power := { s.power with baseTick := max s.power.baseTick (s.iu.armTick + 4 * coarse) }
        iu := { s.iu with stops := s.iu.stops ++ [e] } }) ∧
    (s.live = true → s.iu.state = .waitStart ∨ s.iu.state = .collecting →
      let u := if s.iu.stops.length < s.iuWanted then
          { s with power := { s.power with baseTick := max s.power.baseTick (s.iu.armTick + 4 * s.iuTimeout) } } else s
      (s.jobOn 8 = none →
        exec .iuMeasurementEnd s = .next (
          let t := { u with iu := { s.iu with state := .idle, bench := none, start := none, stops := [], results := s.iuRecords 0 } }
          iuPump (sweepOrphans (applyIu (rallyBoundary (t.bumpWrap .iuMeas 0 0 31 0 1) 8))))) ∧
      (∀ j left made, s.jobOn 8 = some j → j.kind = .measure left made →
        exec .iuMeasurementEnd s = .next (
          let recs := s.iuRecords made
          let t := { u with iu := { s.iu with state := .idle, bench := none, start := none, stops := [], results := recs } }
          let v := chargeEngine (t.bumpWrap .iuMeas 0 0 31 0 1) j.bench 8 ((u.power.baseTick - s.iu.armTick) / 8) false
          iuPump (sweepOrphans (deliverRecords v j left made recs))))) ∧
    (∀ hits : List Nat, s.live = true → s.iu.state = .calibrating → exec (.iuCalibrationEnd hits) s = .next (iuCalStep s hits)) ∧
    (∀ temp : BitVec 8, s.live = true → exec (.iuTempUpdate temp) s = .next (iuTemp s temp))

/-- The two-wire commands complete: TW_CONFIG stages its four values (they apply at once on an idle bus), ends PARKED and a
back-off, and answers; TW_ALERT_READ answers the most urgent alerts and removes those it may; TW_XFER answers ACCEPTED and is
performed once the bus is free and no back-off runs, at once where the pads are retired; TW_QUERY answers. Derived from R185, R709,
R712, R715, R716, R719 to R721. -/
def Obligations.TwoWireCommandsComplete : Prop :=
  ∀ (s : State) (c : Cmd),
    (checksPass s infoTwConfig c (meanTwConfig c) = true →
      exec (.twConfig c) s = .next (
        let t := (((((takeCommand s 0x0901 c).wr .twCfg 0 0 (pw c 2)).wr .twStretchMax 0 0 (pw c 3)).wr .twRetryLimit 0 0
          (pw c 4)).wr .twBackoff 0 0 (pw c 5))
        let u := if t.tw.busy then t else t.each twRegs fun s a => applyReg s a (gBitsAt a)
        let v := if u.tw.cstate = .parked then { setCState u .idle with tw := { (setCState u .idle).tw with retries := 0 } }
          else if u.tw.cstate = .backoff then releaseXfers (endBackoff u) else u
        respond (twKick v) 0x0901 c .done 0 [])) ∧
    (checksPass s infoTwAlertRead c (meanTwAlertRead c) = true →
      exec (.twAlertRead c) s = .next (
        let t := takeCommand s 0x0902 c
        let as := alertsFor t (pf c 2 3 0) (pf c 2 12 8)
        let u := removedAlerts t (as.filter fun a => decide (a.bench ≠ 15) || takesPartWide c)
        respond u 0x0902 c .done 0 (pack [(as.length, 0), (u.tw.alerts.length, 8)] :: as.flatMap (alertWords u)))) ∧
    (∀ outs : List XferOut, checksPass s (infoTwXfer c) c (meanTwXfer c outs) = true →
      exec (.twXfer c outs) s = .next (
        let t := accept (takeCommand s 0x0903 c) 0x0903 c false
        if t.tw.retired = false ∧ (t.tw.cstate = .backoff ∨ t.busFree = false) then { t with tw := { t.tw with xfers := t.tw.xfers ++ [(c, outs)] } }
        else performXfer t c outs)) ∧
    (checksPass s infoTwQuery c (meanTwQuery c) = true →
      exec (.twQuery c) s = .next (
        let t := takeCommand s 0x0904 c
        respond t 0x0904 c .done 0 (twQueryWords t (isAdmin c))))

/-- The A9 as two-wire target completes: before READY a read gives the boot-status block and a write is NACKed; from READY on the
pointer bytes set the pointer, a word written or read at it goes through the register window and the pointer advances by 4, and a
STOP ends the transfer, a word cut short being a narrow access, applies what waits for it and starts the transfers that waited.
Derived from R140, R141, R183, R692 to R699. -/
def Obligations.TwoWireTargetCompletes : Prop :=
  ∀ (s : State),
    (∀ count : Nat, s.live = true → s.isReady = false → s.twBootServes = true →
      exec (.twBootStatusRead count) s = .next { s with
        boot := { s.boot with statusOut := (List.range count).map fun i => s.boot.statusBytes.getD (i % 8) 0 },
        tw := { s.tw with busy := true, ack := true } }) ∧
    (s.live = true → s.isReady = false →
      exec .twPreReadyWrite s = .next { s with tw := { s.tw with busy := s.twBootServes, ack := false, nacking := true } }) ∧
    (s.twServes = true → s.tw.stretched = none →
      (∀ p2 p1 p0 : Byte, p2.toNat < 16 →
        exec (.twPointerWrite p2 p1 p0) s = .next { s with tw := { s.tw with
          busy := true, ack := true, nacking := false, reading := false,
          pointer := p2.toNat * 2 ^ 16 + p1.toNat * 2 ^ 8 + p0.toNat } }) ∧
      (∀ d : Word, s.tw.nacking = false →
        let w := accessWrite s .twoWire s.tw.pointer d
        (w.path .twoWire).error = false → w.tw.stretched = none →
        exec (.twWordWrite d) s = .next { w with tw := { w.tw with
          busy := true, reading := false, ack := true, nacking := false, pointer := (w.tw.pointer + 4) % 2 ^ 20 } }) ∧
      (s.tw.nacking = false →
        let r := accessRead s .twoWire s.tw.pointer
        (r.path .twoWire).error = false →
        exec .twWordRead s = .next { r with tw := { r.tw with
          busy := true, ack := true, nacking := false, reading := true, pointer := (r.tw.pointer + 4) % 2 ^ 20 } })) ∧
    (∀ bytes : List Byte, s.live = true → s.tw.stretched = none →
      let w := if bytes = [] ∨ s.tw.nacking = true ∨ s.twServes = false ∨ s.tw.busy = false then s
        else (busWrite s .twoWire s.tw.pointer (W (leNat (bytes.take 3))) true).2
      exec (.twBusStop bytes) s = .next (
        releaseXfers (twStop { w with tw := { w.tw with nacking := false, reading := false, ack := false } }))) ∧
    (∀ (q : Nat) (hi : Word) (w : QWord), q < 64 → s.live = true → s.tw.stretched = some (0x6000 + q * 0x40 + 0x0C, hi) →
      twWaits s q = some w →
      exec .twStretchTimeout s = .next (
        let t := s.setQueue q { s.queue q with waiting := (s.queue q).waiting.filter fun e => decide (e.1 ≠ Producer.path .twoWire) }
        let u := holdLo (t.bumpQCnt q 11 0) .twoWire (0x6000 + q * 0x40 + 8) (DWord.lo w.data)
        { u with tw := { u.tw with stretched := none, ack := false, nacking := true } })) ∧
    (s.power.state = .sleep ∨ s.power.state = .doze →
      exec .twAddressWake s = .next (wakeFor { s with tw := { s.tw with ack := false } } .twoWire 0 .awake))

/-- The two-wire controller's events complete: an alert message ends with an acknowledge, a NACK, a loss of arbitration or a
timeout, a wait and a back-off end, a stuck bus is reported, and TW_ALERT_RD_LO is read through a path. Derived from R701, R704,
R705, R708, R709, R711, R712, R716. -/
def Obligations.TwoWireControllerCompletes : Prop :=
  ∀ (s : State),
    (∀ (a : Alert) (last : Bool), s.alertSending = some (a, last) → s.mayControl = true → s.isReady = true →
      (∀ out : XferOut, exec (.alertSend out) s = .next (sendAlert s a last out)) ∧
      exec .twControllerTimeout s = .next (sendAlert s a last .timeout) ∧
      ∀ winner : BitVec 8, exec (.twArbitrationLoss winner) s = .next (
        let t := sendAlert s a last .lost
        { t with tw := { t.tw with
          busy := true, nacking := false, reading := false, ack := decide (winner.toNat / 2 = t.ownAddr) && s.twServes } })) ∧
    (s.live = true → s.tw.retired = false →
      exec .twStuck s = .next (raiseFault { s with tw := { s.tw with stuck := true } } resPads 0x0801)) ∧
    (s.live = true → s.tw.cstate = .wait → exec .alertWaitExpiry s = .next (twChoose s)) ∧
    (∀ out : XferOut, s.live = true → s.tw.cstate = .backoff →
      exec (.backoffExpiry out) s = .next (
        releaseXfers (sendNow (endBackoff s) out))) ∧
    (∀ winner : BitVec 8, s.alertSending = none → s.live = true → s.boot.phase = .pods → s.boot.podsDone = false →
      exec (.twArbitrationLoss winner) s = .next { s with tw := { s.tw with
        busy := true, nacking := false, reading := false, ack := decide (winner.toNat / 2 = s.ownAddr) && s.twBootServes } }) ∧
    (∀ p : Path, s.pathLive p = true →
      exec (.twAlertRdLoRead p) s = .next (
        let r := busRead s p (Reg.addr ⟨.twAlertRdLo, 0, 0⟩)
        r.2.2.setPath p { r.2.2.path p with data := [r.1], error := decide (r.2.1 ≠ 0) }))

/-- The calendar's commands complete: CAL_SET stages the three values, asks for a commit and leaves its answer to the AON tick of
the commit; CAL_GET answers the calendar of one tick; the calendar's registers are written and read through a path; a changed date
has IU_CORR recomputed. Derived from R797, R802, R809, R811 to R814. -/
def Obligations.CalendarCommandsComplete : Prop :=
  ∀ (s : State) (c : Cmd),
    (checksPass s infoCalSet c (meanCalSet c) = true →
      exec (.calSet c) s = .next (
        let t := requestCommit ((((takeCommand s 0x0A01 c).wr .calSetDate 0 0 (pw c 2)).wr .calSetTime 0 0 (pw c 3)).wr .calSetSub 0 0
          (pw c 4))
        { t with cal := { t.cal with answer := some c } })) ∧
    (checksPass s infoCalGet c (meanCalGet c) = true →
      exec (.calGet c) s = .next (
        let t := takeCommand s 0x0A02 c
        respond t 0x0A02 c .done 0 (calGetWords t))) ∧
    (∀ (p : Path) (d : Word), s.pathLive p = true →
      exec (.calCommit p d) s = .next (
        let r := busWrite s p (Reg.addr ⟨.calCommit, 0, 0⟩) d
        r.2.setPath p { r.2.path p with data := [], error := decide (r.1 ≠ 0) })) ∧
    (∀ (p : Path) (lin : Bool), s.pathLive p = true →
      exec (.calendarReadLatch p lin) s = .next (
        let r := busRead s p (if lin then Reg.addr ⟨.calLinLo, 0, 0⟩ else Reg.addr ⟨.calDate, 0, 0⟩)
        r.2.2.setPath p { r.2.2.path p with data := [r.1], error := decide (r.2.1 ≠ 0) })) ∧
    (s.survoRuns = true → s.cal.dateChanged = true →
      exec .calendarDateChange s = .next (updateCorr { s with cal := { s.cal with dateChanged := false } }))

/-- The fault commands complete: FLT_LIST and REF_INSERVICE answer, REF_TEST answers ACCEPTED and requests a test, REF_RETURN
answers ACCEPTED, places the resource on probation and requests a re-test, and GO of REF_TEST_CTL is written through a path. Derived
from R759, R771, R786 to R789. -/
def Obligations.FaultCommandsComplete : Prop :=
  ∀ (s : State) (c : Cmd),
    (checksPass s infoFltList c (meanFltList c) = true →
      exec (.fltList c) s = .next (
        let t := takeCommand s 0x0B01 c
        respond t 0x0B01 c .done 0 (fltListWords t (pf c 2 3 0) (pf c 2 15 8) (pf c 2 21 16) (isAdmin c)))) ∧
    (checksPass s infoRefInservice c (meanRefInservice c) = true →
      exec (.refInservice c) s = .next (
        let t := takeCommand s 0x0B02 c
        respond t 0x0B02 c .done 0 (inServiceWords t (pf c 2 3 0) (isAdmin c)))) ∧
    (checksPass s infoRefTest c (meanRefTest c) = true →
      exec (.refTest c) s = .next (
        requestTest (accept (takeCommand s 0x0B03 c) 0x0B03 c false) (pw c 2) false (some (0x0B03, c.stream, c.tag)))) ∧
    (checksPass s infoRefReturn c (meanRefReturn c) = true →
      exec (.refReturn c) s = .next (
        requestTest (toProbation (accept (takeCommand s 0x0B04 c) 0x0B04 c false) (pw c 2)) (pw c 2) true
          (some (0x0B04, c.stream, c.tag)))) ∧
    (∀ p : Path, s.pathLive p = true →
      exec (.refTestCtlGo p) s = .next (
        let r := busWrite s p (0x10000 + Reg.addr ⟨.refTestCtl, 0, 0⟩) 1
        r.2.setPath p { r.2.path p with data := [], error := decide (r.1 ≠ 0) }))

/-- The Referee's events complete: the oldest waiting test of a type starts, its verdict takes effect after the boundaries that its
tick brings, an ECC error is counted or raised, a hung engine's job waits for the verdict, a resource that has passed its re-test
rejoins, and parity is scrubbed. Derived from R203, R751 to R759, R762, R771. -/
def Obligations.RefereeEventsComplete : Prop :=
  ∀ (s : State), s.live = true →
    (∀ (k : Fin 8) (t : RefTest), (s.ref.waiting.find? fun t => decide (resType t.res = k.val + 1)) = some t → s.testReady t = true →
      exec (.refereeTestStart k) s = .next (startEffect { s with ref := { s.ref with
        waiting := s.ref.waiting.eraseP fun (x : RefTest) => decide (resType x.res = k.val + 1),
        running := s.ref.running ++ [{ t with started := s.power.baseTick }] } } t.res)) ∧
    (∀ (k : Fin 8) (pass : Bool) (t : RefTest), (s.ref.running.find? fun t => decide (resType t.res = k.val + 1)) = some t →
      let u := dueFirst s t.res
      let r := endEffect { u with ref := { u.ref with
        running := u.ref.running.filter fun x => decide (resType x.res ≠ k.val + 1) } } t
      (t.retest = true → exec (.refereeVerdict k pass) s = .next (answerTest (retestVerdict r t pass) t pass)) ∧
      (t.retest = false →
        let w := takeSelfchecks r t.res
        let v := bookVerdict w.2 t pass
        exec (.refereeVerdict k pass) s = .next (answerTest (if v.1 then postSelfcheck (retireEffect v.2 t) t.res .retire w.1
          else postSelfcheck (letEffect v.2 t) t.res .let_ w.1) t pass))) ∧
    (∀ b : Fin 96, s.resExists (resSram b) = true →
      exec (.sramEcc b false) s = .next (s.bumpWrap .refSramCorr 0 0 31 0 1) ∧
      exec (.sramEcc b true) s = .next (raiseFault s (resSram b) 0x0301)) ∧
    (∀ (e : Fin 9) (j : Job), s.umpireRuns e = true → s.jobOn e = some j →
      exec (.engHang e) s = .next (
        let t := s.setJob { j with await := some (resEngine e) }
        raiseFault (if e.val = 8 then preempt (iuDiscard t) 8 else t) (resEngine e) 0x0403)) ∧
    (∀ res : Word, s.ref.rejoining.contains res = true →
      (resType res = 1 ∨ resType res = 3 → (s.resOwner res).all (fun n => !s.capturing n) = true) →
      exec (.resourceRejoin res) s = .next (rejoinNow s res)) ∧
    (∀ upsets : List Upset, exec (.parityScrub upsets) s = .next (scrubParity (s.each upsets flipBit)))

/-- The commands of recording and replay complete: RPL_RECORD starts the recording and answers the log's number, outside the
recording, or deletes a stored log; RPL_RUN answers ACCEPTED and starts the replay; RPL_STATUS answers; RPL_STOP stops what runs and
answers its log. Derived from R819, R826, R842, R846 to R849. -/
def Obligations.ReplayCommandsComplete : Prop :=
  ∀ (s : State) (c : Cmd),
    (checksPass s infoRplRecord c (meanRplRecord c) = true →
      (bitB (pw c 2) 31 = false →
        exec (.rplRecord c) s = .next (
          let t := takeCommand s 0x0C01 c
          respondUnseen (startRecording t (recConfig t c) (pf c 2 7 0) t.rpl.nextLog) 0x0C01 c .done 0 [W t.rpl.nextLog])) ∧
      (bitB (pw c 2) 31 = true →
        exec (.rplRecordDelete c) s = .next (
          respond (deleteLog (takeCommand s 0x0C01 c) (pf c 3 15 0)) 0x0C01 c .done 0 [W (pf c 3 15 0)]))) ∧
    (checksPass s infoRplRun c (meanRplRun c) = true →
      exec (.rplRun c) s = .next (
        let t := accept (takeCommand s 0x0C02 c) 0x0C02 c false
        startReplay t c.stream c.tag (pf c 2 15 0) ((takeCommand s 0x0C02 c).logBenches (pf c 2 15 0)) (runUntil c)
          (runConfig (takeCommand s 0x0C02 c) c))) ∧
    (checksPass s infoRplStatus c (meanRplStatus c) = true →
      exec (.rplStatus c) s = .next (
        let t := takeCommand s 0x0C03 c
        respond t 0x0C03 c .done 0 (t.rplWords (isAdmin c || t.rplShown (pf c 2 3 0))))) ∧
    (checksPass s infoRplStop c (meanRplStop c) = true →
      exec (.rplStop c) s = .next (
        let t := takeCommand s 0x0C04 c
        respond (stopMboron t) 0x0C04 c .done 0 [W t.rpl.log]))

/-- The events of recording and replay complete: the lane writer programs whole pages, or with no lane left stops the recording, a
gap of the recorder buffer is written once it has room, the next entries of a log are injected, an item that has not come is given
up, and a replay that has ended or was stopped finishes. Derived from R822, R823, R836, R838, R839. -/
def Obligations.ReplayEventsComplete : Prop :=
  ∀ (s : State),
    (s.rpl.state = .recording → s.live = true → s.logLanes ≠ [] →
      exec .replayLogProgram s = .next (
        let t := refillQueues (stageEntries s s.stageRoom) 256
        programAll t false (t.rpl.staged.length + 1))) ∧
    (s.rpl.state = .recording → s.live = true → s.logLanes = [] → exec .replayLogProgram s = .next (stopRecording s)) ∧
    (s.live = true → s.rpl.buffer.length < 256 → exec .recorderGap s = .next (writeGap s)) ∧
    (s.rpl.state = .replaying → s.survoRuns = true → exec .replayInject s = .next (injectNext s)) ∧
    (∀ (src : Byte) (e : LogEntry), s.rpl.state = .replaying → (s.rpl.checks.find? fun e => e.source == src.toNat) = some e →
      (s.rpl.ended = true ∨ e.tick + s.slackTicks < s.rpl.tick) →
      exec (.replayMissing src) s = .next (missCheck s e)) ∧
    (s.survoRuns = true → s.rpl.state = .replaying → s.rpl.ended = true →
      exec .replayEnd s = .next (finishReplay (s.each s.rpl.checks missCheck))) ∧
    (s.survoRuns = true → s.rpl.state = .stopping → exec .replayEnd s = .next (finishReplay s))

/-- The power and Distaff commands complete: POWER_ENTER that nothing stands against is answered and the entry is asked for; the
queries answer; the rules, inputs and counters are written; the log is read, and consumed with CONSUME. Derived from R82, R107, R122
to R124. -/
def Obligations.PowerCommandsComplete : Prop :=
  ∀ (s : State) (c : Cmd),
    (∀ target : PState, checksPass s infoPowerEnter c (meanPowerEnter c) = true → entryTarget (pf c 2 1 0) = some target →
      exec (.powerEnter c) s = .next (
        respond (requestEntry (setPowerCtrl (takeCommand s 0x0D01 c) c) target).2 0x0D01 c .done 0 [])) ∧
    (checksPass s infoPowerQuery c (meanPowerQuery c) = true →
      exec (.powerQuery c) s = .next (
        let t := takeCommand s 0x0D02 c
        respond t 0x0D02 c .done 0 [t.shown .pwrStatus, t.shown .pwrWakeBtLo, t.shown .pwrWakeBtHi, t.shown .pwrWakeAtick])) ∧
    (checksPass s (infoDstSetRules c) c (meanDstSetRules c) = true →
      exec (.dstSetRules c) s = .next (
        respond ((takeCommand s 0x0D10 c).each (List.range (pf c 2 8 4)) fun s j => s.wr .dstRule (pf c 2 3 0 + j) 0 (pw c (3 + j)))
          0x0D10 c .done 0 [])) ∧
    (checksPass s infoDstSetInputs c (meanDstSetInputs c) = true →
      exec (.dstSetInputs c) s = .next (
        let t := ((takeCommand s 0x0D11 c).wr .dstCtrl 0 0 (pw c 2)).wr .dstThr 0 0 (pw c 3)
        let u := t.each (List.range 4) fun s j => s.wr .dstFilt j 0 (pw c (4 + j))
        respond (u.each (List.range 4) fun s j => s.wr .dstLim j 0 (pw c (8 + j))) 0x0D11 c .done 0 [])) ∧
    (checksPass s infoDstCounters c (meanDstCounters c) = true →
      exec (.dstCounters c) s = .next (
        let t := (takeCommand s 0x0D13 c).each (List.range 4) fun s k =>
          if bitB (pw c 2) k then writeCounter s k (pw c (3 + k)) else s
        respond t 0x0D13 c .done 0 ((List.range 4).map fun k => t.rd .dstCnt k))) ∧
    (checksPass s infoDstReadLog c (meanDstReadLog c) = true →
      let t := takeCommand s 0x0D12 c
      let e := distaffEntries t c
      let answer (u : State) : State := respond u 0x0D12 c .done 0
        ([pack [(e.1.length, 0), (e.2, 16)], u.rd .dstLogLost] ++ e.1.flatMap fun d => [DWord.lo d, DWord.hi d])
      (bitB (pw c 2) 16 = false → exec (.dstReadLog c) s = .next (answer t)) ∧
      (bitB (pw c 2) 16 = true → exec (.dstReadLogConsume c) s = .next (answer (writeRptr t e.2))))

/-- The power events complete: PWR_ENTER and DST_LOG_RPTR are written through a path, an accepted entry starts once no test runs and
no command waits, and is abandoned for a command that waits, Distaff latches an edge and takes its tick, the wake timer matches, and
the wake timeline ends. Derived from R81, R84, R87, R90, R94, R97, R107. -/
def Obligations.PowerEventsComplete : Prop :=
  ∀ (s : State),
    (∀ (p : Path) (d : Word), s.pathLive p = true →
      let e := busWrite s p (Reg.addr ⟨.pwrEnter, 0, 0⟩) d
      let r := busWrite s p (Reg.addr ⟨.dstLogRptr, 0, 0⟩) d
      exec (.pwrEnterWrite p d) s = .next (e.2.setPath p { e.2.path p with data := [], error := decide (e.1 ≠ 0) }) ∧
      exec (.dstLogRptrWrite p d) s = .next (r.2.setPath p { r.2.path p with data := [], error := decide (r.1 ≠ 0) })) ∧
    (∀ target : PState, s.power.entry = some target → s.live = true → s.ref.running = [] → s.ref.waiting = [] →
      (∀ q : Nat, q < 67 → (isCmdQueue q = true ∨ q = 66) → (s.queue q).count = 0) →
      exec .powerEntryStart s = .next (
        let t := logPart (if s.usb.link = .suspended then s else dropPullup s) 0xD (2 + target.code * 2 ^ 8)
        { t with power := { t.power with state := target, entry := none, elapsed := 0, bobbinRet := t.bobbinRetained } })) ∧
    (∀ target : PState, s.power.entry = some target → s.live = true → s.ref.running = [] → s.ref.waiting = [] →
      (∃ q : Nat, q < 67 ∧ (isCmdQueue q = true ∨ q = 66) ∧ 0 < (s.queue q).count) →
      exec .powerEntryStart s = .next (heldEntry { s with
        power := { s.power with entry := none, refused := true }, storage := { s.storage with suspended := false } })) ∧
    (∀ w : Fin 16, s.power.state ≠ .off →
      exec (.distaffEdgeLatch w false) s = .next { s with distaff := { s.distaff with
        rise := s.distaff.rise ||| BitVec.ofNat 16 (2 ^ w.val) } } ∧
      exec (.distaffEdgeLatch w true) s = .next { s with distaff := { s.distaff with
        fall := s.distaff.fall ||| BitVec.ofNat 16 (2 ^ w.val) } }) ∧
    (∀ mv : List Int, exec (.distaffTick mv) s = .next (partResetDue (romDue (aonTick s mv)))) ∧
    (bitB (s.rd .pwrCtrl) 1 = true → s.power.atick % 2 ^ 32 = (s.rd .pwrWakeAt).toNat →
      exec .wakeTimerMatch s = .next (wakeFor s .timer 0 .awake)) ∧
    (s.power.fastReset = false → s.power.waking = some .doze →
      exec .wakeComplete s = .next (
        let t := sleepLosses s
        { t with power := { t.power with state := .doze, waking := none } })) ∧
    (s.power.fastReset = false → s.power.waking = some .awake → exec .wakeComplete s = .next (finishWake s))

/-- The events of supplies, resets and the junction complete. Derived from R36, R57, R59, R60, R73, R125, R126, R129. -/
def Obligations.ResetEventsComplete : Prop :=
  ∀ (s : State),
    exec .coldReset s = .next { coldResetState s with power := { (coldResetState s).power with state := .off } } ∧
    (∀ rail : Rail, exec (.supplyMonitorReset rail) s = .next
      { fastReset s 2 with power := { (fastReset s 2).power with state := .off } }) ∧
    (s.power.state = .off →
      exec (.supplyRise .vaon) s = .next (
        { coldResetState s with power := { (coldResetState s).power with state := .awake, fastReset := true } }) ∧
      exec (.supplyRise .fast) s = .next { s with power := { s.power with state := .awake, fastReset := true } }) ∧
    exec (.supplyRise .usb) s = .next { s with power := { s.power with
      usbLow := false, usbRails := s.part.usbSupplied && decide (s.boot.phase ≠ .none) } } ∧
    (∀ tj : BitVec 8, exec (.junctionHot tj) s = .next { s with power := { s.power with
      tj := tj, hot := if 110 ≤ tj.toInt then true else if tj.toInt < 100 then false else s.power.hot } }) ∧
    (s.power.state ≠ .off →
      exec .junctionTrip s = .next
        { fastReset s 3 with power := { (fastReset s 3).power with trip := true, hot := true, tj := 120 } } ∧
      exec .nresetLow s = .next { fastReset s 4 with power := { (fastReset s 4).power with nresetLow := true } }) ∧
    exec .junctionTripRelease s = .next { s with power := { s.power with trip := false } } ∧
    exec .nresetRelease s = .next { s with power := { s.power with nresetLow := false } } ∧
    (s.survoRuns = true → exec .survoWatchdog s = .next (fastReset s 5)) ∧
    (∀ straps : Straps, s.power.fastReset = true → s.power.nresetLow = false → s.power.trip = false → s.power.state ≠ .off →
      exec (.fastDomainResetRelease straps) s = .next { s with
        power := { s.power with fastReset := false, writeProtect := false, baseTick := 0 },
        boot := { s.boot with straps := straps },
        fw := { s.fw with openMode := straps.openMode } })

/-- Start-up completes: the boot ROM starts the first image that passes, or USB recovery, the tables load, the quiet period ends,
the pods are read, READY comes; the pull-up is enabled and VBUS changes; and USB recovery takes an image, starts it where it passes
the checks, and answers its status. Derived from R129 to R137, R144, R145, R559. -/
def Obligations.StartupCompletes : Prop :=
  ∀ (s : State), s.live = true →
    (∀ a b : Option ImageView, s.boot.phase = .none ∨ s.boot.phase = .rom →
      let va := a.getD s.boot.copyA
      let vb := b.getD s.boot.copyB
      let r := if s.boot.phase = .none then beginRom s else s
      let t := setBoot r fun b => { b with copyA := va, copyB := vb }
      let u (e : BitVec 8) : State := setBoot t fun b => { b with flags := b.flags ||| 1, error := e }
      (t.member.lanes = 0 ∨ t.boot.straps.bootsel = true → exec (.bootRomRun a b) s = .next (tryPods (enterRecovery t))) ∧
      (t.member.lanes ≠ 0 → t.boot.straps.bootsel = false →
        (imageError va = none → exec (.bootRomRun a b) s = .next (tryPods (startImage t va false))) ∧
        (∀ e, imageError va = some e →
          (imageError vb = none → exec (.bootRomRun a b) s = .next (tryPods (startImage (u e) vb true))) ∧
          (∀ e', imageError vb = some e' → exec (.bootRomRun a b) s = .next (
            tryPods (enterRecovery (setBoot (u e) fun b => { b with flags := b.flags ||| 2 }))))))) ∧
    (∀ a b : LaneProbe, s.boot.phase = .fwStart →
      exec (.bbtLoaded a b) s = .next (
        tryPods (setBoot (sweepHanks (loadLane (loadLane s 0 a) 1 b)) fun t => { t with phase := .bbt, bbtDone := true }))) ∧
    exec .quietPeriodEnd s = .next (tryPods (setBoot s fun b => { b with quietOver := true })) ∧
    (∀ reads : List PodRead, s.boot.phase = .pods → s.boot.podsDone = false →
      exec (.podDiscovery reads) s = .next (
        let t := s.each (List.range s.member.pods) fun s p => readPod s p (reads.getD p (.absent 0)) false
        setBoot t fun b => { b with podsDone := true })) ∧
    (s.boot.phase = .pods → s.boot.podsDone = true →
      exec .ready s = .next (
        let t := setBoot s fun b => { b with phase := .ready }
        let t := { t with ref := { t.ref with retired := t.fw.retained } }
        let t := restoreSessions (t.each (t.ref.retired.map Prod.fst) applyRetained)
        let t := t.wr .iuAge 0 0 (t.fw.age.getD t.part.iuAgeDef)
        let t := { t with
          iu := { t.iu with calPending := true },
          storage := { t.storage with scrubDue := bitsOf ((List.range 2).filter fun x => t.laneServes x) },
          fw := { t.fw with credHash := t.keptHash },
          tw := { t.tw with pointer := 0x1140 } }
        let t := t.each (t.benchList.map fun n => (.bench (Fin.ofNat 8 n) : Stream)) fun s st => setEarly s st
        iuPump (twKick (updateCorr (setEarly (setEarly t .adminUsb) .adminTw))))) ∧
    ((s.pullupDue = true → s.mayAttach = true → exec .usbPullupEnable s = .next
        { s with usb := { s.usb with pullup := true, hsOnly := bitB (s.rd .usbCtrl) 0 } }) ∧
      (s.pullupDue = false ∨ s.mayAttach = false → exec .usbPullupEnable s = .next s)) ∧
    (exec (.vbusChange true) s = .next { s with power := { s.power with vbus := true } } ∧
      exec (.vbusChange false) s = .next (
        let t := dropPullup { s with power := { s.power with vbus := false } }
        { t with usb := { t.usb with fsReject := false } })) ∧
    (s.usb.pullup = true → s.boot.phase = .recovery →
      (∀ (off : Nat) (data : List Byte), off ≤ 55 → data.length ≤ 4096 →
        exec (.recWrite off data) s = .next (
          let bytes := data.mapIdx fun i b => (off * 4096 + i, b)
          let t := setBoot s fun b => { b with recovery := bytes.foldl (fun m e => m.put (fun _ => 0) e.1 e.2) b.recovery }
          { t with usb := { t.usb with stall := false } })) ∧
      exec .recBoot s = .next (match imageError (viewImage s.part.keyHash s.recBytes) with
        | some _ => setStall s true
        | none =>
          let t := startImage (setStall s false) (viewImage s.part.keyHash s.recBytes) false
          dropPullup (setBoot t fun b => { b with flags := b.flags ||| 8, quietOver := false })) ∧
      exec .recStatus s = .next { s with usb := { s.usb with stall := false, ctlData := s.boot.statusBytes } })

/-- The events of the USB link complete: bus reset, detach, the loss of its rails, suspend, resume, the rejected Full-Speed host,
the fallback to High Speed, remote wakeup and the standard requests. Derived from R30, R59, R723 to R725, R741 to R745. -/
def Obligations.UsbLinkCompletes : Prop :=
  ∀ (s : State),
    (s.usb.link ≠ .detached →
      exec (.usbDetach .unplugged) s = .next (linkLost s false) ∧
      (s.live = true → exec (.usbDetach .busReset) s = .next (linkLost s true) ∧ exec (.usbResume true) s = .next (linkLost s true)) ∧
      (s.live = false → exec (.usbDetach .busReset) s = .next (wakeFor (linkLost s true) .usb 0 .awake) ∧
        exec (.usbResume true) s = .next (wakeFor (linkLost s true) .usb 0 .awake))) ∧
    (s.usb.link = .detached → s.hostPresent = true → exec (.usbDetach .busReset) s = .next (s.bumpSat .usbCnt 0 0 23 16 1)) ∧
    exec (.usbDetach .railsFall) s = .next (dropPullup { s with power := { s.power with usbLow := true, usbRails := false } }) ∧
    (s.usb.link = .highSpeed ∨ s.usb.link = .superSpeed →
      exec .usbSuspend s = .next { s with usb := { s.usb with link := .suspended } }) ∧
    (s.usb.link = .suspended →
      (s.live = true → exec (.usbResume false) s = .next { s with usb := { s.usb with link := s.usb.speed, signalling := false } }) ∧
      (s.live = false → exec (.usbResume false) s = .next (wakeFor s .usb 0 .awake)) ∧
      (s.live = true → s.usb.remoteWakeup = true → s.power.lastWake ≠ .usb → s.power.lastWake ≠ .powerOn →
        exec .remoteWakeup s = .next { s with usb := { s.usb with signalling := true } })) ∧
    (s.live = true → s.usb.pullup = true →
      exec .hsChirpTimeout s = .next { dropPullup s with usb := { (dropPullup s).usb with fsReject := true } } ∧
      (s.usb.link = .detached → exec .superspeedFallback s = .next { s with usb := { s.usb with hsOnly := true } }) ∧
      ∀ ss : Bool,
        let t := if s.usb.link = .detached then
            let l : Link := if ss && !s.usb.hsOnly then .superSpeed else .highSpeed
            { s with usb := { s.usb with link := l, speed := l } }
          else s
        exec (.usbEnumeration ss .getDescriptor) s =
          .next { t with usb := { t.usb with stall := false, ctlData := t.descriptorData } } ∧
        (∀ a : BitVec 7, exec (.usbEnumeration ss (.setAddress a)) s =
          .next { t with usb := { t.usb with stall := false, ctlData := [], addr := a } }) ∧
        exec (.usbEnumeration ss .setConfiguration) s =
          .next { t with usb := { t.usb with stall := false, ctlData := [], enumerated := true } } ∧
        (∀ on : Bool, exec (.usbEnumeration ss (.setRemoteWakeup on)) s =
          .next { t with usb := { t.usb with stall := false, ctlData := [], remoteWakeup := on } }) ∧
        exec (.usbEnumeration ss .unsupported) s = .next { t with usb := { t.usb with stall := true, ctlData := [] } })

/-- The bulk endpoints and the register window on endpoint 0 complete: OUT words are pushed as frames, a partial frame is discarded
and counted, an IN endpoint sends what is left of a container cut short, else its next container; and a window request reads or
writes its words in address order, waiting where a push waits, or is a bus error where it is not well formed. Derived from R727 to
R739, R750. -/
def Obligations.UsbTransfersComplete : Prop :=
  ∀ (s : State), s.usbUp = true → s.boot.phase ≠ .recovery →
    (∀ (ep : BitVec 8) (q : Nat) (ws : List Word), s.outQueue ep.toNat = some q →
      (s.queue q).waiting.any (fun w => decide (w.1 = .bulkOut)) = false →
      exec (.bulkOutFrame ep ws) s = .next (
        let t := if ep.toNat < 9 then moveUsb s (ep.toNat - 1) (4 * ws.length) else s
        let all := (t.endpoint ep.toNat).partialOut ++ ws
        let r := pushFrames t q all (all.length / 16)
        r.2.setEndpoint ep.toNat { r.2.endpoint ep.toNat with partialOut := r.1 })) ∧
    (∀ (ep : BitVec 8) (q : Nat), s.outQueue ep.toNat = some q →
      exec (.bulkOutPartialFrame ep) s = .next (
        (s.setEndpoint ep.toNat { s.endpoint ep.toNat with partialOut := [] }).bumpSat .usbCnt 0 0 15 0 1)) ∧
    (∀ (ep : BitVec 8) (q : Nat), 128 ≤ ep.toNat → s.outQueue (ep.toNat - 128) = some q →
      let e := ep.toNat - 128
      (∀ c : Container, (s.endpoint e).rest = some c →
        exec (.bulkInContainer ep) s = .next (s.setEndpoint e { s.endpoint e with sent := some c, rest := none })) ∧
      ((s.endpoint e).rest = none →
        ((∀ d ∈ (s.endpoint e).data.head?, d.rest = false) →
          (s.nextKind e = some 1 → s.rspReady e = true → exec (.bulkInContainer ep) s = .next (sendRsp s e)) ∧
          (s.nextKind e = some 2 → s.evtReady e = true → exec (.bulkInContainer ep) s = .next (sendEvt s e))) ∧
        (∀ (d : DataItem) (rest : List DataItem), (s.endpoint e).data = d :: rest → d.rest = true ∨ s.nextKind e = none →
          s.mayStart (e - 1) 2 = true → exec (.bulkInContainer ep) s = .next (sendItem s e d rest)))) ∧
    (∀ (ep : BitVec 8) (gone : Option Nat),
      (ep.toNat < 128 → exec (.clearFeatureEndpointHalt ⟨ep, gone⟩) s = .next
        (s.setEndpoint ep.toNat { s.endpoint ep.toNat with partialOut := [] })) ∧
      (128 ≤ ep.toNat →
        (gone = none → exec (.clearFeatureEndpointHalt ⟨ep, gone⟩) s = .next s) ∧
        (∀ k, gone = some k → exec (.clearFeatureEndpointHalt ⟨ep, gone⟩) s = .next (cutContainer s (ep.toNat - 128) k)))) ∧
    (∀ wValue wIndex wLength : BitVec 16, s.requestWaits = false →
      (requestOk wIndex wLength = true →
        exec (.usbRegRead wValue wIndex wLength) s = .next (
          let r := windowReads s (requestAddr wValue wIndex) (wLength.toNat / 4)
          windowDone r.2.2 (if r.2.1 then [] else r.1) r.2.1) ∧
        ∀ data : List Word, exec (.usbRegWrite wValue wIndex wLength data) s = .next (
          let r := windowWrites s (requestAddr wValue wIndex) (data.take (wLength.toNat / 4))
          if r.2.usb.request.isSome then r.2 else windowDone r.2 [] r.1)) ∧
      (requestOk wIndex wLength = false →
        exec (.usbRegRead wValue wIndex wLength) s =
          .next (windowDone (busError s .usb (requestAddr wValue wIndex) 2 false) [] true) ∧
        ∀ data : List Word, exec (.usbRegWrite wValue wIndex wLength data) s =
          .next (windowDone (busError s .usb (requestAddr wValue wIndex) 2 true) [] true)))

/-- Every access of the register window completes on a path that is live: the access is made, and the path keeps the word it
returned and whether it was a bus error; Survo firmware leaves a CMD queue alone while it holds a response of its stream. Derived
from R164, R167, R172, R179, R180, R191, R195, R221, R239, R243. -/
def Obligations.RegisterAccessesComplete : Prop :=
  ∀ (s : State) (p : Path), s.pathLive p = true →
    let wrote (addr : Nat) (d : Word) : State :=
      let r := busWrite s p addr d
      r.2.setPath p { r.2.path p with data := [], error := decide (r.1 ≠ 0) }
    let was (addr : Nat) : State :=
      let r := busRead s p addr
      if s.leavesQueue p addr then s
      else r.2.2.setPath p { r.2.2.path p with data := [r.1], error := decide (r.2.1 ≠ 0) }
    (∀ (a : BitVec 16) (d : Word),
      exec (.registerWrite p a d) s = .next (wrote a.toNat d) ∧
      exec (.setAliasWrite p a d) s = .next (wrote (0x10000 + a.toNat) d) ∧
      exec (.clearAliasWrite p a d) s = .next (wrote (0x20000 + a.toNat) d) ∧
      exec (.toggleAliasWrite p a d) s = .next (wrote (0x30000 + a.toNat) d) ∧
      exec (.accumulatorLoRead p a) s = .next (was a.toNat) ∧
      exec (.accumulatorLoWrite p a d) s = .next (wrote a.toNat d) ∧
      exec (.accumulatorHiWrite p a d) s = .next (wrote a.toNat d)) ∧
    (∀ a : BitVec 20, isAon a.toNat = true →
      (∀ d : Word, exec (.crossDomainAccess p a (some d)) s = .next (wrote a.toNat d)) ∧
      exec (.crossDomainAccess p a none) s = .next (was a.toNat)) ∧
    (∀ (q : Fin 66) (d : Word),
      exec (.qWrLo p q d) s = .next (wrote (queueBase q + 0x08) d) ∧
      exec (.qWrHi p q d) s = .next (wrote (queueBase q + 0x0C) d) ∧
      exec (.qWrHim p q d) s = .next (wrote (queueBase q + 0x10) d) ∧
      exec (.qRdLo p q) s = .next (was (queueBase q + 0x14)) ∧
      exec (.queueFlush p q) s = .next (wrote (queueBase q) (pack [(bN (s.qHold q), 0), (0xF1, 24)]))) ∧
    (∀ (n : Fin 8) (d : Word), exec (.cmpSnFlushWrite p n d) s = .next (wrote (Reg.addr ⟨.cmpSFlush, n.val, 0⟩) d))

/-- The events of the hardware queues complete: a waiting push is completed where it can be, a write lock that has timed out is
gone, and the words of a queue fall for some cycles; those of the USB admin buffer join their stream, unless a response of it is
held. Derived from R220, R239, R240, R242, R250. -/
def Obligations.QueueEventsComplete : Prop :=
  ∀ (s : State), s.live = true →
    (∀ q : Fin 68, exec (.queuePushComplete q) s = .next (pushCompletes s q)) ∧
    (∀ q : Fin 66, exec (.wlockTimeout q) s = .next (s.setQueue q { s.queue q with wlock := none })) ∧
    (∀ (q : Fin 68) (cycles : Nat) (upset : Option (Nat × Fin 67)),
      (q.val < 66 → exec (.queueWordFall q ⟨cycles, upset⟩) s = .next (fallQueue s q cycles (upset.map fun u => (u.1, u.2.val)))) ∧
      (q.val = 67 → exec (.queueWordFall q ⟨cycles, upset⟩) s = .next s) ∧
      (q.val = 66 → s.survoRuns = true → (s.stream .adminUsb).held = [] →
        exec (.queueWordFall q ⟨cycles, upset⟩) s = .next (
          let u := s.setQueue 66 { s.queue 66 with stages := [] }
          u.setStream .adminUsb ((u.stream .adminUsb).collect (s.queue 66).words))) ∧
      (q.val = 66 → (s.stream .adminUsb).held ≠ [] → exec (.queueWordFall q ⟨cycles, upset⟩) s = .next s))

/-- What Survo firmware does with a stream beside taking whole commands completes: a command whose next frame has not come is
answered TIMEOUT, words that begin no frame, frames cut short and poisoned commands are discarded, an expired deadline stops its
command, and backlogs are written. Derived from R232, R249, R268, R280 to R284, R293, R294, R308, R309. -/
def Obligations.StreamEventsComplete : Prop :=
  ∀ (s : State) (st : Stream),
    (s.streamFree st = true →
      let rx := (s.stream st).rx
      (8 ≤ rx.length → rx.length < cmdSpan rx → (rx.head?.any fun w => decide (w.tag = .mark)) = true →
        exec (.commandFrameTimeout st) s = .next (
          respond (dropWords s st rx.length) (s.headCmd st).1 (s.headCmd st).2 .timeout 0 [] s.isReplaying)) ∧
      (∀ (w : QWord) (rest : List QWord), rx = w :: rest → w.tag ≠ .mark →
        exec (.cmdDiscarded st) s = .next (discardUnnamed s st (1 + (beforeMark rest).length))) ∧
      (∀ (w : QWord) (rest : List QWord), rx = w :: rest → w.tag = .mark →
        let mine := commandWords rx
        let whole : Prop := mine.length = cmdSpan rx
        let cut : Prop := mine.length < cmdSpan rx ∧ mine.length < rx.length
        let after := dropWords s st mine.length
        let c := s.headCmd st
        (whole ∨ cut → (∃ x ∈ mine, x.tag = .poison) →
          exec (.cmdDiscarded st) s = .next (respond after c.1 c.2 .faultLet 0x0201 [] s.isReplaying)) ∧
        (cut → (∀ x ∈ mine, x.tag ≠ .poison) →
          (mine.length < 8 → exec (.cmdDiscarded st) s = .next after) ∧
          (8 ≤ mine.length → exec (.cmdDiscarded st) s = .next (respond after c.1 c.2 .timeout 0 [] s.isReplaying))))) ∧
    (s.survoRuns = true →
      (∀ (tag : BitVec 8) (elapsed : Nat) (t : State), (framesTimeout s st tag (min 0xFFFF (max 1 elapsed))).or
          (waitingTimeout s st tag (min 0xFFFF (max 1 elapsed))) = some t →
        exec (.commandDeadline st tag elapsed) s = .next t) ∧
      (∀ (tag : BitVec 8) (elapsed : Nat) (a : Accepted), framesTimeout s st tag (min 0xFFFF (max 1 elapsed)) = none →
        waitingTimeout s st tag (min 0xFFFF (max 1 elapsed)) = none →
        ((s.stream st).outstanding.find? fun a => a.tag == tag) = some a →
        exec (.commandDeadline st tag elapsed) s = .next (acceptedTimeout s st a (min 0xFFFF (max 1 elapsed)))) ∧
      (st ≠ .adminTw → exec (.responseBacklogWrite st) s = .next (pumpResponse s st)) ∧
      exec (.responseBacklogWrite .adminTw) s = .next (writeAdminFrame (pumpResponse s .adminTw)) ∧
      ∀ n : Fin 8, (s.sess n).detached = false →
        ((s.sess n).transport = .usb → exec (.eventBacklogWrite n) s = .next (drainBacklog s n 48)) ∧
        ((s.sess n).transport = .twoWire → (s.stream (.bench (Fin.ofNat 8 n))).held.isEmpty = true →
          (s.queue (n * 8 + 1)).roomFor 8 = true → exec (.eventBacklogWrite n) s = .next (frameBacklog s n 1)))

/-- A bench reset or close completes once the programs already issued have: the account closes, the window returns to its reset
values, BENCH_RESET_DONE is posted and the answers of R297 go out, last those to the commands that arrived meanwhile. Derived from
R29, R190, R281, R297, R620, R630. -/
def Obligations.BenchResetCompletes : Prop :=
  ∀ (s : State) (n : Fin 8) (r : ResetJob), (s.sess n).reset = some r → s.bstate n = .resetting → s.live = true →
    s.programming n = false →
    exec (.benchResetComplete n) s = .next (
      let t := resetWindow (closeAccount (closeHank s n) n) n
      let t := t.setSeqr n { force := (t.seqr n).force }
      let t := { t with iu := { t.iu with configs := t.iu.configs.put iuConfigInit n (iuConfigInit n) } }
      let t := postEvent (t.setSess n { t.sess n with reset := none }) n 0x8101 r.ended
      let t := if (t.sess n).transport = .twoWire then frameBacklog t n 48 else t
      let t := resetResponses (t.setBState n .idle) n r
      lateResponses (if r.close then releaseSession t n else t) n (t.sess n).late)

/-- A step takes the command at the front of the queue and is that command's effect on the state that holds the rest of the queue;
with no command waiting one base tick passes (DESIGN CHOICE 1). Derived from R79, R271. -/
def Obligations.StepRunsFrontCommand : Prop :=
  (∀ (s : State) (c : Instr) (rest : List Instr), s.pending = c :: rest → step s = exec c { s with pending := rest }) ∧
  (∀ s : State, s.pending = [] → step s = .next (idleTick s))

/-- The state after reset has the properties that every step keeps, no command waiting, and every register at its reset value.
Derived from R25, R125, R238, R795, R852. -/
def Obligations.ResetKeepsRules : Prop :=
  Canonical State.reset ∧ State.reset.cal.InRange ∧ State.reset.pending = [] ∧
  (∀ a : Nat, State.reset.regWord a = regDefault a ∧ State.reset.actWord a = regDefault a) ∧
  State.reset.boot.cause = 1 ∧ State.reset.cal.dateWord = 0x00010100 ∧ State.reset.cal.timeWord = 0 ∧
  (∀ n : Nat, State.reset.bstate n = .closed) ∧ ∀ q : Nat, (State.reset.queue q).count = 0 ∧ (State.reset.queue q).held = QWord.idle

/-- Every step keeps every array of the A9 in canonical form: equal contents stay equal data. Derived from R202, R852. -/
def Obligations.StepKeepsCanonical : Prop :=
  ∀ s t : State, Canonical s → step s = .next t → Canonical t

/-- Every step keeps the calendar's fields in the ranges in which it counts, whatever date is committed. Derived from R791, R792,
R798. -/
def Obligations.StepKeepsCalendarInRange : Prop :=
  ∀ s t : State, s.cal.InRange → step s = .next t → t.cal.InRange

/-- GLB_PARAM0 to GLB_PARAM3 show the values of the member and stepping in every state, and no step changes them. Formalises R10. -/
def Obligations.StepHoldsParams : Prop :=
  (∀ s : State, s.shown .glbParam0 = s.part.member.param0 ∧ s.shown .glbParam1 = s.part.member.param1 ∧
    s.shown .glbParam2 = setFld s.part.member.param2 15 8 s.part.step.toNat ∧ s.shown .glbParam3 = s.part.member.param3) ∧
  (∀ s t : State, step s = .next t →
    t.part = s.part ∧ t.shown .glbParam0 = s.shown .glbParam0 ∧ t.shown .glbParam1 = s.shown .glbParam1 ∧
    t.shown .glbParam2 = s.shown .glbParam2 ∧ t.shown .glbParam3 = s.shown .glbParam3)

/-- No command touches the queue of waiting commands: what waits behind it is what waits next. Derived from R271. -/
def Obligations.ExecKeepsQueue : Prop :=
  ∀ (c : Instr) (s t : State), exec c s = .next t → t.pending = s.pending

/-- A cold reset sets the calendar to 2000-01-01 00:00:00.00000 and clears SET, BADDATE and WRAP; the resets of the fast domain
leave the calendar and CAL_STATUS unchanged. Formalises R795. -/
def Obligations.CalendarAcrossResets : Prop :=
  ∀ s : State,
    (∀ t : State, exec .coldReset s = .next t ∨ (s.power.state = .off ∧ exec (.supplyRise .vaon) s = .next t) →
      t.cal.dateWord = 0x00010100 ∧ t.cal.timeWord = 0 ∧ t.cal.sub = 0 ∧ t.cal.statusWord = 0) ∧
    (∀ t : State, (∃ rail : Rail, exec (.supplyMonitorReset rail) s = .next t) ∨ exec .junctionTrip s = .next t ∨
        exec .nresetLow s = .next t ∨ exec .survoWatchdog s = .next t ∨ (∃ c : BitVec 8, t = fastReset s c) →
      t.cal.dateWord = s.cal.dateWord ∧ t.cal.timeWord = s.cal.timeWord ∧ t.cal.sub = s.cal.sub ∧
      t.cal.statusWord = s.cal.statusWord)

/-- Resets and the registers: a cold reset leaves every register, stored and in effect, at its reset value; a reset of the fast
domain does so outside 0x1000 to 0x1FFF and leaves those in it, the NAND lanes' pages and the part as they are. Derived from R852,
R853. -/
def Obligations.RegistersAcrossResets : Prop :=
  ∀ s : State,
    (∀ t : State, exec .coldReset s = .next t →
      t.part = s.part ∧ ∀ a : Nat, t.regWord a = regDefault a ∧ t.actWord a = regDefault a) ∧
    (∀ (rail : Rail) (t : State), exec (.supplyMonitorReset rail) s = .next t ∨ exec .junctionTrip s = .next t ∨
        exec .nresetLow s = .next t →
      t.part = s.part ∧ t.distaff = s.distaff ∧ t.power.atick = s.power.atick ∧
      ∀ a : Nat,
        (a < 0x1000 ∨ 0x2000 ≤ a → t.regWord a = regDefault a ∧ t.actWord a = regDefault a) ∧
        (0x1000 ≤ a → a < 0x2000 → t.regWord a = s.regWord a ∧ t.actWord a = s.actWord a))

/-- The filtered level of a Distaff channel: 1 when at least N of the last M tick values are 1, 0 when at least N of them are 0,
else kept, with M and N of DST_FILTj; a setting with N > M or 2 N ≤ M is N = M. The last tick values are the history with this
tick's value in front. Formalises R95 and R96. -/
def Obligations.FilteredLevels : Prop :=
  ∀ (s : State) (levels : BitVec 16) (w : Nat), w < 16 →
    let f := s.rd .dstFilt (w / 4)
    let m := fld f (8 * (w % 4) + 6) (8 * (w % 4) + 4) + 1
    let n' := fld f (8 * (w % 4) + 2) (8 * (w % 4)) + 1
    let n := if m < n' ∨ 2 * n' ≤ m then m else n'
    let r := distaffValues s levels
    let h := r.2.distaff.history.get (fun _ => 0) w
    let last := (List.range m).map fun i => h.getLsbD i
    1 ≤ m ∧ m ≤ 8 ∧
    (∀ i : Nat, i < 7 → h.getLsbD (i + 1) = (s.distaff.history.get (fun _ => 0) w).getLsbD i) ∧
    r.2.distaff.filtered.getLsbD w =
      (if n ≤ last.count true then true else if n ≤ last.count false then false else s.distaff.filtered.getLsbD w)

/-- The conditions of word comparators and edge detectors: mask and match, the unsigned range, which never matches with A above B,
and the four kinds of edge against the bench's previous sample. Formalises R418, R419 and R420. -/
def Obligations.TriggerConditions : Prop :=
  ∀ (s : State) (n : Nat) (q : Sequencer) (lines : List Nat) (tick : Nat) (ws : List Word),
    (∀ c : Nat, c < 8 →
      let word := wordAt ws (fld (s.eff .trgWcCfg n c) 2 0)
      let a := s.eff .trgWcA n c
      let b := s.eff .trgWcB n c
      let mask := s.eff .trgWcMask n c
      let test := srcTest s n q lines tick ws (8 + c)
      (bitB (s.eff .trgWcCfg n c) 4 = false → (test = some true ↔ (word ^^^ a) &&& mask = 0)) ∧
      (bitB (s.eff .trgWcCfg n c) 4 = true →
        (test = some true ↔ a ≤ word &&& mask ∧ word &&& mask ≤ b) ∧ (b < a → test = some false))) ∧
    (∀ e : Nat, e < 4 → ∀ (p d : Nat) (prev : List Word), d < 32 → fld (s.eff .trgEdge n e) 7 0 = 32 * p + d → q.prev = some prev →
      let was := bitB (wordAt prev p) d
      let is := bitB (wordAt ws p) d
      let test := srcTest s n q lines tick ws (0x10 + e)
      (fld (s.eff .trgEdge n e) 9 8 = 0 → (test = some true ↔ was = false ∧ is = true)) ∧
      (fld (s.eff .trgEdge n e) 9 8 = 1 → (test = some true ↔ was = true ∧ is = false)) ∧
      (fld (s.eff .trgEdge n e) 9 8 = 2 → (test = some true ↔ was ≠ is)) ∧
      (fld (s.eff .trgEdge n e) 9 8 = 3 → test = some false))

/-- An error on a resource that a test waits for or runs on, and an error on a retired resource, changes nothing: no let, no test,
no entry. Formalises R778 and R780. -/
def Obligations.ErrorsJoinTests : Prop :=
  ∀ (s : State) (res : Word) (code : Nat), s.underTest res = true ∨ s.isRetired res = true → raiseFault s res code = s

/-- The verdict of a test: one that fails, and one that passes and would be the third let of its resource within 10 s, retires the
resource; one that a command requested counts no let; every verdict is entered in the log with its code, verdict, THREE, REQUESTED,
resource and base tick. Derived from R755 to R759, R768, R774. -/
def Obligations.VerdictsBooked : Prop :=
  ∀ (s : State) (x : RefTest) (pass : Bool), resType x.res ≠ 5 →
    let t := (bookVerdict s x pass).2
    let retire := (bookVerdict s x pass).1
    let third := decide (2 ≤ (s.recentLets x.res).length)
    let three := pass && !x.requested && third
    let code := if x.requested then resType x.res * 256 else x.code
    (retire = (!pass || three)) ∧
    (retire = true → (∃ k : Nat, (x.res, k) ∈ t.ref.retired) ∧ t.fw.retained = (if s.ref.retired.any (fun p => decide (p.1 = x.res))
      then s.fw.retained else t.ref.retired)) ∧
    (retire = false → t.ref.retired = s.ref.retired ∧
      t.ref.lets.head? = (if x.requested then s.ref.lets.head? else some (x.res, s.power.baseTick :: s.recentLets x.res))) ∧
    t.ref.written = s.ref.written + 1 ∧
    t.ref.log.get (fun _ => []) (s.ref.written % 256) =
      [W (code + (if retire then 2 else 1) * 2 ^ 16 + bN three * 2 ^ 18 + bN x.requested * 2 ^ 19 +
        (s.resOwner x.res).getD 15 * 2 ^ 20 + s.ref.written % 256 * 2 ^ 24), x.res] ++ lohi (s.power.baseTick % 2 ^ 56)

/-- A full set of pending alerts: the newest of the least urgent is discarded if it is less urgent than the arriving one, otherwise
the arriving one; TW_ALERT_DROP counts one more. Formalises R706. -/
def Obligations.FullAlertSet : Prop :=
  ∀ (s : State) (pri src bench code : Nat) (arg : BitVec 8), 16 ≤ s.tw.alerts.length →
    let t := latchAlert s pri src bench code arg
    let drops (u : State) : Nat := fld (u.rd .twAlertDrop) 15 0
    drops t = min 0xFFFF (drops s + 1) ∧
    ((∃ (l r : List Alert) (x : Alert), s.tw.alerts = l ++ x :: r ∧ (∀ y ∈ s.tw.alerts, y.pri ≤ x.pri) ∧ (∀ y ∈ r, y.pri < x.pri) ∧
        pri < x.pri ∧ t.tw.alerts = l ++ r ++ [⟨pri, src, bench, s.tw.nextId, code, arg⟩]) ∨
      ((∀ y ∈ s.tw.alerts, y.pri ≤ pri) ∧ t.tw.alerts = s.tw.alerts))

/-- A read of a queue whose stage 0 is empty: in IDLE mode the idle word with tag IDLE and no other change; in HOLD mode the last
word the queue delivered, with its tag, and UNDERRUN in Q_CNT and Q_STATUS. Formalises R235 and R236. -/
def Obligations.EmptyQueueReads : Prop :=
  ∀ (s : State) (q : Nat), q < 66 → s.queueResetting q = false → (s.queue q).retired = false → (s.queue q).testing = false →
    let r := deliver s q
    let underruns (u : State) : Nat := if q < 64 then fld (u.rd .qCnt q) 23 12 else fld (u.rd .glbAqCnt (q - 64)) 23 12
    ((s.queue q).bottom = none →
      (s.qHold q = false → r.1.data = 0x1D1E000000000000 ∧ r.1.tag = .idle ∧ r.2 = s) ∧
      (s.qHold q = true → r.1 = (s.queue q).held ∧ (r.2.queue q).underrun = true ∧
        underruns r.2 = min 0xFFF (underruns s + 1))) ∧
    ((s.queue q).bottom ≠ none → (r.2.queue q).held.data = r.1.data ∧ (r.2.queue q).held.tag = r.1.tag)

/-- A queue is first in, first out: an accepted word enters stage 15 behind the others, falling keeps the order, no two words ever
stand in one stage, and a delivering read takes the word of stage 0 away and leaves the rest. Derived from R219 to R221, R227. -/
def Obligations.QueuesAreFifo : Prop :=
  let inOrder (x : Queue) : Prop := (x.stages.Pairwise fun a b => a.1 < b.1) ∧ ∀ a ∈ x.stages, a.1 < 16
  ∀ (s : State) (q : Nat),
    (∀ (p : Producer) (d : DWord) (g : Tag), (s.queue q).retired = false → ((s.queue q).met p).canPush p = true →
      let x := (pushWord s q p d g).queue q
      x.words = (s.queue q).words ++ [mkQWord d g] ∧
      (q < 66 → x.stages.getLast? = some (15, mkQWord d g)) ∧
      (q < 66 → inOrder (s.queue q) → inOrder x) ∧
      ∀ k : Nat, k ≠ q → (pushWord s q p d g).queue k = s.queue k) ∧
    (∀ cycles : Nat,
      let x := (fallQueue s q cycles none).queue q
      x.words = (s.queue q).words ∧ (inOrder (s.queue q) → inOrder x) ∧
      ∀ k : Nat, k ≠ q → (fallQueue s q cycles none).queue k = s.queue k) ∧
    (∀ (w : QWord) (rest : List (Nat × QWord)), (s.queue q).stages = (0, w) :: rest → s.queueResetting q = false →
      (s.queue q).retired = false → (s.queue q).testing = false → wordParity w.data w.tag = w.par →
      (deliver s q).1 = w ∧ ((deliver s q).2.queue q).words = rest.map Prod.snd ∧
      (q < 66 → ((deliver s q).2.queue q).stages = rest) ∧
      ∀ k : Nat, k ≠ q → (deliver s q).2.queue k = s.queue k)

/-- A bench's SEQ advances by 1 modulo 256 with every event generated for it, delivered or not, and no other bench's does.
Formalises R287; an event that a replay leaves out of the bench's own run (R831) is not generated for it. -/
def Obligations.EventSequence : Prop :=
  ∀ (s : State) (n : Nat) (code : BitVec 16) (tag status : BitVec 8) (arg : Nat), (exemptEvent code && s.replaysBench n) = false →
    let t := sendEvent s n code tag status arg
    (t.sess n).seq = (s.sess n).seq + 1 ∧ ∀ m : Nat, m ≠ n → (t.sess m).seq = (s.sess m).seq

/-- A commit on its AON tick: staged values are valid exactly when YEAR, MONTH, DAY, HOUR, MINUTE and SECOND lie in their ranges,
and then the calendar takes them; otherwise it counts on from where it was and BADDATE is set. Derived from R797 to R800. -/
def Obligations.CalendarCommit : Prop :=
  ∀ s : State, s.cal.commit = true → s.cal.InRange →
    let v := s.cal.staged.getD s.calStaged
    let date := v.1
    let time := v.2.1
    let y := fld date 7 0
    let mo := fld date 11 8
    let d := fld date 20 16
    let valid := y ≤ 199 ∧ 1 ≤ mo ∧ mo ≤ 12 ∧ 1 ≤ d ∧
      d ≤ (if mo = 2 then (if y % 4 = 0 ∧ y ≠ 100 then 29 else 28) else if mo ∈ [4, 6, 9, 11] then 30 else 31) ∧
      fld time 20 16 ≤ 23 ∧ fld time 13 8 ≤ 59 ∧ fld time 5 0 ≤ 59
    let c := (calendarTick s).cal
    (valid → c.year = y ∧ c.month = mo ∧ c.day = d ∧ c.hour = fld time 20 16 ∧ c.minute = fld time 13 8 ∧ c.second = fld time 5 0 ∧
      c.sub = fld v.2.2 14 0 ∧ c.set = true ∧ c.badDate = false ∧ c.wrap = false) ∧
    (¬ valid → c.badDate = true ∧ c.set = s.cal.set ∧
      (c.linear = s.cal.linear + 1 ∨ (c.linear = 0 ∧ c.wrap = true ∧ s.cal.linear + 1 = 73049 * 86400 * 2 ^ 15)))

/-- The calendar counts one sub-second for every AON tick, with every carry, so that its linear value rises by one; from the last
sub-second of 2199 it returns to 2000-01-01 00:00:00 and sets WRAP. Derived from R791 to R794, R796. -/
def Obligations.CalendarCountsOn : Prop :=
  ∀ c : Calendar, c.InRange →
    (c.linear + 1 < 73049 * 86400 * 2 ^ 15 → c.advance.linear = c.linear + 1 ∧ c.advance.wrap = c.wrap) ∧
    (c.linear + 1 = 73049 * 86400 * 2 ^ 15 →
      c.advance.linear = 0 ∧ c.advance.dateWord = 0x00010100 ∧ c.advance.timeWord = 0 ∧ c.advance.sub = 0 ∧ c.advance.wrap = true) ∧
    c.linear < 73049 * 86400 * 2 ^ 15 ∧ c.advance.InRange

/-- A command that Survo firmware can take is answered with the first check it fails, in R318's order: frame, opcode, reserved bits
and role; the opcode's own permission; the TAG; the state, the conditions, the values; the command slots, of which a stream has
eight; and the resources. Before READY it is answered BAD_STATE. Derived from R148, R276, R277, R318. -/
def Obligations.CommandChecksInOrder : Prop :=
  ∀ (s : State) (i : OpInfo) (c : Cmd) (m : Meaning), s.survoRuns = true → isReplayTake s i.op c = false →
    streamBlocked s i.op c = false →
    let t := takeCommand s i.op c
    let answers (st : Status) (d : Nat) : Prop := mailbox s i c m = respond t i.op c st d []
    (s.isReady = false → answers .badState 0xFFFF) ∧
    (s.isReady = true → (s.stream c.stream).early = 0 → streamResetting s c = false →
      (∀ (st : Status) (d : Nat), checkForm s i c false = some (st, d) → answers st d) ∧
      (checkForm s i c false = none →
        (∀ (st : Status) (d : Nat), m.perm s = some (st, d) → mailbox s i c m = respond (m.barred t) i.op c st d []) ∧
        (m.perm s = none →
          ((s.busyTags c.stream).contains c.tag = true → answers .badArg 0) ∧
          (checkTag s c = none → (c.fence = true → (s.stream c.stream).outstanding = []) →
            (∀ (st : Status) (d : Nat), checkState t i c false = some (st, d) → answers st d) ∧
            (checkState t i c false = none →
              (∀ (st : Status) (d : Nat), m.cond t = some (st, d) → mailbox s i c m = respond (m.denied t) i.op c st d []) ∧
              (m.cond t = none →
                (∀ (st : Status) (d : Nat), m.args t = some (st, d) → answers st d) ∧
                (m.args t = none →
                  (i.long = true → 8 ≤ (t.stream c.stream).outstanding.length → answers .noSpace 0xFFFF) ∧
                  (i.long = false ∨ (t.stream c.stream).outstanding.length < 8 →
                    (∀ (st : Status) (d : Nat), m.space t = some (st, d) → answers st d) ∧
                    (m.space t = none → mailbox s i c m = m.run t false)))))))))

/-- What a refused or answered command leaves unchanged, where no completion of its stream (R306) and no OPEN_BENCH_CHANGED (R310)
waits for the response: everything but the stream it came on, whose turn has passed, queue counters and queues, the endpoints, the
recorder and the comparator. Derived from R271 to R273, R318. -/
def Obligations.AnswersChangeNothingElse : Prop :=
  ∀ (s : State) (op : BitVec 16) (c : Cmd) (st : Status) (detail : Nat) (payload : List Word) (replayed : Bool),
    (s.stream c.stream).acking = none → s.fw.openPost = none →
    let t := respond (takeCommand s op c) op c st detail payload replayed
    t.part = s.part ∧ t.pending = s.pending ∧ t.power = s.power ∧ t.boot = s.boot ∧ t.distaff = s.distaff ∧ t.cal = s.cal ∧
    (∀ n : Nat, t.sess n = s.sess n) ∧ t.seqs = s.seqs ∧ t.caps = s.caps ∧ t.cmps = s.cmps ∧ t.pods = s.pods ∧ t.engines = s.engines ∧
    t.umpire = s.umpire ∧ t.lanes = s.lanes ∧ t.storage = s.storage ∧ t.iu = s.iu ∧ t.tw = s.tw ∧ t.ref = s.ref ∧
    t.fw = { s.fw with served := t.fw.served } ∧
    t.act = s.act ∧ t.paths = s.paths ∧ t.free = s.free ∧ t.busErr = s.busErr ∧
    (∀ k : Stream, k ≠ c.stream → t.stream k = s.stream k) ∧
    (∀ r : Reg, r.name ∉ [.qCnt, .glbAqCnt, .bnEvtLost, .rplLost, .rplEntriesLo, .rplEntriesHi, .rplDivCnt] → regAt r.addr = some r →
      t.regWord r.addr = s.regWord r.addr)

/-- A write at the normal address of a register that has C and G fields and none of class A, H or K: its stored fields take the
data, bits in no field stay 0, and no other register changes but the counters of the recorder, where no job waits that the value
could leave without an engine (R372) and no POD_ASSIGN waits for its values (R338). DST_LOG_RPTR, whose write has a rule of its own
(R107), takes the data where the log would hold at most 4,096 entries and else keeps its value. Derived from R9, R107, R164, R172,
R199. -/
def Obligations.PlainRegisterWrite : Prop :=
  ∀ (s : State) (p : Path) (a : BitVec 16) (d : Word) (r : Reg), s.pathLive p = true → s.busCause p a.toNat false (some d) = 0 →
    s.regFor a.toNat = some r → r.name.row.bits .k = 0 → r.name.row.bits .h = 0 → r.name.row.bits .a = 0 →
    r.name.row.bits .c ||| r.name.row.bits .g ≠ 0 → s.umpire.jobs = [] → s.fw.assign = none →
    ∃ t : State, exec (.registerWrite p a d) s = .next t ∧
      (r.name ≠ .dstLogRptr → t.regWord a.toNat = d &&& (r.name.row.bits .c ||| r.name.row.bits .g)) ∧
      (r.name = .dstLogRptr → t.regWord a.toNat =
        (if (s.distaff.wptr + 8192 - d.toNat % 8192) % 8192 ≤ 4096 then W (d.toNat % 8192) else s.regWord a.toNat)) ∧
      t.part = s.part ∧ t.pending = s.pending ∧ t.distaff = s.distaff ∧ t.cal = s.cal ∧ (∀ n : Nat, t.sess n = s.sess n) ∧
      (t.path p).error = false ∧ (∀ k : Path, k ≠ p → t.path k = s.path k) ∧
      ∀ b : Reg, regAt b.addr = some b → b.addr ≠ a.toNat →
        b.name ∉ [.qCnt, .glbAqCnt, .bnEvtLost, .rplLost, .rplEntriesLo, .rplEntriesHi, .rplDivCnt] → t.regWord b.addr = s.regWord b.addr
end

