-- ==== Sys2Proof/Laws/Store.lean ====
section
/-! SUPPORT. What the sparse store does: a read after a write, and that every operation keeps the canonical form. -/

namespace Sys2Proof.Machine

variable {α : Type}

@[simp] theorem Store.get_nil (d : Nat → α) (k : Nat) : Store.get d [] k = d k := rfl

theorem Store.get_erase_same (d : Nat → α) (m : Store α) (k : Nat) :
    Store.get d (Store.erase m k) k = d k := by
  induction m with
  | nil => rfl
  | cons e t ih =>
    by_cases h : e.1 = k
    · simpa [Store.erase, h] using ih
    · simpa [Store.erase, h, Store.get] using ih

theorem Store.get_erase_ne (d : Nat → α) (m : Store α) {k j : Nat} (hj : j ≠ k) :
    Store.get d (Store.erase m k) j = Store.get d m j := by
  induction m with
  | nil => rfl
  | cons e t ih =>
    by_cases h : e.1 = k
    · have hne : e.1 ≠ j := fun h' => hj (h' ▸ h)
      have : Store.erase (e :: t) k = Store.erase t k := by simp [Store.erase, h]
      rw [this, ih]; simp [Store.get, hne]
    · have : Store.erase (e :: t) k = e :: Store.erase t k := by simp [Store.erase, h]
      rw [this]; simp only [Store.get, ih]

theorem Store.get_ins_ne (d : Nat → α) (m : Store α) (v : α) {k j : Nat} (hj : j ≠ k) :
    Store.get d (Store.ins m k v) j = Store.get d m j := by
  induction m with
  | nil => simp [Store.ins, Store.get, Ne.symm hj]
  | cons e t ih =>
    simp only [Store.ins]
    split
    · simp [Store.get, Ne.symm hj]
    · simp only [Store.get, ih]

theorem Store.get_ins_same (d : Nat → α) (m : Store α) (k : Nat) (v : α) (h : ∀ e ∈ m, e.1 ≠ k) :
    Store.get d (Store.ins m k v) k = v := by
  induction m with
  | nil => simp [Store.ins, Store.get]
  | cons e t ih =>
    simp only [Store.ins]
    split
    · simp [Store.get]
    · have he : e.1 ≠ k := h e (by simp)
      simp only [Store.get, he, if_false]
      exact ih fun x hx => h x (by simp [hx])

theorem Store.erase_key_ne (m : Store α) (k : Nat) : ∀ e ∈ Store.erase m k, e.1 ≠ k := by
  intro e he
  simpa using (List.mem_filter.1 he).2

/-- A read of the key written gives the value written. -/
@[simp] theorem Store.get_put_same [DecidableEq α] (d : Nat → α) (m : Store α) (k : Nat) (v : α) :
    Store.get d (Store.put d m k v) k = v := by
  unfold Store.put
  split
  · next h => rw [Store.get_erase_same, h]
  · exact Store.get_ins_same d _ k v (Store.erase_key_ne m k)

/-- A write leaves every other key alone. -/
theorem Store.get_put_ne [DecidableEq α] (d : Nat → α) (m : Store α) (v : α) {k j : Nat} (hj : j ≠ k) :
    Store.get d (Store.put d m k v) j = Store.get d m j := by
  unfold Store.put
  split
  · exact Store.get_erase_ne d m hj
  · rw [Store.get_ins_ne d _ v hj, Store.get_erase_ne d m hj]

/-- A read after a write, in one equation. -/
theorem Store.get_put [DecidableEq α] (d : Nat → α) (m : Store α) (k j : Nat) (v : α) :
    Store.get d (Store.put d m k v) j = if j = k then v else Store.get d m j := by
  by_cases h : j = k
  · subst h; simp
  · simp [h, Store.get_put_ne d m v h]

theorem Store.wf_iff [DecidableEq α] (d : Nat → α) (m : Store α) :
    Store.wf d m = true ↔ (m.map Prod.fst).Pairwise (· < ·) ∧ ∀ e ∈ m, e.2 ≠ d e.1 := by
  simp [Store.wf, List.all_eq_true]

theorem Store.filter_wf [DecidableEq α] (d : Nat → α) (m : Store α) (p : Nat × α → Bool)
    (h : Store.wf d m = true) : Store.wf d (m.filter p) = true := by
  rw [Store.wf_iff] at h ⊢
  refine ⟨?_, fun e he => h.2 e (List.mem_filter.1 he).1⟩
  exact h.1.sublist ((List.filter_sublist (p := p) (l := m)).map Prod.fst)

theorem Store.ins_keys (m : Store α) (k : Nat) (v : α) (x : Nat × α) (hx : x ∈ Store.ins m k v) :
    x = (k, v) ∨ x ∈ m := by
  induction m with
  | nil => simpa [Store.ins] using hx
  | cons e t ih =>
    simp only [Store.ins] at hx
    split at hx
    · simpa using hx
    · rcases List.mem_cons.1 hx with h | h
      · exact Or.inr (by simp [h])
      · rcases ih h with h | h
        · exact Or.inl h
        · exact Or.inr (by simp [h])

theorem Store.ins_wf [DecidableEq α] (d : Nat → α) (m : Store α) (k : Nat) (v : α)
    (hv : v ≠ d k) (hk : ∀ e ∈ m, e.1 ≠ k) (h : Store.wf d m = true) :
    Store.wf d (Store.ins m k v) = true := by
  induction m with
  | nil => rw [Store.wf_iff]; simpa [Store.ins] using hv
  | cons e t ih =>
    have h' := (Store.wf_iff d _).1 h
    have ht : Store.wf d t = true := by
      rw [Store.wf_iff]
      refine ⟨?_, fun x hx => h'.2 x (by simp [hx])⟩
      have := h'.1; simp only [List.map_cons, List.pairwise_cons] at this; exact this.2
    have hhead := h'.1
    simp only [List.map_cons, List.pairwise_cons, List.mem_map] at hhead
    simp only [Store.ins]
    split
    · next hlt =>
      rw [Store.wf_iff]
      refine ⟨?_, ?_⟩
      · simp only [List.map_cons, List.pairwise_cons, List.mem_cons, List.mem_map]
        refine ⟨?_, ?_, hhead.2⟩
        · rintro a (rfl | ⟨x, hx, rfl⟩)
          · exact hlt
          · exact Nat.lt_trans hlt (hhead.1 _ ⟨x, hx, rfl⟩)
        · rintro a ⟨x, hx, rfl⟩; exact hhead.1 _ ⟨x, hx, rfl⟩
      · intro x hx
        rcases List.mem_cons.1 hx with rfl | hx
        · exact hv
        · exact h'.2 x hx
    · next hlt =>
      have hne : e.1 ≠ k := hk e (by simp)
      have hi := (Store.wf_iff d _).1 (ih (fun x hx => hk x (by simp [hx])) ht)
      rw [Store.wf_iff]
      refine ⟨?_, ?_⟩
      · simp only [List.map_cons, List.pairwise_cons, List.mem_map]
        refine ⟨?_, hi.1⟩
        rintro a ⟨x, hx, rfl⟩
        rcases Store.ins_keys t k v x hx with rfl | hx
        · show e.1 < k; omega
        · exact hhead.1 _ ⟨x, hx, rfl⟩
      · intro x hx
        rcases List.mem_cons.1 hx with rfl | hx
        · exact h'.2 _ (by simp)
        · exact hi.2 x hx

/-- A write keeps the canonical form. -/
theorem Store.put_wf [DecidableEq α] (d : Nat → α) (m : Store α) (k : Nat) (v : α)
    (h : Store.wf d m = true) : Store.wf d (Store.put d m k v) = true := by
  unfold Store.put
  split
  · exact Store.filter_wf d m _ h
  · next hv =>
    exact Store.ins_wf d _ k v hv (Store.erase_key_ne m k) (Store.filter_wf d m _ h)

/-- Taking keys out keeps the canonical form. -/
theorem Store.keep_wf [DecidableEq α] (d : Nat → α) (p : Nat → Bool) (m : Store α)
    (h : Store.wf d m = true) : Store.wf d (Store.keep p m) = true :=
  Store.filter_wf d m _ h

theorem Store.update_keys [DecidableEq α] (d : Nat → α) (f : Nat → α → α) (m : Store α) (x : Nat × α)
    (hx : x ∈ Store.update d f m) : x.2 ≠ d x.1 ∧ ∃ e ∈ m, e.1 = x.1 := by
  induction m with
  | nil => simp [Store.update] at hx
  | cons e t ih =>
    simp only [Store.update, List.foldr_cons] at hx
    split at hx
    · obtain ⟨h1, y, hy, hyx⟩ := ih hx; exact ⟨h1, y, by simp [hy], hyx⟩
    · next hne =>
      rcases List.mem_cons.1 hx with rfl | hx
      · exact ⟨hne, e, by simp, rfl⟩
      · obtain ⟨h1, y, hy, hyx⟩ := ih hx; exact ⟨h1, y, by simp [hy], hyx⟩

/-- Updating every listed entry keeps the canonical form. -/
theorem Store.update_wf [DecidableEq α] (d : Nat → α) (f : Nat → α → α) (m : Store α)
    (h : Store.wf d m = true) : Store.wf d (Store.update d f m) = true := by
  rw [Store.wf_iff]
  refine ⟨?_, fun x hx => (Store.update_keys d f m x hx).1⟩
  have hs := ((Store.wf_iff d m).1 h).1
  clear h
  induction m with
  | nil => simp [Store.update]
  | cons e t ih =>
    simp only [List.map_cons, List.pairwise_cons, List.mem_map] at hs
    have it := ih hs.2
    simp only [Store.update, List.foldr_cons]
    split
    · exact it
    · simp only [List.map_cons, List.pairwise_cons, List.mem_map]
      refine ⟨?_, it⟩
      rintro a ⟨x, hx, rfl⟩
      obtain ⟨_, y, hy, hyx⟩ := Store.update_keys d f t x hx
      exact hyx ▸ hs.1 _ ⟨y, hy, rfl⟩

end Sys2Proof.Machine
end

