-- ==== Sys2Proof/Laws/State.lean ====
section
/-! SUPPORT. What each write of a store leaves unchanged, field by field, and what a read after a write gives. -/

namespace Sys2Proof.Machine

/-! ### setSess -/

@[simp] theorem State.setSess_part (s : State) (n : Nat) (x : Session) : (s.setSess n x).part = s.part := rfl
@[simp] theorem State.setSess_regs (s : State) (n : Nat) (x : Session) : (s.setSess n x).regs = s.regs := rfl
@[simp] theorem State.setSess_act (s : State) (n : Nat) (x : Session) : (s.setSess n x).act = s.act := rfl
@[simp] theorem State.setSess_badParity (s : State) (n : Nat) (x : Session) : (s.setSess n x).badParity = s.badParity := rfl
@[simp] theorem State.setSess_parityAddr (s : State) (n : Nat) (x : Session) : (s.setSess n x).parityAddr = s.parityAddr := rfl
@[simp] theorem State.setSess_busErr (s : State) (n : Nat) (x : Session) : (s.setSess n x).busErr = s.busErr := rfl
@[simp] theorem State.setSess_paths (s : State) (n : Nat) (x : Session) : (s.setSess n x).paths = s.paths := rfl
@[simp] theorem State.setSess_queues (s : State) (n : Nat) (x : Session) : (s.setSess n x).queues = s.queues := rfl
@[simp] theorem State.setSess_power (s : State) (n : Nat) (x : Session) : (s.setSess n x).power = s.power := rfl
@[simp] theorem State.setSess_boot (s : State) (n : Nat) (x : Session) : (s.setSess n x).boot = s.boot := rfl
@[simp] theorem State.setSess_distaff (s : State) (n : Nat) (x : Session) : (s.setSess n x).distaff = s.distaff := rfl
@[simp] theorem State.setSess_cal (s : State) (n : Nat) (x : Session) : (s.setSess n x).cal = s.cal := rfl
@[simp] theorem State.setSess_seqs (s : State) (n : Nat) (x : Session) : (s.setSess n x).seqs = s.seqs := rfl
@[simp] theorem State.setSess_caps (s : State) (n : Nat) (x : Session) : (s.setSess n x).caps = s.caps := rfl
@[simp] theorem State.setSess_cmps (s : State) (n : Nat) (x : Session) : (s.setSess n x).cmps = s.cmps := rfl
@[simp] theorem State.setSess_pods (s : State) (n : Nat) (x : Session) : (s.setSess n x).pods = s.pods := rfl
@[simp] theorem State.setSess_streams (s : State) (n : Nat) (x : Session) : (s.setSess n x).streams = s.streams := rfl
@[simp] theorem State.setSess_engines (s : State) (n : Nat) (x : Session) : (s.setSess n x).engines = s.engines := rfl
@[simp] theorem State.setSess_umpire (s : State) (n : Nat) (x : Session) : (s.setSess n x).umpire = s.umpire := rfl
@[simp] theorem State.setSess_lanes (s : State) (n : Nat) (x : Session) : (s.setSess n x).lanes = s.lanes := rfl
@[simp] theorem State.setSess_storage (s : State) (n : Nat) (x : Session) : (s.setSess n x).storage = s.storage := rfl
@[simp] theorem State.setSess_iu (s : State) (n : Nat) (x : Session) : (s.setSess n x).iu = s.iu := rfl
@[simp] theorem State.setSess_tw (s : State) (n : Nat) (x : Session) : (s.setSess n x).tw = s.tw := rfl
@[simp] theorem State.setSess_usb (s : State) (n : Nat) (x : Session) : (s.setSess n x).usb = s.usb := rfl
@[simp] theorem State.setSess_ref (s : State) (n : Nat) (x : Session) : (s.setSess n x).ref = s.ref := rfl
@[simp] theorem State.setSess_rpl (s : State) (n : Nat) (x : Session) : (s.setSess n x).rpl = s.rpl := rfl
@[simp] theorem State.setSess_fw (s : State) (n : Nat) (x : Session) : (s.setSess n x).fw = s.fw := rfl
@[simp] theorem State.setSess_free (s : State) (n : Nat) (x : Session) : (s.setSess n x).free = s.free := rfl
@[simp] theorem State.setSess_pending (s : State) (n : Nat) (x : Session) : (s.setSess n x).pending = s.pending := rfl

@[simp] theorem State.sess_setSess (s : State) (n : Nat) (x : Session) : (s.setSess n x).sess n = x := by
  simp [State.sess, State.setSess]
theorem State.sess_setSess_ne (s : State) (n n' : Nat) (x : Session) (h : n' ≠ n) : (s.setSess n x).sess n' = s.sess n' := by
  simp [State.sess, State.setSess, Store.get_put_ne _ _ _ h]
@[simp] theorem State.seqr_setSess (s : State) (n : Nat) (x : Session) (j : Nat) : (s.setSess n x).seqr j = s.seqr j := rfl
@[simp] theorem State.cap_setSess (s : State) (n : Nat) (x : Session) (j : Nat) : (s.setSess n x).cap j = s.cap j := rfl
@[simp] theorem State.cmp_setSess (s : State) (n : Nat) (x : Session) (j : Nat) : (s.setSess n x).cmp j = s.cmp j := rfl
@[simp] theorem State.pod_setSess (s : State) (n : Nat) (x : Session) (j : Nat) : (s.setSess n x).pod j = s.pod j := rfl
@[simp] theorem State.engine_setSess (s : State) (n : Nat) (x : Session) (j : Nat) : (s.setSess n x).engine j = s.engine j := rfl
@[simp] theorem State.lane_setSess (s : State) (n : Nat) (x : Session) (j : Nat) : (s.setSess n x).lane j = s.lane j := rfl
@[simp] theorem State.queue_setSess (s : State) (n : Nat) (x : Session) (j : Nat) : (s.setSess n x).queue j = s.queue j := rfl
@[simp] theorem State.endpoint_setSess (s : State) (n : Nat) (x : Session) (j : Nat) : (s.setSess n x).endpoint j = s.endpoint j := rfl
@[simp] theorem State.path_setSess (s : State) (n : Nat) (x : Session) (p2 : Path) : (s.setSess n x).path p2 = s.path p2 := rfl
@[simp] theorem State.stream_setSess (s : State) (n : Nat) (x : Session) (st2 : Stream) : (s.setSess n x).stream st2 = s.stream st2 := rfl
@[simp] theorem State.regWord_setSess (s : State) (n : Nat) (x : Session) (j : Nat) : (s.setSess n x).regWord j = s.regWord j := rfl
@[simp] theorem State.actWord_setSess (s : State) (n : Nat) (x : Session) (j : Nat) : (s.setSess n x).actWord j = s.actWord j := rfl

/-! ### setSeqr -/

@[simp] theorem State.setSeqr_part (s : State) (n : Nat) (x : Sequencer) : (s.setSeqr n x).part = s.part := rfl
@[simp] theorem State.setSeqr_regs (s : State) (n : Nat) (x : Sequencer) : (s.setSeqr n x).regs = s.regs := rfl
@[simp] theorem State.setSeqr_act (s : State) (n : Nat) (x : Sequencer) : (s.setSeqr n x).act = s.act := rfl
@[simp] theorem State.setSeqr_badParity (s : State) (n : Nat) (x : Sequencer) : (s.setSeqr n x).badParity = s.badParity := rfl
@[simp] theorem State.setSeqr_parityAddr (s : State) (n : Nat) (x : Sequencer) : (s.setSeqr n x).parityAddr = s.parityAddr := rfl
@[simp] theorem State.setSeqr_busErr (s : State) (n : Nat) (x : Sequencer) : (s.setSeqr n x).busErr = s.busErr := rfl
@[simp] theorem State.setSeqr_paths (s : State) (n : Nat) (x : Sequencer) : (s.setSeqr n x).paths = s.paths := rfl
@[simp] theorem State.setSeqr_queues (s : State) (n : Nat) (x : Sequencer) : (s.setSeqr n x).queues = s.queues := rfl
@[simp] theorem State.setSeqr_power (s : State) (n : Nat) (x : Sequencer) : (s.setSeqr n x).power = s.power := rfl
@[simp] theorem State.setSeqr_boot (s : State) (n : Nat) (x : Sequencer) : (s.setSeqr n x).boot = s.boot := rfl
@[simp] theorem State.setSeqr_distaff (s : State) (n : Nat) (x : Sequencer) : (s.setSeqr n x).distaff = s.distaff := rfl
@[simp] theorem State.setSeqr_cal (s : State) (n : Nat) (x : Sequencer) : (s.setSeqr n x).cal = s.cal := rfl
@[simp] theorem State.setSeqr_sessions (s : State) (n : Nat) (x : Sequencer) : (s.setSeqr n x).sessions = s.sessions := rfl
@[simp] theorem State.setSeqr_caps (s : State) (n : Nat) (x : Sequencer) : (s.setSeqr n x).caps = s.caps := rfl
@[simp] theorem State.setSeqr_cmps (s : State) (n : Nat) (x : Sequencer) : (s.setSeqr n x).cmps = s.cmps := rfl
@[simp] theorem State.setSeqr_pods (s : State) (n : Nat) (x : Sequencer) : (s.setSeqr n x).pods = s.pods := rfl
@[simp] theorem State.setSeqr_streams (s : State) (n : Nat) (x : Sequencer) : (s.setSeqr n x).streams = s.streams := rfl
@[simp] theorem State.setSeqr_engines (s : State) (n : Nat) (x : Sequencer) : (s.setSeqr n x).engines = s.engines := rfl
@[simp] theorem State.setSeqr_umpire (s : State) (n : Nat) (x : Sequencer) : (s.setSeqr n x).umpire = s.umpire := rfl
@[simp] theorem State.setSeqr_lanes (s : State) (n : Nat) (x : Sequencer) : (s.setSeqr n x).lanes = s.lanes := rfl
@[simp] theorem State.setSeqr_storage (s : State) (n : Nat) (x : Sequencer) : (s.setSeqr n x).storage = s.storage := rfl
@[simp] theorem State.setSeqr_iu (s : State) (n : Nat) (x : Sequencer) : (s.setSeqr n x).iu = s.iu := rfl
@[simp] theorem State.setSeqr_tw (s : State) (n : Nat) (x : Sequencer) : (s.setSeqr n x).tw = s.tw := rfl
@[simp] theorem State.setSeqr_usb (s : State) (n : Nat) (x : Sequencer) : (s.setSeqr n x).usb = s.usb := rfl
@[simp] theorem State.setSeqr_ref (s : State) (n : Nat) (x : Sequencer) : (s.setSeqr n x).ref = s.ref := rfl
@[simp] theorem State.setSeqr_rpl (s : State) (n : Nat) (x : Sequencer) : (s.setSeqr n x).rpl = s.rpl := rfl
@[simp] theorem State.setSeqr_fw (s : State) (n : Nat) (x : Sequencer) : (s.setSeqr n x).fw = s.fw := rfl
@[simp] theorem State.setSeqr_free (s : State) (n : Nat) (x : Sequencer) : (s.setSeqr n x).free = s.free := rfl
@[simp] theorem State.setSeqr_pending (s : State) (n : Nat) (x : Sequencer) : (s.setSeqr n x).pending = s.pending := rfl

@[simp] theorem State.seqr_setSeqr (s : State) (n : Nat) (x : Sequencer) : (s.setSeqr n x).seqr n = x := by
  simp [State.seqr, State.setSeqr]
theorem State.seqr_setSeqr_ne (s : State) (n n' : Nat) (x : Sequencer) (h : n' ≠ n) : (s.setSeqr n x).seqr n' = s.seqr n' := by
  simp [State.seqr, State.setSeqr, Store.get_put_ne _ _ _ h]
@[simp] theorem State.sess_setSeqr (s : State) (n : Nat) (x : Sequencer) (j : Nat) : (s.setSeqr n x).sess j = s.sess j := rfl
@[simp] theorem State.cap_setSeqr (s : State) (n : Nat) (x : Sequencer) (j : Nat) : (s.setSeqr n x).cap j = s.cap j := rfl
@[simp] theorem State.cmp_setSeqr (s : State) (n : Nat) (x : Sequencer) (j : Nat) : (s.setSeqr n x).cmp j = s.cmp j := rfl
@[simp] theorem State.pod_setSeqr (s : State) (n : Nat) (x : Sequencer) (j : Nat) : (s.setSeqr n x).pod j = s.pod j := rfl
@[simp] theorem State.engine_setSeqr (s : State) (n : Nat) (x : Sequencer) (j : Nat) : (s.setSeqr n x).engine j = s.engine j := rfl
@[simp] theorem State.lane_setSeqr (s : State) (n : Nat) (x : Sequencer) (j : Nat) : (s.setSeqr n x).lane j = s.lane j := rfl
@[simp] theorem State.queue_setSeqr (s : State) (n : Nat) (x : Sequencer) (j : Nat) : (s.setSeqr n x).queue j = s.queue j := rfl
@[simp] theorem State.endpoint_setSeqr (s : State) (n : Nat) (x : Sequencer) (j : Nat) : (s.setSeqr n x).endpoint j = s.endpoint j := rfl
@[simp] theorem State.path_setSeqr (s : State) (n : Nat) (x : Sequencer) (p2 : Path) : (s.setSeqr n x).path p2 = s.path p2 := rfl
@[simp] theorem State.stream_setSeqr (s : State) (n : Nat) (x : Sequencer) (st2 : Stream) : (s.setSeqr n x).stream st2 = s.stream st2 := rfl
@[simp] theorem State.regWord_setSeqr (s : State) (n : Nat) (x : Sequencer) (j : Nat) : (s.setSeqr n x).regWord j = s.regWord j := rfl
@[simp] theorem State.actWord_setSeqr (s : State) (n : Nat) (x : Sequencer) (j : Nat) : (s.setSeqr n x).actWord j = s.actWord j := rfl

/-! ### setCap -/

@[simp] theorem State.setCap_part (s : State) (n : Nat) (x : Capture) : (s.setCap n x).part = s.part := rfl
@[simp] theorem State.setCap_regs (s : State) (n : Nat) (x : Capture) : (s.setCap n x).regs = s.regs := rfl
@[simp] theorem State.setCap_act (s : State) (n : Nat) (x : Capture) : (s.setCap n x).act = s.act := rfl
@[simp] theorem State.setCap_badParity (s : State) (n : Nat) (x : Capture) : (s.setCap n x).badParity = s.badParity := rfl
@[simp] theorem State.setCap_parityAddr (s : State) (n : Nat) (x : Capture) : (s.setCap n x).parityAddr = s.parityAddr := rfl
@[simp] theorem State.setCap_busErr (s : State) (n : Nat) (x : Capture) : (s.setCap n x).busErr = s.busErr := rfl
@[simp] theorem State.setCap_paths (s : State) (n : Nat) (x : Capture) : (s.setCap n x).paths = s.paths := rfl
@[simp] theorem State.setCap_queues (s : State) (n : Nat) (x : Capture) : (s.setCap n x).queues = s.queues := rfl
@[simp] theorem State.setCap_power (s : State) (n : Nat) (x : Capture) : (s.setCap n x).power = s.power := rfl
@[simp] theorem State.setCap_boot (s : State) (n : Nat) (x : Capture) : (s.setCap n x).boot = s.boot := rfl
@[simp] theorem State.setCap_distaff (s : State) (n : Nat) (x : Capture) : (s.setCap n x).distaff = s.distaff := rfl
@[simp] theorem State.setCap_cal (s : State) (n : Nat) (x : Capture) : (s.setCap n x).cal = s.cal := rfl
@[simp] theorem State.setCap_sessions (s : State) (n : Nat) (x : Capture) : (s.setCap n x).sessions = s.sessions := rfl
@[simp] theorem State.setCap_seqs (s : State) (n : Nat) (x : Capture) : (s.setCap n x).seqs = s.seqs := rfl
@[simp] theorem State.setCap_cmps (s : State) (n : Nat) (x : Capture) : (s.setCap n x).cmps = s.cmps := rfl
@[simp] theorem State.setCap_pods (s : State) (n : Nat) (x : Capture) : (s.setCap n x).pods = s.pods := rfl
@[simp] theorem State.setCap_streams (s : State) (n : Nat) (x : Capture) : (s.setCap n x).streams = s.streams := rfl
@[simp] theorem State.setCap_engines (s : State) (n : Nat) (x : Capture) : (s.setCap n x).engines = s.engines := rfl
@[simp] theorem State.setCap_umpire (s : State) (n : Nat) (x : Capture) : (s.setCap n x).umpire = s.umpire := rfl
@[simp] theorem State.setCap_lanes (s : State) (n : Nat) (x : Capture) : (s.setCap n x).lanes = s.lanes := rfl
@[simp] theorem State.setCap_storage (s : State) (n : Nat) (x : Capture) : (s.setCap n x).storage = s.storage := rfl
@[simp] theorem State.setCap_iu (s : State) (n : Nat) (x : Capture) : (s.setCap n x).iu = s.iu := rfl
@[simp] theorem State.setCap_tw (s : State) (n : Nat) (x : Capture) : (s.setCap n x).tw = s.tw := rfl
@[simp] theorem State.setCap_usb (s : State) (n : Nat) (x : Capture) : (s.setCap n x).usb = s.usb := rfl
@[simp] theorem State.setCap_ref (s : State) (n : Nat) (x : Capture) : (s.setCap n x).ref = s.ref := rfl
@[simp] theorem State.setCap_rpl (s : State) (n : Nat) (x : Capture) : (s.setCap n x).rpl = s.rpl := rfl
@[simp] theorem State.setCap_fw (s : State) (n : Nat) (x : Capture) : (s.setCap n x).fw = s.fw := rfl
@[simp] theorem State.setCap_free (s : State) (n : Nat) (x : Capture) : (s.setCap n x).free = s.free := rfl
@[simp] theorem State.setCap_pending (s : State) (n : Nat) (x : Capture) : (s.setCap n x).pending = s.pending := rfl

@[simp] theorem State.cap_setCap (s : State) (n : Nat) (x : Capture) : (s.setCap n x).cap n = x := by
  simp [State.cap, State.setCap]
theorem State.cap_setCap_ne (s : State) (n n' : Nat) (x : Capture) (h : n' ≠ n) : (s.setCap n x).cap n' = s.cap n' := by
  simp [State.cap, State.setCap, Store.get_put_ne _ _ _ h]
@[simp] theorem State.sess_setCap (s : State) (n : Nat) (x : Capture) (j : Nat) : (s.setCap n x).sess j = s.sess j := rfl
@[simp] theorem State.seqr_setCap (s : State) (n : Nat) (x : Capture) (j : Nat) : (s.setCap n x).seqr j = s.seqr j := rfl
@[simp] theorem State.cmp_setCap (s : State) (n : Nat) (x : Capture) (j : Nat) : (s.setCap n x).cmp j = s.cmp j := rfl
@[simp] theorem State.pod_setCap (s : State) (n : Nat) (x : Capture) (j : Nat) : (s.setCap n x).pod j = s.pod j := rfl
@[simp] theorem State.engine_setCap (s : State) (n : Nat) (x : Capture) (j : Nat) : (s.setCap n x).engine j = s.engine j := rfl
@[simp] theorem State.lane_setCap (s : State) (n : Nat) (x : Capture) (j : Nat) : (s.setCap n x).lane j = s.lane j := rfl
@[simp] theorem State.queue_setCap (s : State) (n : Nat) (x : Capture) (j : Nat) : (s.setCap n x).queue j = s.queue j := rfl
@[simp] theorem State.endpoint_setCap (s : State) (n : Nat) (x : Capture) (j : Nat) : (s.setCap n x).endpoint j = s.endpoint j := rfl
@[simp] theorem State.path_setCap (s : State) (n : Nat) (x : Capture) (p2 : Path) : (s.setCap n x).path p2 = s.path p2 := rfl
@[simp] theorem State.stream_setCap (s : State) (n : Nat) (x : Capture) (st2 : Stream) : (s.setCap n x).stream st2 = s.stream st2 := rfl
@[simp] theorem State.regWord_setCap (s : State) (n : Nat) (x : Capture) (j : Nat) : (s.setCap n x).regWord j = s.regWord j := rfl
@[simp] theorem State.actWord_setCap (s : State) (n : Nat) (x : Capture) (j : Nat) : (s.setCap n x).actWord j = s.actWord j := rfl

/-! ### setCmp -/

@[simp] theorem State.setCmp_part (s : State) (n : Nat) (x : CmpStream) : (s.setCmp n x).part = s.part := rfl
@[simp] theorem State.setCmp_regs (s : State) (n : Nat) (x : CmpStream) : (s.setCmp n x).regs = s.regs := rfl
@[simp] theorem State.setCmp_act (s : State) (n : Nat) (x : CmpStream) : (s.setCmp n x).act = s.act := rfl
@[simp] theorem State.setCmp_badParity (s : State) (n : Nat) (x : CmpStream) : (s.setCmp n x).badParity = s.badParity := rfl
@[simp] theorem State.setCmp_parityAddr (s : State) (n : Nat) (x : CmpStream) : (s.setCmp n x).parityAddr = s.parityAddr := rfl
@[simp] theorem State.setCmp_busErr (s : State) (n : Nat) (x : CmpStream) : (s.setCmp n x).busErr = s.busErr := rfl
@[simp] theorem State.setCmp_paths (s : State) (n : Nat) (x : CmpStream) : (s.setCmp n x).paths = s.paths := rfl
@[simp] theorem State.setCmp_queues (s : State) (n : Nat) (x : CmpStream) : (s.setCmp n x).queues = s.queues := rfl
@[simp] theorem State.setCmp_power (s : State) (n : Nat) (x : CmpStream) : (s.setCmp n x).power = s.power := rfl
@[simp] theorem State.setCmp_boot (s : State) (n : Nat) (x : CmpStream) : (s.setCmp n x).boot = s.boot := rfl
@[simp] theorem State.setCmp_distaff (s : State) (n : Nat) (x : CmpStream) : (s.setCmp n x).distaff = s.distaff := rfl
@[simp] theorem State.setCmp_cal (s : State) (n : Nat) (x : CmpStream) : (s.setCmp n x).cal = s.cal := rfl
@[simp] theorem State.setCmp_sessions (s : State) (n : Nat) (x : CmpStream) : (s.setCmp n x).sessions = s.sessions := rfl
@[simp] theorem State.setCmp_seqs (s : State) (n : Nat) (x : CmpStream) : (s.setCmp n x).seqs = s.seqs := rfl
@[simp] theorem State.setCmp_caps (s : State) (n : Nat) (x : CmpStream) : (s.setCmp n x).caps = s.caps := rfl
@[simp] theorem State.setCmp_pods (s : State) (n : Nat) (x : CmpStream) : (s.setCmp n x).pods = s.pods := rfl
@[simp] theorem State.setCmp_streams (s : State) (n : Nat) (x : CmpStream) : (s.setCmp n x).streams = s.streams := rfl
@[simp] theorem State.setCmp_engines (s : State) (n : Nat) (x : CmpStream) : (s.setCmp n x).engines = s.engines := rfl
@[simp] theorem State.setCmp_umpire (s : State) (n : Nat) (x : CmpStream) : (s.setCmp n x).umpire = s.umpire := rfl
@[simp] theorem State.setCmp_lanes (s : State) (n : Nat) (x : CmpStream) : (s.setCmp n x).lanes = s.lanes := rfl
@[simp] theorem State.setCmp_storage (s : State) (n : Nat) (x : CmpStream) : (s.setCmp n x).storage = s.storage := rfl
@[simp] theorem State.setCmp_iu (s : State) (n : Nat) (x : CmpStream) : (s.setCmp n x).iu = s.iu := rfl
@[simp] theorem State.setCmp_tw (s : State) (n : Nat) (x : CmpStream) : (s.setCmp n x).tw = s.tw := rfl
@[simp] theorem State.setCmp_usb (s : State) (n : Nat) (x : CmpStream) : (s.setCmp n x).usb = s.usb := rfl
@[simp] theorem State.setCmp_ref (s : State) (n : Nat) (x : CmpStream) : (s.setCmp n x).ref = s.ref := rfl
@[simp] theorem State.setCmp_rpl (s : State) (n : Nat) (x : CmpStream) : (s.setCmp n x).rpl = s.rpl := rfl
@[simp] theorem State.setCmp_fw (s : State) (n : Nat) (x : CmpStream) : (s.setCmp n x).fw = s.fw := rfl
@[simp] theorem State.setCmp_free (s : State) (n : Nat) (x : CmpStream) : (s.setCmp n x).free = s.free := rfl
@[simp] theorem State.setCmp_pending (s : State) (n : Nat) (x : CmpStream) : (s.setCmp n x).pending = s.pending := rfl

@[simp] theorem State.cmp_setCmp (s : State) (n : Nat) (x : CmpStream) : (s.setCmp n x).cmp n = x := by
  simp [State.cmp, State.setCmp]
theorem State.cmp_setCmp_ne (s : State) (n n' : Nat) (x : CmpStream) (h : n' ≠ n) : (s.setCmp n x).cmp n' = s.cmp n' := by
  simp [State.cmp, State.setCmp, Store.get_put_ne _ _ _ h]
@[simp] theorem State.sess_setCmp (s : State) (n : Nat) (x : CmpStream) (j : Nat) : (s.setCmp n x).sess j = s.sess j := rfl
@[simp] theorem State.seqr_setCmp (s : State) (n : Nat) (x : CmpStream) (j : Nat) : (s.setCmp n x).seqr j = s.seqr j := rfl
@[simp] theorem State.cap_setCmp (s : State) (n : Nat) (x : CmpStream) (j : Nat) : (s.setCmp n x).cap j = s.cap j := rfl
@[simp] theorem State.pod_setCmp (s : State) (n : Nat) (x : CmpStream) (j : Nat) : (s.setCmp n x).pod j = s.pod j := rfl
@[simp] theorem State.engine_setCmp (s : State) (n : Nat) (x : CmpStream) (j : Nat) : (s.setCmp n x).engine j = s.engine j := rfl
@[simp] theorem State.lane_setCmp (s : State) (n : Nat) (x : CmpStream) (j : Nat) : (s.setCmp n x).lane j = s.lane j := rfl
@[simp] theorem State.queue_setCmp (s : State) (n : Nat) (x : CmpStream) (j : Nat) : (s.setCmp n x).queue j = s.queue j := rfl
@[simp] theorem State.endpoint_setCmp (s : State) (n : Nat) (x : CmpStream) (j : Nat) : (s.setCmp n x).endpoint j = s.endpoint j := rfl
@[simp] theorem State.path_setCmp (s : State) (n : Nat) (x : CmpStream) (p2 : Path) : (s.setCmp n x).path p2 = s.path p2 := rfl
@[simp] theorem State.stream_setCmp (s : State) (n : Nat) (x : CmpStream) (st2 : Stream) : (s.setCmp n x).stream st2 = s.stream st2 := rfl
@[simp] theorem State.regWord_setCmp (s : State) (n : Nat) (x : CmpStream) (j : Nat) : (s.setCmp n x).regWord j = s.regWord j := rfl
@[simp] theorem State.actWord_setCmp (s : State) (n : Nat) (x : CmpStream) (j : Nat) : (s.setCmp n x).actWord j = s.actWord j := rfl

/-! ### setPod -/

@[simp] theorem State.setPod_part (s : State) (p : Nat) (x : Pod) : (s.setPod p x).part = s.part := rfl
@[simp] theorem State.setPod_regs (s : State) (p : Nat) (x : Pod) : (s.setPod p x).regs = s.regs := rfl
@[simp] theorem State.setPod_act (s : State) (p : Nat) (x : Pod) : (s.setPod p x).act = s.act := rfl
@[simp] theorem State.setPod_badParity (s : State) (p : Nat) (x : Pod) : (s.setPod p x).badParity = s.badParity := rfl
@[simp] theorem State.setPod_parityAddr (s : State) (p : Nat) (x : Pod) : (s.setPod p x).parityAddr = s.parityAddr := rfl
@[simp] theorem State.setPod_busErr (s : State) (p : Nat) (x : Pod) : (s.setPod p x).busErr = s.busErr := rfl
@[simp] theorem State.setPod_paths (s : State) (p : Nat) (x : Pod) : (s.setPod p x).paths = s.paths := rfl
@[simp] theorem State.setPod_queues (s : State) (p : Nat) (x : Pod) : (s.setPod p x).queues = s.queues := rfl
@[simp] theorem State.setPod_power (s : State) (p : Nat) (x : Pod) : (s.setPod p x).power = s.power := rfl
@[simp] theorem State.setPod_boot (s : State) (p : Nat) (x : Pod) : (s.setPod p x).boot = s.boot := rfl
@[simp] theorem State.setPod_distaff (s : State) (p : Nat) (x : Pod) : (s.setPod p x).distaff = s.distaff := rfl
@[simp] theorem State.setPod_cal (s : State) (p : Nat) (x : Pod) : (s.setPod p x).cal = s.cal := rfl
@[simp] theorem State.setPod_sessions (s : State) (p : Nat) (x : Pod) : (s.setPod p x).sessions = s.sessions := rfl
@[simp] theorem State.setPod_seqs (s : State) (p : Nat) (x : Pod) : (s.setPod p x).seqs = s.seqs := rfl
@[simp] theorem State.setPod_caps (s : State) (p : Nat) (x : Pod) : (s.setPod p x).caps = s.caps := rfl
@[simp] theorem State.setPod_cmps (s : State) (p : Nat) (x : Pod) : (s.setPod p x).cmps = s.cmps := rfl
@[simp] theorem State.setPod_streams (s : State) (p : Nat) (x : Pod) : (s.setPod p x).streams = s.streams := rfl
@[simp] theorem State.setPod_engines (s : State) (p : Nat) (x : Pod) : (s.setPod p x).engines = s.engines := rfl
@[simp] theorem State.setPod_umpire (s : State) (p : Nat) (x : Pod) : (s.setPod p x).umpire = s.umpire := rfl
@[simp] theorem State.setPod_lanes (s : State) (p : Nat) (x : Pod) : (s.setPod p x).lanes = s.lanes := rfl
@[simp] theorem State.setPod_storage (s : State) (p : Nat) (x : Pod) : (s.setPod p x).storage = s.storage := rfl
@[simp] theorem State.setPod_iu (s : State) (p : Nat) (x : Pod) : (s.setPod p x).iu = s.iu := rfl
@[simp] theorem State.setPod_tw (s : State) (p : Nat) (x : Pod) : (s.setPod p x).tw = s.tw := rfl
@[simp] theorem State.setPod_usb (s : State) (p : Nat) (x : Pod) : (s.setPod p x).usb = s.usb := rfl
@[simp] theorem State.setPod_ref (s : State) (p : Nat) (x : Pod) : (s.setPod p x).ref = s.ref := rfl
@[simp] theorem State.setPod_rpl (s : State) (p : Nat) (x : Pod) : (s.setPod p x).rpl = s.rpl := rfl
@[simp] theorem State.setPod_fw (s : State) (p : Nat) (x : Pod) : (s.setPod p x).fw = s.fw := rfl
@[simp] theorem State.setPod_free (s : State) (p : Nat) (x : Pod) : (s.setPod p x).free = s.free := rfl
@[simp] theorem State.setPod_pending (s : State) (p : Nat) (x : Pod) : (s.setPod p x).pending = s.pending := rfl

@[simp] theorem State.pod_setPod (s : State) (p : Nat) (x : Pod) : (s.setPod p x).pod p = x := by
  simp [State.pod, State.setPod]
theorem State.pod_setPod_ne (s : State) (p p' : Nat) (x : Pod) (h : p' ≠ p) : (s.setPod p x).pod p' = s.pod p' := by
  simp [State.pod, State.setPod, Store.get_put_ne _ _ _ h]
@[simp] theorem State.sess_setPod (s : State) (p : Nat) (x : Pod) (j : Nat) : (s.setPod p x).sess j = s.sess j := rfl
@[simp] theorem State.seqr_setPod (s : State) (p : Nat) (x : Pod) (j : Nat) : (s.setPod p x).seqr j = s.seqr j := rfl
@[simp] theorem State.cap_setPod (s : State) (p : Nat) (x : Pod) (j : Nat) : (s.setPod p x).cap j = s.cap j := rfl
@[simp] theorem State.cmp_setPod (s : State) (p : Nat) (x : Pod) (j : Nat) : (s.setPod p x).cmp j = s.cmp j := rfl
@[simp] theorem State.engine_setPod (s : State) (p : Nat) (x : Pod) (j : Nat) : (s.setPod p x).engine j = s.engine j := rfl
@[simp] theorem State.lane_setPod (s : State) (p : Nat) (x : Pod) (j : Nat) : (s.setPod p x).lane j = s.lane j := rfl
@[simp] theorem State.queue_setPod (s : State) (p : Nat) (x : Pod) (j : Nat) : (s.setPod p x).queue j = s.queue j := rfl
@[simp] theorem State.endpoint_setPod (s : State) (p : Nat) (x : Pod) (j : Nat) : (s.setPod p x).endpoint j = s.endpoint j := rfl
@[simp] theorem State.path_setPod (s : State) (p : Nat) (x : Pod) (p2 : Path) : (s.setPod p x).path p2 = s.path p2 := rfl
@[simp] theorem State.stream_setPod (s : State) (p : Nat) (x : Pod) (st2 : Stream) : (s.setPod p x).stream st2 = s.stream st2 := rfl
@[simp] theorem State.regWord_setPod (s : State) (p : Nat) (x : Pod) (j : Nat) : (s.setPod p x).regWord j = s.regWord j := rfl
@[simp] theorem State.actWord_setPod (s : State) (p : Nat) (x : Pod) (j : Nat) : (s.setPod p x).actWord j = s.actWord j := rfl

/-! ### setEngine -/

@[simp] theorem State.setEngine_part (s : State) (e : Nat) (x : Engine) : (s.setEngine e x).part = s.part := rfl
@[simp] theorem State.setEngine_regs (s : State) (e : Nat) (x : Engine) : (s.setEngine e x).regs = s.regs := rfl
@[simp] theorem State.setEngine_act (s : State) (e : Nat) (x : Engine) : (s.setEngine e x).act = s.act := rfl
@[simp] theorem State.setEngine_badParity (s : State) (e : Nat) (x : Engine) : (s.setEngine e x).badParity = s.badParity := rfl
@[simp] theorem State.setEngine_parityAddr (s : State) (e : Nat) (x : Engine) : (s.setEngine e x).parityAddr = s.parityAddr := rfl
@[simp] theorem State.setEngine_busErr (s : State) (e : Nat) (x : Engine) : (s.setEngine e x).busErr = s.busErr := rfl
@[simp] theorem State.setEngine_paths (s : State) (e : Nat) (x : Engine) : (s.setEngine e x).paths = s.paths := rfl
@[simp] theorem State.setEngine_queues (s : State) (e : Nat) (x : Engine) : (s.setEngine e x).queues = s.queues := rfl
@[simp] theorem State.setEngine_power (s : State) (e : Nat) (x : Engine) : (s.setEngine e x).power = s.power := rfl
@[simp] theorem State.setEngine_boot (s : State) (e : Nat) (x : Engine) : (s.setEngine e x).boot = s.boot := rfl
@[simp] theorem State.setEngine_distaff (s : State) (e : Nat) (x : Engine) : (s.setEngine e x).distaff = s.distaff := rfl
@[simp] theorem State.setEngine_cal (s : State) (e : Nat) (x : Engine) : (s.setEngine e x).cal = s.cal := rfl
@[simp] theorem State.setEngine_sessions (s : State) (e : Nat) (x : Engine) : (s.setEngine e x).sessions = s.sessions := rfl
@[simp] theorem State.setEngine_seqs (s : State) (e : Nat) (x : Engine) : (s.setEngine e x).seqs = s.seqs := rfl
@[simp] theorem State.setEngine_caps (s : State) (e : Nat) (x : Engine) : (s.setEngine e x).caps = s.caps := rfl
@[simp] theorem State.setEngine_cmps (s : State) (e : Nat) (x : Engine) : (s.setEngine e x).cmps = s.cmps := rfl
@[simp] theorem State.setEngine_pods (s : State) (e : Nat) (x : Engine) : (s.setEngine e x).pods = s.pods := rfl
@[simp] theorem State.setEngine_streams (s : State) (e : Nat) (x : Engine) : (s.setEngine e x).streams = s.streams := rfl
@[simp] theorem State.setEngine_umpire (s : State) (e : Nat) (x : Engine) : (s.setEngine e x).umpire = s.umpire := rfl
@[simp] theorem State.setEngine_lanes (s : State) (e : Nat) (x : Engine) : (s.setEngine e x).lanes = s.lanes := rfl
@[simp] theorem State.setEngine_storage (s : State) (e : Nat) (x : Engine) : (s.setEngine e x).storage = s.storage := rfl
@[simp] theorem State.setEngine_iu (s : State) (e : Nat) (x : Engine) : (s.setEngine e x).iu = s.iu := rfl
@[simp] theorem State.setEngine_tw (s : State) (e : Nat) (x : Engine) : (s.setEngine e x).tw = s.tw := rfl
@[simp] theorem State.setEngine_usb (s : State) (e : Nat) (x : Engine) : (s.setEngine e x).usb = s.usb := rfl
@[simp] theorem State.setEngine_ref (s : State) (e : Nat) (x : Engine) : (s.setEngine e x).ref = s.ref := rfl
@[simp] theorem State.setEngine_rpl (s : State) (e : Nat) (x : Engine) : (s.setEngine e x).rpl = s.rpl := rfl
@[simp] theorem State.setEngine_fw (s : State) (e : Nat) (x : Engine) : (s.setEngine e x).fw = s.fw := rfl
@[simp] theorem State.setEngine_free (s : State) (e : Nat) (x : Engine) : (s.setEngine e x).free = s.free := rfl
@[simp] theorem State.setEngine_pending (s : State) (e : Nat) (x : Engine) : (s.setEngine e x).pending = s.pending := rfl

@[simp] theorem State.engine_setEngine (s : State) (e : Nat) (x : Engine) : (s.setEngine e x).engine e = x := by
  simp [State.engine, State.setEngine]
theorem State.engine_setEngine_ne (s : State) (e e' : Nat) (x : Engine) (h : e' ≠ e) : (s.setEngine e x).engine e' = s.engine e' := by
  simp [State.engine, State.setEngine, Store.get_put_ne _ _ _ h]
@[simp] theorem State.sess_setEngine (s : State) (e : Nat) (x : Engine) (j : Nat) : (s.setEngine e x).sess j = s.sess j := rfl
@[simp] theorem State.seqr_setEngine (s : State) (e : Nat) (x : Engine) (j : Nat) : (s.setEngine e x).seqr j = s.seqr j := rfl
@[simp] theorem State.cap_setEngine (s : State) (e : Nat) (x : Engine) (j : Nat) : (s.setEngine e x).cap j = s.cap j := rfl
@[simp] theorem State.cmp_setEngine (s : State) (e : Nat) (x : Engine) (j : Nat) : (s.setEngine e x).cmp j = s.cmp j := rfl
@[simp] theorem State.pod_setEngine (s : State) (e : Nat) (x : Engine) (j : Nat) : (s.setEngine e x).pod j = s.pod j := rfl
@[simp] theorem State.lane_setEngine (s : State) (e : Nat) (x : Engine) (j : Nat) : (s.setEngine e x).lane j = s.lane j := rfl
@[simp] theorem State.queue_setEngine (s : State) (e : Nat) (x : Engine) (j : Nat) : (s.setEngine e x).queue j = s.queue j := rfl
@[simp] theorem State.endpoint_setEngine (s : State) (e : Nat) (x : Engine) (j : Nat) : (s.setEngine e x).endpoint j = s.endpoint j := rfl
@[simp] theorem State.path_setEngine (s : State) (e : Nat) (x : Engine) (p2 : Path) : (s.setEngine e x).path p2 = s.path p2 := rfl
@[simp] theorem State.stream_setEngine (s : State) (e : Nat) (x : Engine) (st2 : Stream) : (s.setEngine e x).stream st2 = s.stream st2 := rfl
@[simp] theorem State.regWord_setEngine (s : State) (e : Nat) (x : Engine) (j : Nat) : (s.setEngine e x).regWord j = s.regWord j := rfl
@[simp] theorem State.actWord_setEngine (s : State) (e : Nat) (x : Engine) (j : Nat) : (s.setEngine e x).actWord j = s.actWord j := rfl

/-! ### setLane -/

@[simp] theorem State.setLane_part (s : State) (k : Nat) (x : Lane) : (s.setLane k x).part = s.part := rfl
@[simp] theorem State.setLane_regs (s : State) (k : Nat) (x : Lane) : (s.setLane k x).regs = s.regs := rfl
@[simp] theorem State.setLane_act (s : State) (k : Nat) (x : Lane) : (s.setLane k x).act = s.act := rfl
@[simp] theorem State.setLane_badParity (s : State) (k : Nat) (x : Lane) : (s.setLane k x).badParity = s.badParity := rfl
@[simp] theorem State.setLane_parityAddr (s : State) (k : Nat) (x : Lane) : (s.setLane k x).parityAddr = s.parityAddr := rfl
@[simp] theorem State.setLane_busErr (s : State) (k : Nat) (x : Lane) : (s.setLane k x).busErr = s.busErr := rfl
@[simp] theorem State.setLane_paths (s : State) (k : Nat) (x : Lane) : (s.setLane k x).paths = s.paths := rfl
@[simp] theorem State.setLane_queues (s : State) (k : Nat) (x : Lane) : (s.setLane k x).queues = s.queues := rfl
@[simp] theorem State.setLane_power (s : State) (k : Nat) (x : Lane) : (s.setLane k x).power = s.power := rfl
@[simp] theorem State.setLane_boot (s : State) (k : Nat) (x : Lane) : (s.setLane k x).boot = s.boot := rfl
@[simp] theorem State.setLane_distaff (s : State) (k : Nat) (x : Lane) : (s.setLane k x).distaff = s.distaff := rfl
@[simp] theorem State.setLane_cal (s : State) (k : Nat) (x : Lane) : (s.setLane k x).cal = s.cal := rfl
@[simp] theorem State.setLane_sessions (s : State) (k : Nat) (x : Lane) : (s.setLane k x).sessions = s.sessions := rfl
@[simp] theorem State.setLane_seqs (s : State) (k : Nat) (x : Lane) : (s.setLane k x).seqs = s.seqs := rfl
@[simp] theorem State.setLane_caps (s : State) (k : Nat) (x : Lane) : (s.setLane k x).caps = s.caps := rfl
@[simp] theorem State.setLane_cmps (s : State) (k : Nat) (x : Lane) : (s.setLane k x).cmps = s.cmps := rfl
@[simp] theorem State.setLane_pods (s : State) (k : Nat) (x : Lane) : (s.setLane k x).pods = s.pods := rfl
@[simp] theorem State.setLane_streams (s : State) (k : Nat) (x : Lane) : (s.setLane k x).streams = s.streams := rfl
@[simp] theorem State.setLane_engines (s : State) (k : Nat) (x : Lane) : (s.setLane k x).engines = s.engines := rfl
@[simp] theorem State.setLane_umpire (s : State) (k : Nat) (x : Lane) : (s.setLane k x).umpire = s.umpire := rfl
@[simp] theorem State.setLane_storage (s : State) (k : Nat) (x : Lane) : (s.setLane k x).storage = s.storage := rfl
@[simp] theorem State.setLane_iu (s : State) (k : Nat) (x : Lane) : (s.setLane k x).iu = s.iu := rfl
@[simp] theorem State.setLane_tw (s : State) (k : Nat) (x : Lane) : (s.setLane k x).tw = s.tw := rfl
@[simp] theorem State.setLane_usb (s : State) (k : Nat) (x : Lane) : (s.setLane k x).usb = s.usb := rfl
@[simp] theorem State.setLane_ref (s : State) (k : Nat) (x : Lane) : (s.setLane k x).ref = s.ref := rfl
@[simp] theorem State.setLane_rpl (s : State) (k : Nat) (x : Lane) : (s.setLane k x).rpl = s.rpl := rfl
@[simp] theorem State.setLane_fw (s : State) (k : Nat) (x : Lane) : (s.setLane k x).fw = s.fw := rfl
@[simp] theorem State.setLane_free (s : State) (k : Nat) (x : Lane) : (s.setLane k x).free = s.free := rfl
@[simp] theorem State.setLane_pending (s : State) (k : Nat) (x : Lane) : (s.setLane k x).pending = s.pending := rfl

@[simp] theorem State.lane_setLane (s : State) (k : Nat) (x : Lane) : (s.setLane k x).lane k = x := by
  simp [State.lane, State.setLane]
theorem State.lane_setLane_ne (s : State) (k k' : Nat) (x : Lane) (h : k' ≠ k) : (s.setLane k x).lane k' = s.lane k' := by
  simp [State.lane, State.setLane, Store.get_put_ne _ _ _ h]
@[simp] theorem State.sess_setLane (s : State) (k : Nat) (x : Lane) (j : Nat) : (s.setLane k x).sess j = s.sess j := rfl
@[simp] theorem State.seqr_setLane (s : State) (k : Nat) (x : Lane) (j : Nat) : (s.setLane k x).seqr j = s.seqr j := rfl
@[simp] theorem State.cap_setLane (s : State) (k : Nat) (x : Lane) (j : Nat) : (s.setLane k x).cap j = s.cap j := rfl
@[simp] theorem State.cmp_setLane (s : State) (k : Nat) (x : Lane) (j : Nat) : (s.setLane k x).cmp j = s.cmp j := rfl
@[simp] theorem State.pod_setLane (s : State) (k : Nat) (x : Lane) (j : Nat) : (s.setLane k x).pod j = s.pod j := rfl
@[simp] theorem State.engine_setLane (s : State) (k : Nat) (x : Lane) (j : Nat) : (s.setLane k x).engine j = s.engine j := rfl
@[simp] theorem State.queue_setLane (s : State) (k : Nat) (x : Lane) (j : Nat) : (s.setLane k x).queue j = s.queue j := rfl
@[simp] theorem State.endpoint_setLane (s : State) (k : Nat) (x : Lane) (j : Nat) : (s.setLane k x).endpoint j = s.endpoint j := rfl
@[simp] theorem State.path_setLane (s : State) (k : Nat) (x : Lane) (p2 : Path) : (s.setLane k x).path p2 = s.path p2 := rfl
@[simp] theorem State.stream_setLane (s : State) (k : Nat) (x : Lane) (st2 : Stream) : (s.setLane k x).stream st2 = s.stream st2 := rfl
@[simp] theorem State.regWord_setLane (s : State) (k : Nat) (x : Lane) (j : Nat) : (s.setLane k x).regWord j = s.regWord j := rfl
@[simp] theorem State.actWord_setLane (s : State) (k : Nat) (x : Lane) (j : Nat) : (s.setLane k x).actWord j = s.actWord j := rfl

/-! ### setQueue -/

@[simp] theorem State.setQueue_part (s : State) (q : Nat) (x : Queue) : (s.setQueue q x).part = s.part := rfl
@[simp] theorem State.setQueue_regs (s : State) (q : Nat) (x : Queue) : (s.setQueue q x).regs = s.regs := rfl
@[simp] theorem State.setQueue_act (s : State) (q : Nat) (x : Queue) : (s.setQueue q x).act = s.act := rfl
@[simp] theorem State.setQueue_badParity (s : State) (q : Nat) (x : Queue) : (s.setQueue q x).badParity = s.badParity := rfl
@[simp] theorem State.setQueue_parityAddr (s : State) (q : Nat) (x : Queue) : (s.setQueue q x).parityAddr = s.parityAddr := rfl
@[simp] theorem State.setQueue_busErr (s : State) (q : Nat) (x : Queue) : (s.setQueue q x).busErr = s.busErr := rfl
@[simp] theorem State.setQueue_paths (s : State) (q : Nat) (x : Queue) : (s.setQueue q x).paths = s.paths := rfl
@[simp] theorem State.setQueue_power (s : State) (q : Nat) (x : Queue) : (s.setQueue q x).power = s.power := rfl
@[simp] theorem State.setQueue_boot (s : State) (q : Nat) (x : Queue) : (s.setQueue q x).boot = s.boot := rfl
@[simp] theorem State.setQueue_distaff (s : State) (q : Nat) (x : Queue) : (s.setQueue q x).distaff = s.distaff := rfl
@[simp] theorem State.setQueue_cal (s : State) (q : Nat) (x : Queue) : (s.setQueue q x).cal = s.cal := rfl
@[simp] theorem State.setQueue_sessions (s : State) (q : Nat) (x : Queue) : (s.setQueue q x).sessions = s.sessions := rfl
@[simp] theorem State.setQueue_seqs (s : State) (q : Nat) (x : Queue) : (s.setQueue q x).seqs = s.seqs := rfl
@[simp] theorem State.setQueue_caps (s : State) (q : Nat) (x : Queue) : (s.setQueue q x).caps = s.caps := rfl
@[simp] theorem State.setQueue_cmps (s : State) (q : Nat) (x : Queue) : (s.setQueue q x).cmps = s.cmps := rfl
@[simp] theorem State.setQueue_pods (s : State) (q : Nat) (x : Queue) : (s.setQueue q x).pods = s.pods := rfl
@[simp] theorem State.setQueue_streams (s : State) (q : Nat) (x : Queue) : (s.setQueue q x).streams = s.streams := rfl
@[simp] theorem State.setQueue_engines (s : State) (q : Nat) (x : Queue) : (s.setQueue q x).engines = s.engines := rfl
@[simp] theorem State.setQueue_umpire (s : State) (q : Nat) (x : Queue) : (s.setQueue q x).umpire = s.umpire := rfl
@[simp] theorem State.setQueue_lanes (s : State) (q : Nat) (x : Queue) : (s.setQueue q x).lanes = s.lanes := rfl
@[simp] theorem State.setQueue_storage (s : State) (q : Nat) (x : Queue) : (s.setQueue q x).storage = s.storage := rfl
@[simp] theorem State.setQueue_iu (s : State) (q : Nat) (x : Queue) : (s.setQueue q x).iu = s.iu := rfl
@[simp] theorem State.setQueue_tw (s : State) (q : Nat) (x : Queue) : (s.setQueue q x).tw = s.tw := rfl
@[simp] theorem State.setQueue_usb (s : State) (q : Nat) (x : Queue) : (s.setQueue q x).usb = s.usb := rfl
@[simp] theorem State.setQueue_ref (s : State) (q : Nat) (x : Queue) : (s.setQueue q x).ref = s.ref := rfl
@[simp] theorem State.setQueue_rpl (s : State) (q : Nat) (x : Queue) : (s.setQueue q x).rpl = s.rpl := rfl
@[simp] theorem State.setQueue_fw (s : State) (q : Nat) (x : Queue) : (s.setQueue q x).fw = s.fw := rfl
@[simp] theorem State.setQueue_free (s : State) (q : Nat) (x : Queue) : (s.setQueue q x).free = s.free := rfl
@[simp] theorem State.setQueue_pending (s : State) (q : Nat) (x : Queue) : (s.setQueue q x).pending = s.pending := rfl

@[simp] theorem State.queue_setQueue (s : State) (q : Nat) (x : Queue) : (s.setQueue q x).queue q = x := by
  simp [State.queue, State.setQueue]
theorem State.queue_setQueue_ne (s : State) (q q' : Nat) (x : Queue) (h : q' ≠ q) : (s.setQueue q x).queue q' = s.queue q' := by
  simp [State.queue, State.setQueue, Store.get_put_ne _ _ _ h]
@[simp] theorem State.sess_setQueue (s : State) (q : Nat) (x : Queue) (j : Nat) : (s.setQueue q x).sess j = s.sess j := rfl
@[simp] theorem State.seqr_setQueue (s : State) (q : Nat) (x : Queue) (j : Nat) : (s.setQueue q x).seqr j = s.seqr j := rfl
@[simp] theorem State.cap_setQueue (s : State) (q : Nat) (x : Queue) (j : Nat) : (s.setQueue q x).cap j = s.cap j := rfl
@[simp] theorem State.cmp_setQueue (s : State) (q : Nat) (x : Queue) (j : Nat) : (s.setQueue q x).cmp j = s.cmp j := rfl
@[simp] theorem State.pod_setQueue (s : State) (q : Nat) (x : Queue) (j : Nat) : (s.setQueue q x).pod j = s.pod j := rfl
@[simp] theorem State.engine_setQueue (s : State) (q : Nat) (x : Queue) (j : Nat) : (s.setQueue q x).engine j = s.engine j := rfl
@[simp] theorem State.lane_setQueue (s : State) (q : Nat) (x : Queue) (j : Nat) : (s.setQueue q x).lane j = s.lane j := rfl
@[simp] theorem State.endpoint_setQueue (s : State) (q : Nat) (x : Queue) (j : Nat) : (s.setQueue q x).endpoint j = s.endpoint j := rfl
@[simp] theorem State.path_setQueue (s : State) (q : Nat) (x : Queue) (p2 : Path) : (s.setQueue q x).path p2 = s.path p2 := rfl
@[simp] theorem State.stream_setQueue (s : State) (q : Nat) (x : Queue) (st2 : Stream) : (s.setQueue q x).stream st2 = s.stream st2 := rfl
@[simp] theorem State.regWord_setQueue (s : State) (q : Nat) (x : Queue) (j : Nat) : (s.setQueue q x).regWord j = s.regWord j := rfl
@[simp] theorem State.actWord_setQueue (s : State) (q : Nat) (x : Queue) (j : Nat) : (s.setQueue q x).actWord j = s.actWord j := rfl

/-! ### setEndpoint -/

@[simp] theorem State.setEndpoint_part (s : State) (e : Nat) (x : Endpoint) : (s.setEndpoint e x).part = s.part := rfl
@[simp] theorem State.setEndpoint_regs (s : State) (e : Nat) (x : Endpoint) : (s.setEndpoint e x).regs = s.regs := rfl
@[simp] theorem State.setEndpoint_act (s : State) (e : Nat) (x : Endpoint) : (s.setEndpoint e x).act = s.act := rfl
@[simp] theorem State.setEndpoint_badParity (s : State) (e : Nat) (x : Endpoint) : (s.setEndpoint e x).badParity = s.badParity := rfl
@[simp] theorem State.setEndpoint_parityAddr (s : State) (e : Nat) (x : Endpoint) : (s.setEndpoint e x).parityAddr = s.parityAddr := rfl
@[simp] theorem State.setEndpoint_busErr (s : State) (e : Nat) (x : Endpoint) : (s.setEndpoint e x).busErr = s.busErr := rfl
@[simp] theorem State.setEndpoint_paths (s : State) (e : Nat) (x : Endpoint) : (s.setEndpoint e x).paths = s.paths := rfl
@[simp] theorem State.setEndpoint_queues (s : State) (e : Nat) (x : Endpoint) : (s.setEndpoint e x).queues = s.queues := rfl
@[simp] theorem State.setEndpoint_power (s : State) (e : Nat) (x : Endpoint) : (s.setEndpoint e x).power = s.power := rfl
@[simp] theorem State.setEndpoint_boot (s : State) (e : Nat) (x : Endpoint) : (s.setEndpoint e x).boot = s.boot := rfl
@[simp] theorem State.setEndpoint_distaff (s : State) (e : Nat) (x : Endpoint) : (s.setEndpoint e x).distaff = s.distaff := rfl
@[simp] theorem State.setEndpoint_cal (s : State) (e : Nat) (x : Endpoint) : (s.setEndpoint e x).cal = s.cal := rfl
@[simp] theorem State.setEndpoint_sessions (s : State) (e : Nat) (x : Endpoint) : (s.setEndpoint e x).sessions = s.sessions := rfl
@[simp] theorem State.setEndpoint_seqs (s : State) (e : Nat) (x : Endpoint) : (s.setEndpoint e x).seqs = s.seqs := rfl
@[simp] theorem State.setEndpoint_caps (s : State) (e : Nat) (x : Endpoint) : (s.setEndpoint e x).caps = s.caps := rfl
@[simp] theorem State.setEndpoint_cmps (s : State) (e : Nat) (x : Endpoint) : (s.setEndpoint e x).cmps = s.cmps := rfl
@[simp] theorem State.setEndpoint_pods (s : State) (e : Nat) (x : Endpoint) : (s.setEndpoint e x).pods = s.pods := rfl
@[simp] theorem State.setEndpoint_streams (s : State) (e : Nat) (x : Endpoint) : (s.setEndpoint e x).streams = s.streams := rfl
@[simp] theorem State.setEndpoint_engines (s : State) (e : Nat) (x : Endpoint) : (s.setEndpoint e x).engines = s.engines := rfl
@[simp] theorem State.setEndpoint_umpire (s : State) (e : Nat) (x : Endpoint) : (s.setEndpoint e x).umpire = s.umpire := rfl
@[simp] theorem State.setEndpoint_lanes (s : State) (e : Nat) (x : Endpoint) : (s.setEndpoint e x).lanes = s.lanes := rfl
@[simp] theorem State.setEndpoint_storage (s : State) (e : Nat) (x : Endpoint) : (s.setEndpoint e x).storage = s.storage := rfl
@[simp] theorem State.setEndpoint_iu (s : State) (e : Nat) (x : Endpoint) : (s.setEndpoint e x).iu = s.iu := rfl
@[simp] theorem State.setEndpoint_tw (s : State) (e : Nat) (x : Endpoint) : (s.setEndpoint e x).tw = s.tw := rfl
@[simp] theorem State.setEndpoint_ref (s : State) (e : Nat) (x : Endpoint) : (s.setEndpoint e x).ref = s.ref := rfl
@[simp] theorem State.setEndpoint_rpl (s : State) (e : Nat) (x : Endpoint) : (s.setEndpoint e x).rpl = s.rpl := rfl
@[simp] theorem State.setEndpoint_fw (s : State) (e : Nat) (x : Endpoint) : (s.setEndpoint e x).fw = s.fw := rfl
@[simp] theorem State.setEndpoint_free (s : State) (e : Nat) (x : Endpoint) : (s.setEndpoint e x).free = s.free := rfl
@[simp] theorem State.setEndpoint_pending (s : State) (e : Nat) (x : Endpoint) : (s.setEndpoint e x).pending = s.pending := rfl

@[simp] theorem State.endpoint_setEndpoint (s : State) (e : Nat) (x : Endpoint) : (s.setEndpoint e x).endpoint e = x := by
  simp [State.endpoint, State.setEndpoint]
theorem State.endpoint_setEndpoint_ne (s : State) (e e' : Nat) (x : Endpoint) (h : e' ≠ e) : (s.setEndpoint e x).endpoint e' = s.endpoint e' := by
  simp [State.endpoint, State.setEndpoint, Store.get_put_ne _ _ _ h]
@[simp] theorem State.sess_setEndpoint (s : State) (e : Nat) (x : Endpoint) (j : Nat) : (s.setEndpoint e x).sess j = s.sess j := rfl
@[simp] theorem State.seqr_setEndpoint (s : State) (e : Nat) (x : Endpoint) (j : Nat) : (s.setEndpoint e x).seqr j = s.seqr j := rfl
@[simp] theorem State.cap_setEndpoint (s : State) (e : Nat) (x : Endpoint) (j : Nat) : (s.setEndpoint e x).cap j = s.cap j := rfl
@[simp] theorem State.cmp_setEndpoint (s : State) (e : Nat) (x : Endpoint) (j : Nat) : (s.setEndpoint e x).cmp j = s.cmp j := rfl
@[simp] theorem State.pod_setEndpoint (s : State) (e : Nat) (x : Endpoint) (j : Nat) : (s.setEndpoint e x).pod j = s.pod j := rfl
@[simp] theorem State.engine_setEndpoint (s : State) (e : Nat) (x : Endpoint) (j : Nat) : (s.setEndpoint e x).engine j = s.engine j := rfl
@[simp] theorem State.lane_setEndpoint (s : State) (e : Nat) (x : Endpoint) (j : Nat) : (s.setEndpoint e x).lane j = s.lane j := rfl
@[simp] theorem State.queue_setEndpoint (s : State) (e : Nat) (x : Endpoint) (j : Nat) : (s.setEndpoint e x).queue j = s.queue j := rfl
@[simp] theorem State.path_setEndpoint (s : State) (e : Nat) (x : Endpoint) (p2 : Path) : (s.setEndpoint e x).path p2 = s.path p2 := rfl
@[simp] theorem State.stream_setEndpoint (s : State) (e : Nat) (x : Endpoint) (st2 : Stream) : (s.setEndpoint e x).stream st2 = s.stream st2 := rfl
@[simp] theorem State.regWord_setEndpoint (s : State) (e : Nat) (x : Endpoint) (j : Nat) : (s.setEndpoint e x).regWord j = s.regWord j := rfl
@[simp] theorem State.actWord_setEndpoint (s : State) (e : Nat) (x : Endpoint) (j : Nat) : (s.setEndpoint e x).actWord j = s.actWord j := rfl

/-! ### setPath -/

@[simp] theorem State.setPath_part (s : State) (p : Path) (x : PathState) : (s.setPath p x).part = s.part := rfl
@[simp] theorem State.setPath_regs (s : State) (p : Path) (x : PathState) : (s.setPath p x).regs = s.regs := rfl
@[simp] theorem State.setPath_act (s : State) (p : Path) (x : PathState) : (s.setPath p x).act = s.act := rfl
@[simp] theorem State.setPath_badParity (s : State) (p : Path) (x : PathState) : (s.setPath p x).badParity = s.badParity := rfl
@[simp] theorem State.setPath_parityAddr (s : State) (p : Path) (x : PathState) : (s.setPath p x).parityAddr = s.parityAddr := rfl
@[simp] theorem State.setPath_busErr (s : State) (p : Path) (x : PathState) : (s.setPath p x).busErr = s.busErr := rfl
@[simp] theorem State.setPath_queues (s : State) (p : Path) (x : PathState) : (s.setPath p x).queues = s.queues := rfl
@[simp] theorem State.setPath_power (s : State) (p : Path) (x : PathState) : (s.setPath p x).power = s.power := rfl
@[simp] theorem State.setPath_boot (s : State) (p : Path) (x : PathState) : (s.setPath p x).boot = s.boot := rfl
@[simp] theorem State.setPath_distaff (s : State) (p : Path) (x : PathState) : (s.setPath p x).distaff = s.distaff := rfl
@[simp] theorem State.setPath_cal (s : State) (p : Path) (x : PathState) : (s.setPath p x).cal = s.cal := rfl
@[simp] theorem State.setPath_sessions (s : State) (p : Path) (x : PathState) : (s.setPath p x).sessions = s.sessions := rfl
@[simp] theorem State.setPath_seqs (s : State) (p : Path) (x : PathState) : (s.setPath p x).seqs = s.seqs := rfl
@[simp] theorem State.setPath_caps (s : State) (p : Path) (x : PathState) : (s.setPath p x).caps = s.caps := rfl
@[simp] theorem State.setPath_cmps (s : State) (p : Path) (x : PathState) : (s.setPath p x).cmps = s.cmps := rfl
@[simp] theorem State.setPath_pods (s : State) (p : Path) (x : PathState) : (s.setPath p x).pods = s.pods := rfl
@[simp] theorem State.setPath_streams (s : State) (p : Path) (x : PathState) : (s.setPath p x).streams = s.streams := rfl
@[simp] theorem State.setPath_engines (s : State) (p : Path) (x : PathState) : (s.setPath p x).engines = s.engines := rfl
@[simp] theorem State.setPath_umpire (s : State) (p : Path) (x : PathState) : (s.setPath p x).umpire = s.umpire := rfl
@[simp] theorem State.setPath_lanes (s : State) (p : Path) (x : PathState) : (s.setPath p x).lanes = s.lanes := rfl
@[simp] theorem State.setPath_storage (s : State) (p : Path) (x : PathState) : (s.setPath p x).storage = s.storage := rfl
@[simp] theorem State.setPath_iu (s : State) (p : Path) (x : PathState) : (s.setPath p x).iu = s.iu := rfl
@[simp] theorem State.setPath_tw (s : State) (p : Path) (x : PathState) : (s.setPath p x).tw = s.tw := rfl
@[simp] theorem State.setPath_usb (s : State) (p : Path) (x : PathState) : (s.setPath p x).usb = s.usb := rfl
@[simp] theorem State.setPath_ref (s : State) (p : Path) (x : PathState) : (s.setPath p x).ref = s.ref := rfl
@[simp] theorem State.setPath_rpl (s : State) (p : Path) (x : PathState) : (s.setPath p x).rpl = s.rpl := rfl
@[simp] theorem State.setPath_fw (s : State) (p : Path) (x : PathState) : (s.setPath p x).fw = s.fw := rfl
@[simp] theorem State.setPath_free (s : State) (p : Path) (x : PathState) : (s.setPath p x).free = s.free := rfl
@[simp] theorem State.setPath_pending (s : State) (p : Path) (x : PathState) : (s.setPath p x).pending = s.pending := rfl

@[simp] theorem State.path_setPath (s : State) (p : Path) (x : PathState) : (s.setPath p x).path p = x := by
  simp [State.path, State.setPath]
theorem State.path_setPath_ne (s : State) (p p' : Path) (x : PathState) (h : pathCode p' ≠ pathCode p) : (s.setPath p x).path p' = s.path p' := by
  simp [State.path, State.setPath, Store.get_put_ne _ _ _ h]
@[simp] theorem State.sess_setPath (s : State) (p : Path) (x : PathState) (j : Nat) : (s.setPath p x).sess j = s.sess j := rfl
@[simp] theorem State.seqr_setPath (s : State) (p : Path) (x : PathState) (j : Nat) : (s.setPath p x).seqr j = s.seqr j := rfl
@[simp] theorem State.cap_setPath (s : State) (p : Path) (x : PathState) (j : Nat) : (s.setPath p x).cap j = s.cap j := rfl
@[simp] theorem State.cmp_setPath (s : State) (p : Path) (x : PathState) (j : Nat) : (s.setPath p x).cmp j = s.cmp j := rfl
@[simp] theorem State.pod_setPath (s : State) (p : Path) (x : PathState) (j : Nat) : (s.setPath p x).pod j = s.pod j := rfl
@[simp] theorem State.engine_setPath (s : State) (p : Path) (x : PathState) (j : Nat) : (s.setPath p x).engine j = s.engine j := rfl
@[simp] theorem State.lane_setPath (s : State) (p : Path) (x : PathState) (j : Nat) : (s.setPath p x).lane j = s.lane j := rfl
@[simp] theorem State.queue_setPath (s : State) (p : Path) (x : PathState) (j : Nat) : (s.setPath p x).queue j = s.queue j := rfl
@[simp] theorem State.endpoint_setPath (s : State) (p : Path) (x : PathState) (j : Nat) : (s.setPath p x).endpoint j = s.endpoint j := rfl
@[simp] theorem State.stream_setPath (s : State) (p : Path) (x : PathState) (st2 : Stream) : (s.setPath p x).stream st2 = s.stream st2 := rfl
@[simp] theorem State.regWord_setPath (s : State) (p : Path) (x : PathState) (j : Nat) : (s.setPath p x).regWord j = s.regWord j := rfl
@[simp] theorem State.actWord_setPath (s : State) (p : Path) (x : PathState) (j : Nat) : (s.setPath p x).actWord j = s.actWord j := rfl

/-! ### setStream -/

@[simp] theorem State.setStream_part (s : State) (st : Stream) (x : CmdStream) : (s.setStream st x).part = s.part := rfl
@[simp] theorem State.setStream_regs (s : State) (st : Stream) (x : CmdStream) : (s.setStream st x).regs = s.regs := rfl
@[simp] theorem State.setStream_act (s : State) (st : Stream) (x : CmdStream) : (s.setStream st x).act = s.act := rfl
@[simp] theorem State.setStream_badParity (s : State) (st : Stream) (x : CmdStream) : (s.setStream st x).badParity = s.badParity := rfl
@[simp] theorem State.setStream_parityAddr (s : State) (st : Stream) (x : CmdStream) : (s.setStream st x).parityAddr = s.parityAddr := rfl
@[simp] theorem State.setStream_busErr (s : State) (st : Stream) (x : CmdStream) : (s.setStream st x).busErr = s.busErr := rfl
@[simp] theorem State.setStream_paths (s : State) (st : Stream) (x : CmdStream) : (s.setStream st x).paths = s.paths := rfl
@[simp] theorem State.setStream_queues (s : State) (st : Stream) (x : CmdStream) : (s.setStream st x).queues = s.queues := rfl
@[simp] theorem State.setStream_power (s : State) (st : Stream) (x : CmdStream) : (s.setStream st x).power = s.power := rfl
@[simp] theorem State.setStream_boot (s : State) (st : Stream) (x : CmdStream) : (s.setStream st x).boot = s.boot := rfl
@[simp] theorem State.setStream_distaff (s : State) (st : Stream) (x : CmdStream) : (s.setStream st x).distaff = s.distaff := rfl
@[simp] theorem State.setStream_cal (s : State) (st : Stream) (x : CmdStream) : (s.setStream st x).cal = s.cal := rfl
@[simp] theorem State.setStream_sessions (s : State) (st : Stream) (x : CmdStream) : (s.setStream st x).sessions = s.sessions := rfl
@[simp] theorem State.setStream_seqs (s : State) (st : Stream) (x : CmdStream) : (s.setStream st x).seqs = s.seqs := rfl
@[simp] theorem State.setStream_caps (s : State) (st : Stream) (x : CmdStream) : (s.setStream st x).caps = s.caps := rfl
@[simp] theorem State.setStream_cmps (s : State) (st : Stream) (x : CmdStream) : (s.setStream st x).cmps = s.cmps := rfl
@[simp] theorem State.setStream_pods (s : State) (st : Stream) (x : CmdStream) : (s.setStream st x).pods = s.pods := rfl
@[simp] theorem State.setStream_engines (s : State) (st : Stream) (x : CmdStream) : (s.setStream st x).engines = s.engines := rfl
@[simp] theorem State.setStream_umpire (s : State) (st : Stream) (x : CmdStream) : (s.setStream st x).umpire = s.umpire := rfl
@[simp] theorem State.setStream_lanes (s : State) (st : Stream) (x : CmdStream) : (s.setStream st x).lanes = s.lanes := rfl
@[simp] theorem State.setStream_storage (s : State) (st : Stream) (x : CmdStream) : (s.setStream st x).storage = s.storage := rfl
@[simp] theorem State.setStream_iu (s : State) (st : Stream) (x : CmdStream) : (s.setStream st x).iu = s.iu := rfl
@[simp] theorem State.setStream_tw (s : State) (st : Stream) (x : CmdStream) : (s.setStream st x).tw = s.tw := rfl
@[simp] theorem State.setStream_usb (s : State) (st : Stream) (x : CmdStream) : (s.setStream st x).usb = s.usb := rfl
@[simp] theorem State.setStream_ref (s : State) (st : Stream) (x : CmdStream) : (s.setStream st x).ref = s.ref := rfl
@[simp] theorem State.setStream_rpl (s : State) (st : Stream) (x : CmdStream) : (s.setStream st x).rpl = s.rpl := rfl
@[simp] theorem State.setStream_fw (s : State) (st : Stream) (x : CmdStream) : (s.setStream st x).fw = s.fw := rfl
@[simp] theorem State.setStream_free (s : State) (st : Stream) (x : CmdStream) : (s.setStream st x).free = s.free := rfl
@[simp] theorem State.setStream_pending (s : State) (st : Stream) (x : CmdStream) : (s.setStream st x).pending = s.pending := rfl

@[simp] theorem State.stream_setStream (s : State) (st : Stream) (x : CmdStream) : (s.setStream st x).stream st = x := by
  simp [State.stream, State.setStream]
theorem State.stream_setStream_ne (s : State) (st st' : Stream) (x : CmdStream) (h : streamKey st' ≠ streamKey st) : (s.setStream st x).stream st' = s.stream st' := by
  simp [State.stream, State.setStream, Store.get_put_ne _ _ _ h]
@[simp] theorem State.sess_setStream (s : State) (st : Stream) (x : CmdStream) (j : Nat) : (s.setStream st x).sess j = s.sess j := rfl
@[simp] theorem State.seqr_setStream (s : State) (st : Stream) (x : CmdStream) (j : Nat) : (s.setStream st x).seqr j = s.seqr j := rfl
@[simp] theorem State.cap_setStream (s : State) (st : Stream) (x : CmdStream) (j : Nat) : (s.setStream st x).cap j = s.cap j := rfl
@[simp] theorem State.cmp_setStream (s : State) (st : Stream) (x : CmdStream) (j : Nat) : (s.setStream st x).cmp j = s.cmp j := rfl
@[simp] theorem State.pod_setStream (s : State) (st : Stream) (x : CmdStream) (j : Nat) : (s.setStream st x).pod j = s.pod j := rfl
@[simp] theorem State.engine_setStream (s : State) (st : Stream) (x : CmdStream) (j : Nat) : (s.setStream st x).engine j = s.engine j := rfl
@[simp] theorem State.lane_setStream (s : State) (st : Stream) (x : CmdStream) (j : Nat) : (s.setStream st x).lane j = s.lane j := rfl
@[simp] theorem State.queue_setStream (s : State) (st : Stream) (x : CmdStream) (j : Nat) : (s.setStream st x).queue j = s.queue j := rfl
@[simp] theorem State.endpoint_setStream (s : State) (st : Stream) (x : CmdStream) (j : Nat) : (s.setStream st x).endpoint j = s.endpoint j := rfl
@[simp] theorem State.path_setStream (s : State) (st : Stream) (x : CmdStream) (p2 : Path) : (s.setStream st x).path p2 = s.path p2 := rfl
@[simp] theorem State.regWord_setStream (s : State) (st : Stream) (x : CmdStream) (j : Nat) : (s.setStream st x).regWord j = s.regWord j := rfl
@[simp] theorem State.actWord_setStream (s : State) (st : Stream) (x : CmdStream) (j : Nat) : (s.setStream st x).actWord j = s.actWord j := rfl

/-! ### setRegWord -/

@[simp] theorem State.setRegWord_part (s : State) (a : Nat) (w : Word) : (s.setRegWord a w).part = s.part := rfl
@[simp] theorem State.setRegWord_act (s : State) (a : Nat) (w : Word) : (s.setRegWord a w).act = s.act := rfl
@[simp] theorem State.setRegWord_parityAddr (s : State) (a : Nat) (w : Word) : (s.setRegWord a w).parityAddr = s.parityAddr := rfl
@[simp] theorem State.setRegWord_busErr (s : State) (a : Nat) (w : Word) : (s.setRegWord a w).busErr = s.busErr := rfl
@[simp] theorem State.setRegWord_paths (s : State) (a : Nat) (w : Word) : (s.setRegWord a w).paths = s.paths := rfl
@[simp] theorem State.setRegWord_queues (s : State) (a : Nat) (w : Word) : (s.setRegWord a w).queues = s.queues := rfl
@[simp] theorem State.setRegWord_power (s : State) (a : Nat) (w : Word) : (s.setRegWord a w).power = s.power := rfl
@[simp] theorem State.setRegWord_boot (s : State) (a : Nat) (w : Word) : (s.setRegWord a w).boot = s.boot := rfl
@[simp] theorem State.setRegWord_distaff (s : State) (a : Nat) (w : Word) : (s.setRegWord a w).distaff = s.distaff := rfl
@[simp] theorem State.setRegWord_cal (s : State) (a : Nat) (w : Word) : (s.setRegWord a w).cal = s.cal := rfl
@[simp] theorem State.setRegWord_sessions (s : State) (a : Nat) (w : Word) : (s.setRegWord a w).sessions = s.sessions := rfl
@[simp] theorem State.setRegWord_seqs (s : State) (a : Nat) (w : Word) : (s.setRegWord a w).seqs = s.seqs := rfl
@[simp] theorem State.setRegWord_caps (s : State) (a : Nat) (w : Word) : (s.setRegWord a w).caps = s.caps := rfl
@[simp] theorem State.setRegWord_cmps (s : State) (a : Nat) (w : Word) : (s.setRegWord a w).cmps = s.cmps := rfl
@[simp] theorem State.setRegWord_pods (s : State) (a : Nat) (w : Word) : (s.setRegWord a w).pods = s.pods := rfl
@[simp] theorem State.setRegWord_streams (s : State) (a : Nat) (w : Word) : (s.setRegWord a w).streams = s.streams := rfl
@[simp] theorem State.setRegWord_engines (s : State) (a : Nat) (w : Word) : (s.setRegWord a w).engines = s.engines := rfl
@[simp] theorem State.setRegWord_umpire (s : State) (a : Nat) (w : Word) : (s.setRegWord a w).umpire = s.umpire := rfl
@[simp] theorem State.setRegWord_lanes (s : State) (a : Nat) (w : Word) : (s.setRegWord a w).lanes = s.lanes := rfl
@[simp] theorem State.setRegWord_storage (s : State) (a : Nat) (w : Word) : (s.setRegWord a w).storage = s.storage := rfl
@[simp] theorem State.setRegWord_iu (s : State) (a : Nat) (w : Word) : (s.setRegWord a w).iu = s.iu := rfl
@[simp] theorem State.setRegWord_tw (s : State) (a : Nat) (w : Word) : (s.setRegWord a w).tw = s.tw := rfl
@[simp] theorem State.setRegWord_usb (s : State) (a : Nat) (w : Word) : (s.setRegWord a w).usb = s.usb := rfl
@[simp] theorem State.setRegWord_ref (s : State) (a : Nat) (w : Word) : (s.setRegWord a w).ref = s.ref := rfl
@[simp] theorem State.setRegWord_rpl (s : State) (a : Nat) (w : Word) : (s.setRegWord a w).rpl = s.rpl := rfl
@[simp] theorem State.setRegWord_fw (s : State) (a : Nat) (w : Word) : (s.setRegWord a w).fw = s.fw := rfl
@[simp] theorem State.setRegWord_free (s : State) (a : Nat) (w : Word) : (s.setRegWord a w).free = s.free := rfl
@[simp] theorem State.setRegWord_pending (s : State) (a : Nat) (w : Word) : (s.setRegWord a w).pending = s.pending := rfl

@[simp] theorem State.regWord_setRegWord (s : State) (a : Nat) (w : Word) : (s.setRegWord a w).regWord a = w := by
  simp [State.regWord, State.setRegWord]
theorem State.regWord_setRegWord_ne (s : State) (a a' : Nat) (w : Word) (h : a' ≠ a) : (s.setRegWord a w).regWord a' = s.regWord a' := by
  simp [State.regWord, State.setRegWord, Store.get_put_ne _ _ _ h]
@[simp] theorem State.sess_setRegWord (s : State) (a : Nat) (w : Word) (j : Nat) : (s.setRegWord a w).sess j = s.sess j := rfl
@[simp] theorem State.seqr_setRegWord (s : State) (a : Nat) (w : Word) (j : Nat) : (s.setRegWord a w).seqr j = s.seqr j := rfl
@[simp] theorem State.cap_setRegWord (s : State) (a : Nat) (w : Word) (j : Nat) : (s.setRegWord a w).cap j = s.cap j := rfl
@[simp] theorem State.cmp_setRegWord (s : State) (a : Nat) (w : Word) (j : Nat) : (s.setRegWord a w).cmp j = s.cmp j := rfl
@[simp] theorem State.pod_setRegWord (s : State) (a : Nat) (w : Word) (j : Nat) : (s.setRegWord a w).pod j = s.pod j := rfl
@[simp] theorem State.engine_setRegWord (s : State) (a : Nat) (w : Word) (j : Nat) : (s.setRegWord a w).engine j = s.engine j := rfl
@[simp] theorem State.lane_setRegWord (s : State) (a : Nat) (w : Word) (j : Nat) : (s.setRegWord a w).lane j = s.lane j := rfl
@[simp] theorem State.queue_setRegWord (s : State) (a : Nat) (w : Word) (j : Nat) : (s.setRegWord a w).queue j = s.queue j := rfl
@[simp] theorem State.endpoint_setRegWord (s : State) (a : Nat) (w : Word) (j : Nat) : (s.setRegWord a w).endpoint j = s.endpoint j := rfl
@[simp] theorem State.path_setRegWord (s : State) (a : Nat) (w : Word) (p2 : Path) : (s.setRegWord a w).path p2 = s.path p2 := rfl
@[simp] theorem State.stream_setRegWord (s : State) (a : Nat) (w : Word) (st2 : Stream) : (s.setRegWord a w).stream st2 = s.stream st2 := rfl
@[simp] theorem State.actWord_setRegWord (s : State) (a : Nat) (w : Word) (j : Nat) : (s.setRegWord a w).actWord j = s.actWord j := rfl

/-! ### setActWord -/

@[simp] theorem State.setActWord_part (s : State) (a : Nat) (w : Word) : (s.setActWord a w).part = s.part := rfl
@[simp] theorem State.setActWord_regs (s : State) (a : Nat) (w : Word) : (s.setActWord a w).regs = s.regs := rfl
@[simp] theorem State.setActWord_parityAddr (s : State) (a : Nat) (w : Word) : (s.setActWord a w).parityAddr = s.parityAddr := rfl
@[simp] theorem State.setActWord_busErr (s : State) (a : Nat) (w : Word) : (s.setActWord a w).busErr = s.busErr := rfl
@[simp] theorem State.setActWord_paths (s : State) (a : Nat) (w : Word) : (s.setActWord a w).paths = s.paths := rfl
@[simp] theorem State.setActWord_queues (s : State) (a : Nat) (w : Word) : (s.setActWord a w).queues = s.queues := rfl
@[simp] theorem State.setActWord_power (s : State) (a : Nat) (w : Word) : (s.setActWord a w).power = s.power := rfl
@[simp] theorem State.setActWord_boot (s : State) (a : Nat) (w : Word) : (s.setActWord a w).boot = s.boot := rfl
@[simp] theorem State.setActWord_distaff (s : State) (a : Nat) (w : Word) : (s.setActWord a w).distaff = s.distaff := rfl
@[simp] theorem State.setActWord_cal (s : State) (a : Nat) (w : Word) : (s.setActWord a w).cal = s.cal := rfl
@[simp] theorem State.setActWord_sessions (s : State) (a : Nat) (w : Word) : (s.setActWord a w).sessions = s.sessions := rfl
@[simp] theorem State.setActWord_seqs (s : State) (a : Nat) (w : Word) : (s.setActWord a w).seqs = s.seqs := rfl
@[simp] theorem State.setActWord_caps (s : State) (a : Nat) (w : Word) : (s.setActWord a w).caps = s.caps := rfl
@[simp] theorem State.setActWord_cmps (s : State) (a : Nat) (w : Word) : (s.setActWord a w).cmps = s.cmps := rfl
@[simp] theorem State.setActWord_pods (s : State) (a : Nat) (w : Word) : (s.setActWord a w).pods = s.pods := rfl
@[simp] theorem State.setActWord_streams (s : State) (a : Nat) (w : Word) : (s.setActWord a w).streams = s.streams := rfl
@[simp] theorem State.setActWord_engines (s : State) (a : Nat) (w : Word) : (s.setActWord a w).engines = s.engines := rfl
@[simp] theorem State.setActWord_umpire (s : State) (a : Nat) (w : Word) : (s.setActWord a w).umpire = s.umpire := rfl
@[simp] theorem State.setActWord_lanes (s : State) (a : Nat) (w : Word) : (s.setActWord a w).lanes = s.lanes := rfl
@[simp] theorem State.setActWord_storage (s : State) (a : Nat) (w : Word) : (s.setActWord a w).storage = s.storage := rfl
@[simp] theorem State.setActWord_iu (s : State) (a : Nat) (w : Word) : (s.setActWord a w).iu = s.iu := rfl
@[simp] theorem State.setActWord_tw (s : State) (a : Nat) (w : Word) : (s.setActWord a w).tw = s.tw := rfl
@[simp] theorem State.setActWord_usb (s : State) (a : Nat) (w : Word) : (s.setActWord a w).usb = s.usb := rfl
@[simp] theorem State.setActWord_ref (s : State) (a : Nat) (w : Word) : (s.setActWord a w).ref = s.ref := rfl
@[simp] theorem State.setActWord_rpl (s : State) (a : Nat) (w : Word) : (s.setActWord a w).rpl = s.rpl := rfl
@[simp] theorem State.setActWord_fw (s : State) (a : Nat) (w : Word) : (s.setActWord a w).fw = s.fw := rfl
@[simp] theorem State.setActWord_free (s : State) (a : Nat) (w : Word) : (s.setActWord a w).free = s.free := rfl
@[simp] theorem State.setActWord_pending (s : State) (a : Nat) (w : Word) : (s.setActWord a w).pending = s.pending := rfl

@[simp] theorem State.actWord_setActWord (s : State) (a : Nat) (w : Word) : (s.setActWord a w).actWord a = w := by
  simp [State.actWord, State.setActWord]
theorem State.actWord_setActWord_ne (s : State) (a a' : Nat) (w : Word) (h : a' ≠ a) : (s.setActWord a w).actWord a' = s.actWord a' := by
  simp [State.actWord, State.setActWord, Store.get_put_ne _ _ _ h]
@[simp] theorem State.sess_setActWord (s : State) (a : Nat) (w : Word) (j : Nat) : (s.setActWord a w).sess j = s.sess j := rfl
@[simp] theorem State.seqr_setActWord (s : State) (a : Nat) (w : Word) (j : Nat) : (s.setActWord a w).seqr j = s.seqr j := rfl
@[simp] theorem State.cap_setActWord (s : State) (a : Nat) (w : Word) (j : Nat) : (s.setActWord a w).cap j = s.cap j := rfl
@[simp] theorem State.cmp_setActWord (s : State) (a : Nat) (w : Word) (j : Nat) : (s.setActWord a w).cmp j = s.cmp j := rfl
@[simp] theorem State.pod_setActWord (s : State) (a : Nat) (w : Word) (j : Nat) : (s.setActWord a w).pod j = s.pod j := rfl
@[simp] theorem State.engine_setActWord (s : State) (a : Nat) (w : Word) (j : Nat) : (s.setActWord a w).engine j = s.engine j := rfl
@[simp] theorem State.lane_setActWord (s : State) (a : Nat) (w : Word) (j : Nat) : (s.setActWord a w).lane j = s.lane j := rfl
@[simp] theorem State.queue_setActWord (s : State) (a : Nat) (w : Word) (j : Nat) : (s.setActWord a w).queue j = s.queue j := rfl
@[simp] theorem State.endpoint_setActWord (s : State) (a : Nat) (w : Word) (j : Nat) : (s.setActWord a w).endpoint j = s.endpoint j := rfl
@[simp] theorem State.path_setActWord (s : State) (a : Nat) (w : Word) (p2 : Path) : (s.setActWord a w).path p2 = s.path p2 := rfl
@[simp] theorem State.stream_setActWord (s : State) (a : Nat) (w : Word) (st2 : Stream) : (s.setActWord a w).stream st2 = s.stream st2 := rfl
@[simp] theorem State.regWord_setActWord (s : State) (a : Nat) (w : Word) (j : Nat) : (s.setActWord a w).regWord j = s.regWord j := rfl

end Sys2Proof.Machine
end

