-- ==== Sys2Proof/Laws/Frame.lean ====
section
/-! SUPPORT. What sending leaves unchanged.  `Side P Q z t` says that `t` differs from `z` at most in queues, endpoints, the recorder,
the counters of `sideRegs`, the sessions outside `P` and the command streams outside `Q`; the operations that push words, record, send
events and answer commands keep it. -/

namespace Sys2Proof.Machine

/-- The counters that sending may advance. -/
def sideRegs : List RegName := [.qCnt, .glbAqCnt, .bnEvtLost, .rplLost, .rplEntriesLo, .rplEntriesHi, .rplDivCnt]

/-- A state without what sending may change. -/
def State.bare (s : State) : State :=
  { s with
    regs := [], badParity := [], queues := [], usb := {}, rpl := {}, streams := [], sessions := []
    fw := { s.fw with served := [], openPost := none } }

/-- What sending leaves unchanged. -/
def Side (P Q : Nat → Prop) (z t : State) : Prop :=
  t.bare = z.bare ∧ (∀ r : Reg, regAt r.addr = some r → r.name ∉ sideRegs → t.regWord r.addr = z.regWord r.addr) ∧
  (∀ m, P m → t.sess m = z.sess m) ∧ ∀ k, Q k → t.streams.get CmdStream.init k = z.streams.get CmdStream.init k ∧ t.fw.openPost = z.fw.openPost

variable {P Q : Nat → Prop} {z : State}

theorem Side.refl (s : State) : Side P Q s s := ⟨rfl, fun _ _ _ => rfl, fun _ _ => rfl, fun _ _ => ⟨rfl, rfl⟩⟩

theorem Side.trans {s t u : State} (h : Side P Q s t) (k : Side P Q t u) : Side P Q s u :=
  ⟨k.1.trans h.1, fun r a b => (k.2.1 r a b).trans (h.2.1 r a b), fun m a => (k.2.2.1 m a).trans (h.2.2.1 m a),
    fun m a => ⟨(k.2.2.2 m a).1.trans (h.2.2.2 m a).1, (k.2.2.2 m a).2.trans (h.2.2.2 m a).2⟩⟩

/-- A record update of the parts that sending may change. -/
theorem side_mk (u : State) (bad queues usb rpl) :
    Side P Q z ⟨u.part, u.regs, u.act, bad, u.parityAddr, u.busErr, u.paths, queues, u.power, u.boot, u.distaff, u.cal, u.sessions, u.seqs,
      u.caps, u.cmps, u.pods, u.streams, u.engines, u.umpire, u.lanes, u.storage, u.iu, u.tw, usb, u.ref, rpl, u.fw, u.free, u.pending⟩ ↔
    Side P Q z u := Iff.rfl

theorem State.setQueue_side (s : State) (q : Nat) (x : Queue) (h : Side P Q z s) : Side P Q z (s.setQueue q x) := h

theorem State.setEndpoint_side (s : State) (e : Nat) (x : Endpoint) (h : Side P Q z s) : Side P Q z (s.setEndpoint e x) := h

theorem State.setSess_side (s : State) (n : Nat) (x : Session) (hn : ¬ P n) (h : Side P Q z s) : Side P Q z (s.setSess n x) := by
  refine ⟨h.1, h.2.1, fun m hm => ?_, h.2.2.2⟩
  rw [State.sess_setSess_ne _ _ _ _ (by rintro rfl; exact hn hm)]
  exact h.2.2.1 m hm

theorem State.setStream_side (s : State) (st : Stream) (x : CmdStream) (hn : ¬ Q (streamKey st)) (h : Side P Q z s) :
    Side P Q z (s.setStream st x) := by
  refine ⟨h.1, h.2.1, h.2.2.1, fun m hm => ?_⟩
  show (s.streams.put CmdStream.init (streamKey st) x).get CmdStream.init m = _ ∧ _
  rw [Store.get_put_ne _ _ _ (by rintro rfl; exact hn hm)]
  exact h.2.2.2 m hm

/-- A write of a register whose name is one of `sideRegs`. -/
theorem State.setRegWord_side (s : State) (a : Nat) (w : Word) (r : Reg) (ha : regAt a = some r) (hr : r.name ∈ sideRegs)
    (h : Side P Q z s) : Side P Q z (s.setRegWord a w) := by
  refine ⟨h.1, fun b hb hn => ?_, h.2.2⟩
  have : b.addr ≠ a := by
    intro e
    rw [e, ha] at hb
    cases hb
    exact hn hr
  show (Store.put regDefault s.regs a w).get regDefault b.addr = _
  rw [Store.get_put_ne _ _ _ this]
  exact h.2.1 b hb hn

theorem State.bumpSat_side (s : State) (n : RegName) (i j hi lo k : Nat) (ha : regAt (Reg.addr ⟨n, i, j⟩) = some ⟨n, i, j⟩)
    (hr : n ∈ sideRegs) (h : Side P Q z s) : Side P Q z (s.bumpSat n i j hi lo k) :=
  State.setRegWord_side _ _ _ _ ha hr h

theorem State.addAcc_entries_side (s : State) (h : Side P Q z s) : Side P Q z (s.addAcc .rplEntriesLo .rplEntriesHi 0 1) :=
  State.setRegWord_side _ _ _ ⟨.rplEntriesHi, 0, 0⟩ (by decide) (by decide)
    (State.setRegWord_side _ _ _ ⟨.rplEntriesLo, 0, 0⟩ (by decide) (by decide) h)

theorem regAt_qCnt : ∀ q : Nat, q < 64 → regAt (Reg.addr ⟨.qCnt, q, 0⟩) = some ⟨.qCnt, q, 0⟩ := by decide
theorem regAt_glbAqCnt : ∀ q : Nat, q < 2 → regAt (Reg.addr ⟨.glbAqCnt, q, 0⟩) = some ⟨.glbAqCnt, q, 0⟩ := by decide
theorem regAt_bnEvtLost : ∀ n : Nat, n < 8 → regAt (Reg.addr ⟨.bnEvtLost, n, 0⟩) = some ⟨.bnEvtLost, n, 0⟩ := by decide

theorem State.bumpQCnt_side (s : State) (q hi lo : Nat) (h : Side P Q z s) : Side P Q z (s.bumpQCnt q hi lo) := by
  unfold State.bumpQCnt
  split
  · exact State.bumpSat_side _ _ _ _ _ _ _ (regAt_qCnt q ‹_›) (by decide) h
  · split
    · exact State.bumpSat_side _ _ _ _ _ _ _ (regAt_glbAqCnt (q - 64) (by omega)) (by decide) h
    · exact h

/-! ### Queues and the recorder -/

theorem noteIn_side (s : State) (q : Nat) (t : Tag) (h : Side P Q z s) : Side P Q z (noteIn s q t) := by
  unfold noteIn
  repeat' split
  all_goals exact h

theorem noteOut_side (s : State) (q : Nat) (t : Tag) (h : Side P Q z s) : Side P Q z (noteOut s q t) := by
  unfold noteOut
  repeat' split
  all_goals exact h

theorem pushWord_side (s : State) (q : Nat) (p : Producer) (d : DWord) (t : Tag) (h : Side P Q z s) :
    Side P Q z (pushWord s q p d t) := by
  unfold pushWord
  dsimp only
  split
  · exact State.bumpQCnt_side _ _ _ _ h
  · split
    · exact noteIn_side _ _ _ h
    · exact h

theorem foldl_side {α : Type} (l : List α) (f : State → α → State) (s : State)
    (hf : ∀ s a, a ∈ l → Side P Q z s → Side P Q z (f s a)) (h : Side P Q z s) : Side P Q z (l.foldl f s) := by
  induction l generalizing s with
  | nil => exact h
  | cons a t ih =>
    exact ih _ (fun s b hb => hf s b (List.mem_cons_of_mem _ hb)) (hf s a List.mem_cons_self h)

theorem pushRecord_side (s : State) (q : Nat) (p : Producer) (l : List DWord) (h : Side P Q z s) :
    Side P Q z (pushRecord s q p l) := by
  unfold pushRecord
  cases l with
  | nil => exact h
  | cons d t => exact foldl_side _ _ _ (fun s _ _ hs => pushWord_side s _ _ _ _ hs) (pushWord_side _ _ _ _ _ h)

theorem placeEntry_side (s : State) (b : Nat) (e : LogEntry) (h : Side P Q z s) : Side P Q z (placeEntry s b e) := by
  unfold placeEntry
  dsimp only
  split
  · exact pushRecord_side _ _ _ _ h
  · split
    · exact h
    · exact (side_mk _ _ _ _ _).2 (State.bumpSat_side _ .rplLost 0 0 31 0 1 (by decide) (by decide) h)

theorem logEntry_side (s : State) (b : Nat) (e : LogEntry) (h : Side P Q z s) : Side P Q z (logEntry s b e) := by
  unfold logEntry
  split
  · exact (side_mk _ _ _ _ _).2 (State.addAcc_entries_side _ (placeEntry_side _ _ _ h))
  · exact h

theorem logPart_side (s : State) (type body : Nat) (h : Side P Q z s) : Side P Q z (logPart s type body) := logEntry_side _ _ _ h

theorem logBench_side (s : State) (n type body : Nat) (h : Side P Q z s) : Side P Q z (logBench s n type body) := by
  unfold logBench
  split
  · exact logEntry_side _ _ _ h
  · exact h

theorem diverge_side (s : State) (kind tick source word : Nat) (h : Side P Q z s) : Side P Q z (diverge s kind tick source word) := by
  unfold diverge
  split
  · exact h
  · exact (side_mk _ _ _ _ _).2 (State.bumpSat_side _ .rplDivCnt 0 0 15 0 1 (by decide) (by decide) h)

theorem compareItem_side (s : State) (source count : Nat) (crc : Word) (h : Side P Q z s) :
    Side P Q z (compareItem s source count crc) := by
  unfold compareItem
  dsimp only
  split
  · exact diverge_side _ _ _ _ _ h
  · split
    · exact h
    · exact diverge_side _ _ _ _ _ h

theorem matchItem_side (s : State) (source count : Nat) (crc : Word) (h : Side P Q z s) : Side P Q z (matchItem s source count crc) := by
  unfold matchItem
  split
  · exact h
  · exact compareItem_side _ _ _ _ h

theorem outputItem_side (s : State) (n source : Nat) (bytes : List Byte) (exempt : Bool) (h : Side P Q z s) :
    Side P Q z (outputItem s n source bytes exempt).2 := by
  unfold outputItem
  split
  · exact logBench_side _ _ _ _ h
  · split
    · exact matchItem_side _ _ _ _ h
    · exact h

theorem outputAdmin_side (s : State) (bytes : List Byte) (exempt replayed : Bool) (h : Side P Q z s) :
    Side P Q z (outputAdmin s bytes exempt replayed).2 := by
  unfold outputAdmin
  split
  · exact logPart_side _ _ _ h
  · split
    · exact matchItem_side _ _ _ _ h
    · exact h

/-! ### Responses -/

theorem checkFrames_side (s : State) (st : Stream) (fs : List (List DWord)) (exempt replayed : Bool) (h : Side P Q z s) :
    Side P Q z (checkFrames s st fs exempt replayed).2 := by
  unfold checkFrames
  have key : ∀ (l : List (List DWord)) (f : Bool × State → List DWord → Bool × State) (acc : Bool × State),
      (∀ acc d, Side P Q z acc.2 → Side P Q z (f acc d).2) → Side P Q z acc.2 → Side P Q z (l.foldl f acc).2 := by
    intro l f
    induction l with
    | nil => exact fun acc _ h => h
    | cons a t ih => exact fun acc hf h => ih _ hf (hf acc a h)
  refine key _ _ _ (fun acc d ha => ?_) h
  cases st with
  | bench n =>
    dsimp only
    split
    · exact ha
    · exact outputItem_side _ _ _ _ _ ha
  | adminUsb => exact outputAdmin_side _ _ _ _ ha
  | adminTw => exact outputAdmin_side _ _ _ _ ha

/-! ### Events -/

theorem deliverEvent_side (s : State) (n : Nat) (d : DWord) (hn : n < 8) (hp : ¬ P n) (h : Side P Q z s) :
    Side P Q z (deliverEvent s n d) := by
  unfold deliverEvent
  dsimp only
  repeat' split
  all_goals first
    | exact h
    | exact pushWord_side _ _ _ _ _ h
    | exact State.setSess_side _ _ _ hp h
    | exact State.bumpSat_side _ _ _ _ _ _ _ (regAt_bnEvtLost n hn) (by decide) h

/-- Generating an event changes nothing but the session of its bench, its queue, and what records or compares it. -/
theorem sendEvent_side (s : State) (n : Nat) (code : BitVec 16) (tag status : BitVec 8) (arg : Nat) (hn : n < 8) (hp : ¬ P n)
    (h : Side P Q z s) : Side P Q z (sendEvent s n code tag status arg) := by
  unfold sendEvent
  dsimp only
  split
  · exact h
  · split
    · exact deliverEvent_side _ _ _ hn hp (logBench_side _ _ _ _ (State.setSess_side _ _ _ hp h))
    · split
      · exact deliverEvent_side _ _ _ hn hp (State.setSess_side _ _ _ hp h)
      · have ho := outputItem_side (s.setSess n { s.sess n with seq := (s.sess n).seq + 1 }) n (n * 8 + 2)
          (bytesOfDWord (eventWord code tag status (s.sess n).seq n arg)) false (State.setSess_side _ _ _ hp h)
        split
        · rename_i e; rw [e] at ho; exact ho
        · rename_i e; rw [e] at ho; exact deliverEvent_side _ _ _ hn hp ho

theorem benches_le (m : Member) : m.benches ≤ 8 := by cases m <;> decide

theorem mem_openBenches {s : State} {n : Nat} (h : n ∈ s.openBenches) : n < 8 := by
  unfold State.openBenches State.benchList at h
  have := List.mem_range.1 (List.mem_filter.1 h).1
  have := benches_le s.member
  omega

theorem postAll_side (s : State) (code : BitVec 16) (arg : Nat) (hp : ∀ n, n < 8 → ¬ P n) (h : Side P Q z s) :
    Side P Q z (postAll s code arg) :=
  foldl_side _ _ _ (fun _ n hn hs => sendEvent_side _ n _ _ _ _ (mem_openBenches hn) (hp n (mem_openBenches hn)) hs) h

/-! ### Answers -/

theorem sendAdminEvent_side (s : State) (st : Stream) (code : BitVec 16) (tag status : BitVec 8) (arg : Nat) (hq : ¬ Q (streamKey st))
    (h : Side P Q z s) : Side P Q z (sendAdminEvent s st code tag status arg) := by
  unfold sendAdminEvent
  dsimp only
  split
  · exact State.setEndpoint_side _ _ _ (State.setStream_side _ _ _ hq h)
  · exact State.setStream_side _ _ _ hq h

theorem postCompletion_side (s : State) (st : Stream) (op : BitVec 16) (tag status : BitVec 8) (arg : Nat) (hp : ∀ n, n < 8 → ¬ P n)
    (hq : ¬ Q (streamKey st)) (h : Side P Q z s) : Side P Q z (postCompletion s st op tag status arg) := by
  unfold postCompletion
  dsimp only
  split
  · exact h
  · have hs := State.setStream_side s st { s.stream st with outstanding := (s.stream st).outstanding.eraseP fun a => decide (a.op = op ∧ a.tag = tag) } hq h
    cases st with
    | bench n => exact sendEvent_side _ _ _ _ _ _ n.isLt (hp n n.isLt) hs
    | adminUsb =>
      dsimp only
      repeat' split
      all_goals first | exact hs | exact sendAdminEvent_side _ _ _ _ _ _ hq hs
    | adminTw =>
      dsimp only
      repeat' split
      all_goals first | exact hs | exact sendAdminEvent_side _ _ _ _ _ _ hq hs

theorem endAcking_side (s : State) (st : Stream) (hp : ∀ n, n < 8 → ¬ P n) (hq : ¬ Q (streamKey st)) (h : Side P Q z s) :
    Side P Q z (endAcking s st) := by
  unfold endAcking
  dsimp only
  split
  · exact postCompletion_side _ _ _ _ _ _ hp hq (State.setStream_side _ _ _ hq h)
  · exact State.setStream_side _ _ _ hq h
  · exact h

theorem postOpenBench_side (s : State) (hp : ∀ n, n < 8 → ¬ P n) (hq : ∀ k, ¬ Q k) (h : Side P Q z s) : Side P Q z (postOpenBench s) := by
  unfold postOpenBench
  split
  · exact h
  · split
    · exact h
    · exact postAll_side _ _ _ hp ⟨h.1, h.2.1, h.2.2.1, fun k hk => absurd hk (hq k)⟩

theorem pumpResponse_side (s : State) (st : Stream) (hp : ∀ n, n < 8 → ¬ P n) (hq : ∀ k, ¬ Q k) (h : Side P Q z s) :
    Side P Q z (pumpResponse s st) := by
  unfold pumpResponse State.each
  exact postOpenBench_side _ hp hq (endAcking_side _ _ hp (hq _)
    (foldl_side _ _ _ (fun s _ _ hs => pushWord_side s _ _ _ _ hs) (State.setStream_side _ _ _ (hq _) h)))

theorem sendFrames_side (s : State) (st : Stream) (fs : List (List DWord)) (exempt replayed : Bool) (hp : ∀ n, n < 8 → ¬ P n)
    (hq : ∀ k, ¬ Q k) (h : Side P Q z s) : Side P Q z (sendFrames s st fs exempt replayed) := by
  unfold sendFrames
  have hc := checkFrames_side s st fs exempt replayed h
  dsimp only
  split
  · exact hc
  · unfold writeFrames
    split
    · exact postOpenBench_side _ hp hq hc
    · exact pumpResponse_side _ _ hp hq (State.setStream_side _ _ _ (hq _) hc)

/-- An answer changes nothing but the stream it goes to, its queue, what records or compares it, and what waited behind it: a completion
of the stream (R306) or OPEN_BENCH_CHANGED (R310). -/
theorem respond_side (s : State) (op : BitVec 16) (c : Cmd) (status : Status) (detail : Nat) (payload : List Word) (replayed : Bool)
    (hp : ∀ n, n < 8 → ¬ P n) (hq : ∀ k, ¬ Q k) (h : Side P Q z s) :
    Side P Q z (respond s op c status detail payload replayed) :=
  sendFrames_side _ _ _ _ _ hp hq h

/-- No completion waits behind the response of the stream. -/
theorem endAcking_of_none (s : State) (st : Stream) (h : (s.stream st).acking = none) : endAcking s st = s := by
  unfold endAcking
  dsimp only
  rw [h]
  split
  · rename_i e; cases e
  · rename_i e; cases e
  · rfl

/-- OPEN_BENCH_CHANGED does not wait. -/
theorem postOpenBench_of_none (s : State) (h : s.fw.openPost = none) : postOpenBench s = s := by
  unfold postOpenBench; rw [h]

/-- Where nothing waits behind a response, writing it touches no session. -/
theorem pumpResponse_quiet_side (s : State) (st : Stream) (hq : ¬ Q (streamKey st)) (ha : (s.stream st).acking = none)
    (ho : s.fw.openPost = none) (h : Side P Q z s) : Side P Q z (pumpResponse s st) := by
  unfold pumpResponse
  dsimp only
  generalize (if (s.queue (rspQueue st)).retired then (s.stream st).held.length
    else if (s.queue (rspQueue st)).roomFor 0 then 16 - (s.queue (rspQueue st)).count else 0) = room
  generalize hu : s.setStream st { s.stream st with held := (s.stream st).held.drop room } = u
  have hsu : Side P Q z u := hu ▸ State.setStream_side _ _ _ hq h
  have hx : (u.stream st).acking = none := by rw [← hu, State.stream_setStream]; exact ha
  have hy : u.fw.openPost = none := by rw [← hu]; exact ho
  clear hu
  unfold State.each
  generalize hv : ((s.stream st).held.take room).foldl (fun s w => pushWord s (rspQueue st) .unit w.data w.tag) u = v
  have hs : Side P Q z v := hv ▸ foldl_side _ _ _ (fun s _ _ hs => pushWord_side s _ _ _ _ hs) hsu
  have hk : Side (fun _ => True) (fun _ => True) u v :=
    hv ▸ foldl_side _ _ _ (fun s _ _ hs => pushWord_side s _ _ _ _ hs) (Side.refl u)
  have hw := hk.2.2.2 (streamKey st) trivial
  rw [endAcking_of_none v st (by show (v.streams.get CmdStream.init (streamKey st)).acking = none; rw [hw.1]; exact hx),
    postOpenBench_of_none v (by rw [hw.2]; exact hy)]
  exact hs

/-- Where nothing waits behind it, an answer changes nothing but the stream it goes to, its queue, and what records or compares it. -/
theorem respond_quiet_side (s : State) (op : BitVec 16) (c : Cmd) (status : Status) (detail : Nat) (payload : List Word) (replayed : Bool)
    (hq : ¬ Q (streamKey c.stream)) (ha : (s.stream c.stream).acking = none) (ho : s.fw.openPost = none) (h : Side P Q z s) :
    Side P Q z (respond s op c status detail payload replayed) := by
  unfold respond sendFrames
  dsimp only
  have hc := checkFrames_side s c.stream (responseFrames op c.tag c.bench status.code detail payload) (exemptResponse op) replayed h
  have hk := (checkFrames_side (P := fun _ => True) (Q := fun _ => True) s c.stream
    (responseFrames op c.tag c.bench status.code detail payload) (exemptResponse op) replayed (Side.refl s)).2.2.2 (streamKey c.stream) trivial
  generalize checkFrames s c.stream (responseFrames op c.tag c.bench status.code detail payload) (exemptResponse op) replayed = r at hc hk
  split
  · exact hc
  · unfold writeFrames
    split
    · rw [postOpenBench_of_none _ (by rw [hk.2]; exact ho)]; exact hc
    · refine pumpResponse_quiet_side _ _ hq ?_ (by show r.2.fw.openPost = none; rw [hk.2]; exact ho) (State.setStream_side _ _ _ hq hc)
      rw [State.stream_setStream]
      show (r.2.streams.get CmdStream.init (streamKey c.stream)).acking = none
      rw [hk.1]; exact ha

/-- The rotation and Mboron's list may change. -/
theorem side_served (u : State) (l : List Nat) (r : Mboron) (h : Side P Q z u) :
    Side P Q z { u with fw := { u.fw with served := l }, rpl := r } := ⟨h.1, h.2.1, h.2.2⟩

/-- Taking a command changes nothing but its stream, the rotation and the recorder. -/
theorem takeCommand_side (s : State) (op : BitVec 16) (c : Cmd) (hq : ¬ Q (streamKey c.stream)) (h : Side P Q z s) :
    Side P Q z (takeCommand s op c) := by
  have key (u : State) (body : Nat) (hu : Side P Q z u) : Side P Q z (match c.stream with
      | .bench n => logBench u n.val 3 body
      | .adminUsb => logPart u 3 body
      | .adminTw => logPart u 3 body) := by
    split
    · exact logBench_side _ _ _ _ hu
    · exact logPart_side _ _ _ hu
    · exact logPart_side _ _ _ hu
  unfold takeCommand
  refine key _ _ ?_
  dsimp only
  split
  all_goals split
  all_goals first
    | exact (side_mk _ _ _ _ _).2 (State.setStream_side _ _ _ hq h)
    | exact side_served _ _ _ (State.setStream_side _ _ _ hq h)

/-- Taking a command leaves what waits behind a response of its stream. -/
theorem takeCommand_waits (s : State) (op : BitVec 16) (c : Cmd) :
    ((takeCommand s op c).stream c.stream).acking = (s.stream c.stream).acking ∧ (takeCommand s op c).fw.openPost = s.fw.openPost := by
  have key (u : State) (body : Nat)
      (hu : (u.stream c.stream).acking = (s.stream c.stream).acking ∧ u.fw.openPost = s.fw.openPost) :
      let v := match c.stream with
        | .bench n => logBench u n.val 3 body
        | .adminUsb => logPart u 3 body
        | .adminTw => logPart u 3 body
      (v.stream c.stream).acking = (s.stream c.stream).acking ∧ v.fw.openPost = s.fw.openPost := by
    intro v
    have h : Side (fun _ => True) (fun _ => True) u v := by
      show Side _ _ u (match c.stream with
        | .bench n => logBench u n.val 3 body
        | .adminUsb => logPart u 3 body
        | .adminTw => logPart u 3 body)
      split
      · exact logBench_side _ _ _ _ (Side.refl u)
      · exact logPart_side _ _ _ (Side.refl u)
      · exact logPart_side _ _ _ (Side.refl u)
    have hw := h.2.2.2 (streamKey c.stream) trivial
    exact ⟨(congrArg CmdStream.acking hw.1).trans hu.1, hw.2.trans hu.2⟩
  have hs (x : CmdStream) (hx : x.acking = (s.stream c.stream).acking) :
      ((s.setStream c.stream x).stream c.stream).acking = (s.stream c.stream).acking ∧
        (s.setStream c.stream x).fw.openPost = s.fw.openPost := ⟨by rw [State.stream_setStream]; exact hx, rfl⟩
  unfold takeCommand
  refine key _ _ ?_
  dsimp only
  split
  all_goals split
  all_goals exact hs _ rfl

end Sys2Proof.Machine
end

