-- ==== Sys2Proof/Laws/Kept.lean ====
section
/-! SUPPORT. `Kept` as a relation: a record update of other fields keeps, the writers of the arrays keep, folds keep. -/

namespace Sys2Proof.Machine

theorem Kept.refl (s : State) : Kept s s := ⟨rfl, rfl, id, id⟩

theorem Kept.trans {s t u : State} (h : Kept s t) (k : Kept t u) : Kept s u :=
  ⟨k.1.trans h.1, k.2.1.trans h.2.1, fun c => k.2.2.1 (h.2.2.1 c), fun c => k.2.2.2 (h.2.2.2 c)⟩

/-- One AON tick of the running calendar keeps its ranges (R791). -/
theorem Calendar.InRange.advance {c : Calendar} (h : c.InRange) : c.advance.InRange := by
  obtain ⟨h1, h2, h3, h4, h5, h6, h7, h8, h9⟩ := h
  have one : ∀ y m : Nat, 1 ≤ monthDays y m := by
    intro y m; unfold monthDays; split
    · split <;> omega
    · split <;> omega
  unfold Calendar.advance
  repeat' split
  all_goals
    simp only [Calendar.InRange]
    refine ⟨?_, ?_, ?_, ?_, ?_, ?_, ?_, ?_, ?_⟩ <;> first | omega | exact one _ _

/-- Valid staged values lie in the calendar's ranges (R798). -/
theorem Calendar.take_inRange {c : Calendar} {date time sub : Word} (h : validCal date time = true) : (c.take date time sub).InRange := by
  simp only [validCal, validDate, validTime, Bool.and_eq_true, decide_eq_true_eq] at h
  obtain ⟨⟨h1, h2, h3, h4, h5⟩, h6, h7, h8⟩ := h
  refine ⟨h1, h2, h3, h4, h5, h6, h7, h8, ?_⟩
  have : fld sub 14 0 < 2 ^ 15 := Nat.mod_lt _ (by decide)
  simp only [Calendar.take]
  omega

/-- A record update that leaves the part, the arrays, the calendar and the waiting commands alone. -/
theorem kept_mk {z : State} (u : State) (bad par bus power boot distaff umpire storage iu tw usb ref rpl fw free) :
    Kept z ⟨u.part, u.regs, u.act, bad, par, bus, u.paths, u.queues, power, boot, distaff, u.cal, u.sessions, u.seqs, u.caps, u.cmps,
      u.pods, u.streams, u.engines, umpire, u.lanes, storage, iu, tw, usb, ref, rpl, fw, free, u.pending⟩ ↔ Kept z u := Iff.rfl

/-- The same, with a write of the calendar's fields beside its date, time and sub-second. -/
theorem kept_mk_cal {z : State} (u : State) (bad par bus power boot distaff set badDate wrap bt btFrac commit staged commitHeld answer
    dateChanged umpire storage iu tw usb ref rpl fw free) :
    Kept z ⟨u.part, u.regs, u.act, bad, par, bus, u.paths, u.queues, power, boot, distaff,
      ⟨u.cal.year, u.cal.month, u.cal.day, u.cal.hour, u.cal.minute, u.cal.second, u.cal.sub, set, badDate, wrap, bt, btFrac, commit,
        staged, commitHeld, answer, dateChanged⟩, u.sessions, u.seqs, u.caps, u.cmps, u.pods, u.streams, u.engines, umpire, u.lanes, storage,
      iu, tw, usb, ref, rpl, fw, free, u.pending⟩ ↔ Kept z u := Iff.rfl

/-- A write of the calendar that keeps its ranges. -/
theorem kept_cal {z s : State} (c : Calendar) (hz : Kept z s) (h : s.cal.InRange → c.InRange) : Kept z { s with cal := c } :=
  ⟨hz.1, hz.2.1, hz.2.2.1, fun k => h (hz.2.2.2 k)⟩

theorem State.each_kept {z : State} {α : Type} {l : List α} {f : State → α → State} {s : State}
    (hf : ∀ s a, Kept z s → Kept z (f s a)) (hz : Kept z s) : Kept z (s.each l f) := by
  unfold State.each
  induction l generalizing s with
  | nil => exact hz
  | cons a t ih => exact ih (hf s a hz)

theorem foldl_kept {z : State} {α : Type} {l : List α} {f : State → α → State} {s : State}
    (hf : ∀ s a, Kept z s → Kept z (f s a)) (hz : Kept z s) : Kept z (l.foldl f s) := State.each_kept hf hz

theorem foldl_snd_kept {z : State} {α β : Type} {l : List α} {f : β × State → α → β × State} {p : β × State}
    (hf : ∀ p a, Kept z p.2 → Kept z (f p a).2) (hz : Kept z p.2) : Kept z (l.foldl f p).2 := by
  induction l generalizing p with
  | nil => exact hz
  | cons a t ih => exact ih (hf p a hz)

theorem foldl_fst_kept {z : State} {α β : Type} {l : List α} {f : State × β → α → State × β} {p : State × β}
    (hf : ∀ p a, Kept z p.1 → Kept z (f p a).1) (hz : Kept z p.1) : Kept z (l.foldl f p).1 := by
  induction l generalizing p with
  | nil => exact hz
  | cons a t ih => exact ih (hf p a hz)

theorem kept_of_pair {z : State} {α : Type} {e : α × State} {a : α} {t : State} (h : e = (a, t)) (k : Kept z e.2) : Kept z t := by
  rw [h] at k; exact k

/-- Whatever state an optional answer holds is kept; `p` takes the state out of the answer. -/
def OptKept {α : Type} (z : State) (p : α → State) (o : Option α) : Prop := ∀ a, o = some a → Kept z (p a)

theorem kept_of_opt {z : State} {o : Option State} {t : State} (h : o = some t) (k : OptKept z id o) : Kept z t := k t h

theorem kept_of_opt2 {z : State} {α : Type} {o : Option (α × State)} {a : α} {t : State} (h : o = some (a, t))
    (k : OptKept z Prod.snd o) : Kept z t := k _ h

theorem kept_of_opt3 {z : State} {α β : Type} {o : Option (α × β × State)} {a : α} {b : β} {t : State} (h : o = some (a, b, t))
    (k : OptKept z (fun r => r.2.2) o) : Kept z t := k _ h

theorem optKept_none {z : State} {α : Type} {p : α → State} : OptKept z p none := by intro a h; cases h

theorem optKept_some {z : State} {α : Type} {p : α → State} {a : α} (h : Kept z (p a)) : OptKept z p (some a) := by
  intro b k; cases k; exact h

theorem optKept_or {z : State} {α : Type} {p : α → State} {o o' : Option α} (h : OptKept z p o) (h' : OptKept z p o') :
    OptKept z p (o.or o') := by
  intro a k
  rcases o with _ | x
  · exact h' a k
  · exact h a k

theorem optKept_map {z : State} {α β : Type} {p : α → State} {q : β → State} {o : Option α} {f : α → β} (h : OptKept z p o)
    (hf : ∀ a, Kept z (p a) → Kept z (q (f a))) : OptKept z q (o.map f) := by
  intro b k
  obtain ⟨a, ha, rfl⟩ := Option.map_eq_some_iff.1 k
  exact hf a (h a ha)

theorem optKept_bind {z : State} {α β : Type} {p : α → State} {q : β → State} {o : Option α} {f : α → Option β} (h : OptKept z p o)
    (hf : ∀ a, Kept z (p a) → OptKept z q (f a)) : OptKept z q (o.bind f) := by
  intro b k
  obtain ⟨a, ha, hb⟩ := Option.bind_eq_some_iff.1 k
  exact hf a (h a ha) b hb

theorem optKept_findSome {z : State} {α β : Type} {q : β → State} {l : List α} {f : α → Option β} (hf : ∀ a, OptKept z q (f a)) :
    OptKept z q (l.findSome? f) := by
  intro b k
  obtain ⟨a, _, ha⟩ := List.exists_of_findSome?_eq_some k
  exact hf a b ha

theorem State.setRegWord_kept {z s : State} (a : Nat) (w : Word) (hz : Kept z s) : Kept z (s.setRegWord a w) :=
  ⟨hz.1, hz.2.1, fun c => by
    obtain ⟨h, k⟩ := hz.2.2.1 c
    exact ⟨Store.put_wf _ _ _ _ h, k⟩, hz.2.2.2⟩

theorem State.setActWord_kept {z s : State} (a : Nat) (w : Word) (hz : Kept z s) : Kept z (s.setActWord a w) :=
  ⟨hz.1, hz.2.1, fun c => by
    obtain ⟨h1, h2, k⟩ := hz.2.2.1 c
    exact ⟨h1, Store.put_wf _ _ _ _ h2, k⟩, hz.2.2.2⟩

theorem State.setPath_kept {z s : State} (p : Path) (x : PathState) (hz : Kept z s) : Kept z (s.setPath p x) :=
  ⟨hz.1, hz.2.1, fun c => by
    obtain ⟨h1, h2, h, k⟩ := hz.2.2.1 c
    exact ⟨h1, h2, Store.put_wf _ _ _ _ h, k⟩, hz.2.2.2⟩

theorem State.setQueue_kept {z s : State} (q : Nat) (x : Queue) (hz : Kept z s) : Kept z (s.setQueue q x) :=
  ⟨hz.1, hz.2.1, fun c => by
    obtain ⟨h1, h2, h3, h, k⟩ := hz.2.2.1 c
    exact ⟨h1, h2, h3, Store.put_wf _ _ _ _ h, k⟩, hz.2.2.2⟩

theorem State.setSess_kept {z s : State} (n : Nat) (x : Session) (hz : Kept z s) : Kept z (s.setSess n x) :=
  ⟨hz.1, hz.2.1, fun c => by
    obtain ⟨h1, h2, h3, h4, h, k⟩ := hz.2.2.1 c
    exact ⟨h1, h2, h3, h4, Store.put_wf _ _ _ _ h, k⟩, hz.2.2.2⟩

theorem State.setSeqr_kept {z s : State} (n : Nat) (x : Sequencer) (hz : Kept z s) : Kept z (s.setSeqr n x) :=
  ⟨hz.1, hz.2.1, fun c => by
    obtain ⟨h1, h2, h3, h4, h5, h, k⟩ := hz.2.2.1 c
    exact ⟨h1, h2, h3, h4, h5, Store.put_wf _ _ _ _ h, k⟩, hz.2.2.2⟩

theorem State.setCap_kept {z s : State} (n : Nat) (x : Capture) (hz : Kept z s) : Kept z (s.setCap n x) :=
  ⟨hz.1, hz.2.1, fun c => by
    obtain ⟨h1, h2, h3, h4, h5, h6, h, k⟩ := hz.2.2.1 c
    exact ⟨h1, h2, h3, h4, h5, h6, Store.put_wf _ _ _ _ h, k⟩, hz.2.2.2⟩

theorem State.setCmp_kept {z s : State} (n : Nat) (x : CmpStream) (hz : Kept z s) : Kept z (s.setCmp n x) :=
  ⟨hz.1, hz.2.1, fun c => by
    obtain ⟨h1, h2, h3, h4, h5, h6, h7, h, k⟩ := hz.2.2.1 c
    exact ⟨h1, h2, h3, h4, h5, h6, h7, Store.put_wf _ _ _ _ h, k⟩, hz.2.2.2⟩

theorem State.setPod_kept {z s : State} (p : Nat) (x : Pod) (hz : Kept z s) : Kept z (s.setPod p x) :=
  ⟨hz.1, hz.2.1, fun c => by
    obtain ⟨h1, h2, h3, h4, h5, h6, h7, h8, h, k⟩ := hz.2.2.1 c
    exact ⟨h1, h2, h3, h4, h5, h6, h7, h8, Store.put_wf _ _ _ _ h, k⟩, hz.2.2.2⟩

theorem State.setStream_kept {z s : State} (st : Stream) (x : CmdStream) (hz : Kept z s) : Kept z (s.setStream st x) :=
  ⟨hz.1, hz.2.1, fun c => by
    obtain ⟨h1, h2, h3, h4, h5, h6, h7, h8, h9, h, k⟩ := hz.2.2.1 c
    exact ⟨h1, h2, h3, h4, h5, h6, h7, h8, h9, Store.put_wf _ _ _ _ h, k⟩, hz.2.2.2⟩

theorem State.setEngine_kept {z s : State} (e : Nat) (x : Engine) (hz : Kept z s) : Kept z (s.setEngine e x) :=
  ⟨hz.1, hz.2.1, fun c => by
    obtain ⟨h1, h2, h3, h4, h5, h6, h7, h8, h9, h10, h, k⟩ := hz.2.2.1 c
    exact ⟨h1, h2, h3, h4, h5, h6, h7, h8, h9, h10, Store.put_wf _ _ _ _ h, k⟩, hz.2.2.2⟩

theorem State.setLane_kept {z s : State} (x : Nat) (l : Lane) (hz : Kept z s) : Kept z (s.setLane x l) :=
  ⟨hz.1, hz.2.1, fun c => by
    obtain ⟨h1, h2, h3, h4, h5, h6, h7, h8, h9, h10, h11, h⟩ := hz.2.2.1 c
    exact ⟨h1, h2, h3, h4, h5, h6, h7, h8, h9, h10, h11, Store.put_wf _ _ _ _ h⟩, hz.2.2.2⟩

end Sys2Proof.Machine
end

