-- ==== Sys2Proof/Laws/KeptCore.lean ====
section
/-! SUPPORT. Every operation keeps what `Kept` says, one lemma for each: the shared operations: errors, queues, records, events, the mailbox. -/

namespace Sys2Proof.Machine

/-! ### Ops -/

theorem State.wr_kept {z : State} (s : State) (n : RegName) (i j : Nat) (w : Word)
    (hz : Kept z s) : Kept z (State.wr s n i j w) := by
  unfold State.wr
  with_reducible repeat' first | assumption | apply State.setRegWord_kept

theorem State.wrBoth_kept {z : State} (s : State) (n : RegName) (i j : Nat) (w : Word)
    (hz : Kept z s) : Kept z (State.wrBoth s n i j w) := by
  unfold State.wrBoth
  with_reducible repeat' first | assumption | apply State.setRegWord_kept | apply State.setActWord_kept

theorem State.wrFld_kept {z : State} (s : State) (n : RegName) (i j hi lo v : Nat)
    (hz : Kept z s) : Kept z (State.wrFld s n i j hi lo v) := by
  unfold State.wrFld
  with_reducible repeat' first | assumption | apply State.wr_kept

theorem State.bumpSat_kept {z : State} (s : State) (n : RegName) (i j hi lo k : Nat)
    (hz : Kept z s) : Kept z (State.bumpSat s n i j hi lo k) := by
  unfold State.bumpSat
  with_reducible repeat' first | assumption | apply State.wrFld_kept

theorem State.bumpWrap_kept {z : State} (s : State) (n : RegName) (i j hi lo k : Nat)
    (hz : Kept z s) : Kept z (State.bumpWrap s n i j hi lo k) := by
  unfold State.bumpWrap
  with_reducible repeat' first | assumption | apply State.wrFld_kept

theorem State.addAcc_kept {z : State} (s : State) (lo hi : RegName) (i k : Nat)
    (hz : Kept z s) : Kept z (State.addAcc s lo hi i k) := by
  unfold State.addAcc
  with_reducible repeat' first | assumption | apply State.wr_kept

theorem writeCounter_kept {z : State} (s : State) (c : Nat) (w : Word) (hz : Kept z s) : Kept z (writeCounter s c w) := by
  unfold writeCounter
  with_reducible repeat' first | assumption | simp only [kept_mk, kept_mk_cal] | apply State.wr_kept

theorem State.setEndpoint_kept {z : State} (s : State) (e : Nat) (x : Endpoint)
    (hz : Kept z s) : Kept z (State.setEndpoint s e x) := by
  unfold State.setEndpoint
  with_reducible repeat' first | assumption | simp only [kept_mk, kept_mk_cal]

theorem State.setBState_kept {z : State} (s : State) (n : Nat) (b : BenchState)
    (hz : Kept z s) : Kept z (State.setBState s n b) := by
  unfold State.setBState
  with_reducible repeat' first | assumption | simp only [kept_mk, kept_mk_cal] | apply State.setSess_kept

theorem State.draw_kept {z : State} (s : State) (w : Nat) (hz : Kept z s) : Kept z (State.draw s w).2 := by
  unfold State.draw
  with_reducible repeat' first | assumption | simp only [kept_mk, kept_mk_cal]

/-! ### Errors -/

theorem diverge_kept {z : State} (s : State) (kind tick source word : Nat)
    (hz : Kept z s) : Kept z (diverge s kind tick source word) := by
  unfold diverge
  with_reducible repeat' first | assumption | simp only [kept_mk, kept_mk_cal] | apply State.bumpSat_kept | split

theorem raiseFault_kept {z : State} (s : State) (res : Word) (code : Nat) (hz : Kept z s) : Kept z (raiseFault s res code) := by
  unfold raiseFault
  with_reducible repeat' first | assumption | simp only [kept_mk, kept_mk_cal] | apply diverge_kept | split

theorem requestTest_kept {z : State} (s : State) (res : Word) (retest : Bool) (by_ : Option (BitVec 16 × Stream × BitVec 8))
    (hz : Kept z s) : Kept z (requestTest s res retest by_) := by
  unfold requestTest
  with_reducible repeat' first | assumption | simp only [kept_mk, kept_mk_cal]

/-! ### Queues -/

theorem State.bumpQCnt_kept {z : State} (s : State) (q hi lo : Nat) (hz : Kept z s) : Kept z (State.bumpQCnt s q hi lo) := by
  unfold State.bumpQCnt
  with_reducible repeat' first | assumption | apply State.bumpSat_kept | split

theorem noteIn_kept {z : State} (s : State) (q : Nat) (t : Tag) (hz : Kept z s) : Kept z (noteIn s q t) := by
  unfold noteIn
  with_reducible repeat' first | assumption | simp only [kept_mk, kept_mk_cal] | apply State.setEndpoint_kept | split

theorem noteOut_kept {z : State} (s : State) (q : Nat) (t : Tag) (hz : Kept z s) : Kept z (noteOut s q t) := by
  unfold noteOut
  with_reducible repeat' first | assumption | simp only [kept_mk, kept_mk_cal] | apply State.setEndpoint_kept | split

theorem noteFlush_kept {z : State} (s : State) (q : Nat) (hz : Kept z s) : Kept z (noteFlush s q) := by
  unfold noteFlush
  with_reducible repeat' first | assumption | simp only [kept_mk, kept_mk_cal] | apply State.setEndpoint_kept | split

theorem pushWord_kept {z : State} (s : State) (q : Nat) (p : Producer) (d : DWord) (t : Tag)
    (hz : Kept z s) : Kept z (pushWord s q p d t) := by
  unfold pushWord
  with_reducible repeat' first
    | assumption | simp only [kept_mk, kept_mk_cal] | apply State.setQueue_kept | apply State.bumpQCnt_kept | apply noteIn_kept
    | split

theorem pushRecord_kept {z : State} (s : State) (q : Nat) (p : Producer) (k0 : List DWord)
    (hz : Kept z s) : Kept z (pushRecord s q p k0) := by
  unfold pushRecord
  with_reducible repeat' first
    | assumption | refine foldl_kept (fun _ _ _ => ?_) ?_ | refine foldl_snd_kept (fun _ _ _ => ?_) ?_ | apply pushWord_kept | split

theorem completePush_kept {z : State} (s : State) (q : Nat) (hz : Kept z s) : Kept z (completePush s q) := by
  unfold completePush
  with_reducible repeat' first
    | assumption | simp only [kept_mk, kept_mk_cal] | apply State.setQueue_kept | apply State.bumpQCnt_kept | apply noteIn_kept
    | split

theorem fallQueue_kept {z : State} (s : State) (q cycles : Nat) (upset : Option (Nat × Nat))
    (hz : Kept z s) : Kept z (fallQueue s q cycles upset) := by
  unfold fallQueue
  with_reducible repeat' first | assumption | simp only [kept_mk, kept_mk_cal] | apply State.setQueue_kept | split

theorem settleQueue_kept {z : State} (s : State) (q : Nat) (hz : Kept z s) : Kept z (settleQueue s q) := by
  unfold settleQueue
  with_reducible repeat' first | assumption | simp only [kept_mk, kept_mk_cal] | apply State.setQueue_kept

theorem emptyRead_kept {z : State} (s : State) (q : Nat) (hz : Kept z s) : Kept z (emptyRead s q).2 := by
  unfold emptyRead
  with_reducible repeat' first
    | assumption | simp only [kept_mk, kept_mk_cal] | apply State.setQueue_kept | apply State.bumpQCnt_kept | split

theorem deliver_kept {z : State} (s : State) (q : Nat) (hz : Kept z s) : Kept z (deliver s q).2 := by
  unfold deliver
  with_reducible repeat' first
    | assumption | simp only [kept_mk, kept_mk_cal] | apply State.setQueue_kept | apply raiseFault_kept | apply State.bumpQCnt_kept
    | apply noteOut_kept | apply emptyRead_kept | split

theorem flushQueue_kept {z : State} (s : State) (q : Nat) (hz : Kept z s) : Kept z (flushQueue s q) := by
  unfold flushQueue
  with_reducible repeat' first | assumption | simp only [kept_mk, kept_mk_cal] | apply State.setQueue_kept | apply noteFlush_kept

theorem flushBench_kept {z : State} (s : State) (n : Nat) (hz : Kept z s) : Kept z (flushBench s n) := by
  unfold flushBench
  with_reducible repeat' first | assumption | refine State.each_kept (fun _ _ _ => ?_) ?_ | apply flushQueue_kept

/-! ### Record -/

theorem placeEntry_kept {z : State} (s : State) (b : Nat) (e : LogEntry) (hz : Kept z s) : Kept z (placeEntry s b e) := by
  unfold placeEntry
  with_reducible repeat' first
    | assumption | simp only [kept_mk, kept_mk_cal] | apply State.bumpSat_kept | apply pushRecord_kept | split

theorem logEntry_kept {z : State} (s : State) (b : Nat) (e : LogEntry) (hz : Kept z s) : Kept z (logEntry s b e) := by
  unfold logEntry
  with_reducible repeat' first
    | assumption | simp only [kept_mk, kept_mk_cal] | apply State.addAcc_kept | apply placeEntry_kept | split

theorem logPart_kept {z : State} (s : State) (type : Nat) (body : Nat) (hz : Kept z s) : Kept z (logPart s type body) := by
  unfold logPart
  with_reducible repeat' first | assumption | apply logEntry_kept

theorem logBench_kept {z : State} (s : State) (n type : Nat) (body : Nat) (hz : Kept z s) : Kept z (logBench s n type body) := by
  unfold logBench
  with_reducible repeat' first | assumption | apply logEntry_kept | split

theorem compareItem_kept {z : State} (s : State) (source count : Nat) (crc : Word)
    (hz : Kept z s) : Kept z (compareItem s source count crc) := by
  unfold compareItem
  with_reducible repeat' first | assumption | simp only [kept_mk, kept_mk_cal] | apply diverge_kept | split

theorem matchItem_kept {z : State} (s : State) (source count : Nat) (crc : Word)
    (hz : Kept z s) : Kept z (matchItem s source count crc) := by
  unfold matchItem
  with_reducible repeat' first | assumption | simp only [kept_mk, kept_mk_cal] | apply compareItem_kept | split

theorem outputItem_kept {z : State} (s : State) (n source : Nat) (bytes : List Byte) (exempt : Bool)
    (hz : Kept z s) : Kept z (outputItem s n source bytes exempt).2 := by
  unfold outputItem
  with_reducible repeat' first | assumption | apply logBench_kept | apply matchItem_kept | split

theorem outputAdmin_kept {z : State} (s : State) (bytes : List Byte) (exempt replayed : Bool)
    (hz : Kept z s) : Kept z (outputAdmin s bytes exempt replayed).2 := by
  unfold outputAdmin
  with_reducible repeat' first | assumption | apply logPart_kept | apply matchItem_kept | split

theorem recordCmdWord_kept {z : State} (s : State) (q : Nat) (d : DWord) (t : Tag)
    (hz : Kept z s) : Kept z (recordCmdWord s q d t) := by
  unfold recordCmdWord
  with_reducible repeat' first | assumption | apply logPart_kept | apply logBench_kept | split

theorem pushHost_kept {z : State} (s : State) (q : Nat) (p : Producer) (d : DWord) (t : Tag)
    (hz : Kept z s) : Kept z (pushHost s q p d t) := by
  unfold pushHost
  with_reducible repeat' first | assumption | apply pushWord_kept | apply recordCmdWord_kept | split

theorem completeHost_kept {z : State} (s : State) (q : Nat) (hz : Kept z s) : Kept z (completeHost s q) := by
  unfold completeHost
  with_reducible repeat' first
    | assumption | simp only [kept_mk, kept_mk_cal] | apply completePush_kept | apply recordCmdWord_kept | split

/-! ### Events -/

theorem deliverEvent_kept {z : State} (s : State) (n : Nat) (d : DWord) (hz : Kept z s) : Kept z (deliverEvent s n d) := by
  unfold deliverEvent
  with_reducible repeat' first
    | assumption | simp only [kept_mk, kept_mk_cal] | apply State.bumpSat_kept | apply State.setSess_kept | apply pushWord_kept
    | split

theorem sendEvent_kept {z : State} (s : State) (n : Nat) (code : BitVec 16) (tag status : BitVec 8) (arg : Nat)
    (hz : Kept z s) : Kept z (sendEvent s n code tag status arg) := by
  unfold sendEvent
  with_reducible repeat' first
    | assumption | simp only [kept_mk, kept_mk_cal] | apply State.setSess_kept | apply logBench_kept | apply outputItem_kept
    | apply deliverEvent_kept | refine kept_of_pair (by assumption) ?_ | split

theorem postEvent_kept {z : State} (s : State) (n : Nat) (code : BitVec 16) (arg : Nat)
    (hz : Kept z s) : Kept z (postEvent s n code arg) := by
  unfold postEvent
  with_reducible repeat' first | assumption | apply sendEvent_kept

theorem postAll_kept {z : State} (s : State) (code : BitVec 16) (arg : Nat) (hz : Kept z s) : Kept z (postAll s code arg) := by
  unfold postAll
  with_reducible repeat' first | assumption | refine State.each_kept (fun _ _ _ => ?_) ?_ | apply postEvent_kept

theorem setCState_kept {z : State} (s : State) (c : CState) (hz : Kept z s) : Kept z (setCState s c) := by
  unfold setCState
  with_reducible repeat' first | assumption | simp only [kept_mk, kept_mk_cal] | apply postAll_kept | split

theorem twKick_kept {z : State} (s : State) (hz : Kept z s) : Kept z (twKick s) := by
  unfold twKick
  with_reducible repeat' first | assumption | simp only [kept_mk, kept_mk_cal] | apply setCState_kept | split

theorem latchAlert_kept {z : State} (s : State) (pri src bench code : Nat) (arg : BitVec 8)
    (hz : Kept z s) : Kept z (latchAlert s pri src bench code arg) := by
  unfold latchAlert
  with_reducible repeat' first
    | assumption | simp only [kept_mk, kept_mk_cal] | refine foldl_kept (fun _ _ _ => ?_) ?_
    | refine foldl_snd_kept (fun _ _ _ => ?_) ?_ | apply State.bumpSat_kept | apply setCState_kept | apply twKick_kept | split

theorem sendAdminEvent_kept {z : State} (s : State) (st : Stream) (code : BitVec 16) (tag status : BitVec 8) (arg : Nat)
    (hz : Kept z s) : Kept z (sendAdminEvent s st code tag status arg) := by
  unfold sendAdminEvent
  with_reducible repeat' first
    | assumption | simp only [kept_mk, kept_mk_cal] | apply State.setEndpoint_kept | apply State.setStream_kept | split

theorem postCompletion_kept {z : State} (s : State) (st : Stream) (op : BitVec 16) (tag status : BitVec 8) (arg : Nat)
    (hz : Kept z s) : Kept z (postCompletion s st op tag status arg) := by
  unfold postCompletion
  with_reducible repeat' first
    | assumption | simp only [kept_mk, kept_mk_cal] | apply State.setStream_kept | apply sendEvent_kept | apply sendAdminEvent_kept
    | split

theorem completeCode_kept {z : State} (s : State) (st : Stream) (op : BitVec 16) (tag status : BitVec 8) (arg : Nat)
    (hz : Kept z s) : Kept z (completeCode s st op tag status arg) := by
  unfold completeCode
  with_reducible repeat' first
    | assumption | simp only [kept_mk, kept_mk_cal] | apply State.setStream_kept | apply postCompletion_kept | split

theorem complete_kept {z : State} (s : State) (st : Stream) (op : BitVec 16) (tag : BitVec 8) (status : Status) (arg : Nat)
    (hz : Kept z s) : Kept z (complete s st op tag status arg) := by
  unfold complete
  with_reducible repeat' first | assumption | apply completeCode_kept

theorem endAcking_kept {z : State} (s : State) (st : Stream) (hz : Kept z s) : Kept z (endAcking s st) := by
  unfold endAcking
  with_reducible repeat' first
    | assumption | simp only [kept_mk, kept_mk_cal] | apply State.setStream_kept | apply postCompletion_kept | split

theorem postOpenBench_kept {z : State} (s : State) (hz : Kept z s) : Kept z (postOpenBench s) := by
  unfold postOpenBench
  with_reducible repeat' first | assumption | simp only [kept_mk, kept_mk_cal] | apply postAll_kept | split

theorem pumpResponse_kept {z : State} (s : State) (st : Stream) (hz : Kept z s) : Kept z (pumpResponse s st) := by
  unfold pumpResponse
  with_reducible repeat' first
    | assumption | simp only [kept_mk, kept_mk_cal] | refine State.each_kept (fun _ _ _ => ?_) ?_ | apply State.setStream_kept
    | apply pushWord_kept | apply endAcking_kept | apply postOpenBench_kept | split

theorem checkFrames_kept {z : State} (s : State) (st : Stream) (fs : List (List DWord)) (exempt replayed : Bool)
    (hz : Kept z s) : Kept z (checkFrames s st fs exempt replayed).2 := by
  unfold checkFrames
  with_reducible repeat' first
    | assumption | simp only [kept_mk, kept_mk_cal] | refine foldl_kept (fun _ _ _ => ?_) ?_
    | refine foldl_snd_kept (fun _ _ _ => ?_) ?_ | apply outputItem_kept | apply outputAdmin_kept | split

theorem writeFrames_kept {z : State} (s : State) (st : Stream) (fs : List (List DWord))
    (hz : Kept z s) : Kept z (writeFrames s st fs) := by
  unfold writeFrames
  with_reducible repeat' first
    | assumption | simp only [kept_mk, kept_mk_cal] | apply State.setStream_kept | apply postOpenBench_kept
    | apply pumpResponse_kept | split

theorem sendFrames_kept {z : State} (s : State) (st : Stream) (fs : List (List DWord)) (exempt replayed : Bool)
    (hz : Kept z s) : Kept z (sendFrames s st fs exempt replayed) := by
  unfold sendFrames
  dsimp only
  with_reducible repeat' first | assumption | apply checkFrames_kept | apply writeFrames_kept | split | intro _

theorem respondUnseen_kept {z : State} (s : State) (op : BitVec 16) (c : Cmd) (status : Status) (detail : Nat) (payload : List Word)
    (hz : Kept z s) : Kept z (respondUnseen s op c status detail payload) := by
  unfold respondUnseen
  with_reducible repeat' first | assumption | apply writeFrames_kept

theorem respond_kept {z : State} (s : State) (op : BitVec 16) (c : Cmd) (status : Status) (detail : Nat) (payload : List Word)
    (replayed : Bool)
    (hz : Kept z s) : Kept z (respond s op c status detail payload replayed) := by
  unfold respond
  with_reducible repeat' first | assumption | apply sendFrames_kept

theorem addOutstanding_kept {z : State} (s : State) (op : BitVec 16) (c : Cmd) (replayed : Bool)
    (hz : Kept z s) : Kept z (addOutstanding s op c replayed) := by
  unfold addOutstanding
  with_reducible repeat' first | assumption | simp only [kept_mk, kept_mk_cal] | apply State.setStream_kept

/-! ### Mailbox -/

theorem takeCommand_kept {z : State} (s : State) (op : BitVec 16) (c : Cmd) (hz : Kept z s) : Kept z (takeCommand s op c) := by
  unfold takeCommand
  with_reducible repeat' first
    | assumption | simp only [kept_mk, kept_mk_cal] | apply State.setStream_kept | apply logPart_kept | apply logBench_kept | split

theorem mailbox_kept {z : State} (s : State) (i : OpInfo) (c : Cmd) (m : Meaning)
    (hb : ∀ s, Kept z s → Kept z (m.barred s)) (hd : ∀ s, Kept z s → Kept z (m.denied s))
    (hr : ∀ s r, Kept z s → Kept z (m.run s r)) (hz : Kept z s) : Kept z (mailbox s i c m) := by
  unfold mailbox
  dsimp only
  repeat' first
    | with_reducible assumption
    | with_reducible apply respond_kept
    | with_reducible apply hb
    | with_reducible apply hd
    | with_reducible apply hr
    | with_reducible apply takeCommand_kept
    | with_reducible apply State.setSess_kept
    | with_reducible apply State.setStream_kept
    | split

theorem done_kept {z : State} (s : State) (op : BitVec 16) (c : Cmd) (payload : List Word) (replayed : Bool)
    (hz : Kept z s) : Kept z (done s op c payload replayed) := by
  unfold done
  with_reducible repeat' first | assumption | apply respond_kept

theorem accept_kept {z : State} (s : State) (op : BitVec 16) (c : Cmd) (replayed : Bool)
    (hz : Kept z s) : Kept z (accept s op c replayed) := by
  unfold accept
  with_reducible repeat' first
    | assumption | simp only [kept_mk, kept_mk_cal] | apply State.setStream_kept | apply respond_kept | apply addOutstanding_kept
    | split

end Sys2Proof.Machine
end

