-- ==== Sys2Proof/Laws/KeptUnits.lean ====
section
/-! SUPPORT. Every operation keeps what `Kept` says, one lemma for each: the units: accounts to the Referee. -/

namespace Sys2Proof.Machine

/-! ### Accounts -/

theorem addEnergy_kept {z : State} (s : State) (n pj : Nat) (hz : Kept z s) : Kept z (addEnergy s n pj) := by
  unfold addEnergy
  with_reducible repeat' first | assumption | simp only [kept_mk, kept_mk_cal] | apply State.addAcc_kept

theorem chargeSram_kept {z : State} (s : State) (n bytes : Nat) (hz : Kept z s) : Kept z (chargeSram s n bytes) := by
  unfold chargeSram
  with_reducible repeat' first | assumption | apply State.addAcc_kept | apply addEnergy_kept

theorem chargeNandWrite_kept {z : State} (s : State) (n bytes : Nat) (hz : Kept z s) : Kept z (chargeNandWrite s n bytes) := by
  unfold chargeNandWrite
  with_reducible repeat' first | assumption | apply State.addAcc_kept | apply addEnergy_kept

theorem chargeNandRead_kept {z : State} (s : State) (n bytes : Nat) (hz : Kept z s) : Kept z (chargeNandRead s n bytes) := by
  unfold chargeNandRead
  with_reducible repeat' first | assumption | apply State.addAcc_kept | apply addEnergy_kept

theorem chargeUsb_kept {z : State} (s : State) (n bytes : Nat) (hz : Kept z s) : Kept z (chargeUsb s n bytes) := by
  unfold chargeUsb
  with_reducible repeat' first | assumption | apply State.addAcc_kept | apply addEnergy_kept

theorem chargeEngine_kept {z : State} (s : State) (n e cycles : Nat) (opB : Bool)
    (hz : Kept z s) : Kept z (chargeEngine s n e cycles opB) := by
  unfold chargeEngine
  with_reducible repeat' first | assumption | apply State.bumpWrap_kept | apply State.addAcc_kept | apply addEnergy_kept | split

theorem applyReg_kept {z : State} (s : State) (a : Nat) (mask : Word) (hz : Kept z s) : Kept z (applyReg s a mask) := by
  unfold applyReg
  with_reducible repeat' first | assumption | apply State.setActWord_kept

theorem applySkein_kept {z : State} (s : State) (n : Nat) (hz : Kept z s) : Kept z (applySkein s n) := by
  unfold applySkein
  with_reducible repeat' first | assumption | refine State.each_kept (fun _ _ _ => ?_) ?_ | apply applyReg_kept

theorem settleBench_kept {z : State} (s : State) (n : Nat) (hz : Kept z s) : Kept z (settleBench s n) := by
  unfold settleBench
  with_reducible repeat' first | assumption | apply applySkein_kept | split

/-! ### FrontEnd -/

theorem State.compare_kept {z : State} (s : State) (thr hyst err : Nat) (old : Bool) (mv : Int)
    (hz : Kept z s) : Kept z (State.compare s thr hyst err old mv).2 := by
  unfold State.compare
  with_reducible repeat' first | assumption | simp only [kept_mk, kept_mk_cal] | apply State.draw_kept | split

theorem runComparator_kept {z : State} (s : State) (thr hyst err : Nat) (old : Bool) (vs : List (Int × Int))
    (hz : Kept z s) : Kept z (runComparator s thr hyst err old vs).2.2 := by
  induction vs generalizing s old with
  | nil => exact hz
  | cons v rest ih => exact ih _ _ (State.compare_kept _ _ _ _ _ _ hz)

theorem runPod_kept {z : State} (s : State) (n p : Nat) (x : PodInput) (t0 : Option Int) (t1 : Int)
    (hz : Kept z s) : Kept z (runPod s n p x t0 t1) := by
  unfold runPod
  with_reducible repeat' first
    | assumption | simp only [kept_mk, kept_mk_cal] | refine foldl_kept (fun _ _ _ => ?_) ?_
    | refine foldl_snd_kept (fun _ _ _ => ?_) ?_ | apply State.setPod_kept | apply runComparator_kept | split

theorem runPods_kept {z : State} (s : State) (n : Nat) (pods : List PodInput) (t0 : Option Int) (t1 : Int)
    (hz : Kept z s) : Kept z (runPods s n pods t0 t1) := by
  unfold runPods
  with_reducible repeat' first | assumption | refine State.each_kept (fun _ _ _ => ?_) ?_ | apply runPod_kept

theorem runClock_kept {z : State} (s : State) (n : Nat) (pods : List PodInput) (first : Bool) (t : Int)
    (hz : Kept z s) : Kept z (runClock s n pods first t).2 := by
  unfold runClock
  with_reducible repeat' first
    | assumption | simp only [kept_mk, kept_mk_cal] | apply State.setPod_kept | apply runComparator_kept | split

theorem clockEdges_kept {z : State} (s : State) (n : Nat) (edges : List Int) (hz : Kept z s) : Kept z (clockEdges s n edges) := by
  unfold clockEdges
  with_reducible repeat' first | assumption | simp only [kept_mk, kept_mk_cal] | apply State.setCap_kept

theorem clockQuiet_kept {z : State} (s : State) (n : Nat) (t : Int) (hz : Kept z s) : Kept z (clockQuiet s n t) := by
  unfold clockQuiet
  with_reducible repeat' first | assumption | simp only [kept_mk, kept_mk_cal] | apply State.setCap_kept | split

theorem setOverdrive_kept {z : State} (s : State) (p : Nat) (ovd : Word) (hz : Kept z s) : Kept z (setOverdrive s p ovd) := by
  unfold setOverdrive
  with_reducible repeat' first
    | assumption | simp only [kept_mk, kept_mk_cal] | apply State.bumpSat_kept | apply State.setPod_kept | split

/-! ### Trigger -/

theorem stopSequencer_kept {z : State} (s : State) (n : Nat) (hz : Kept z s) : Kept z (stopSequencer s n) := by
  unfold stopSequencer
  with_reducible repeat' first | assumption | simp only [kept_mk, kept_mk_cal] | apply State.setSeqr_kept

theorem raiseRelay_kept {z : State} (s : State) (n r w : Nat) (hz : Kept z s) : Kept z (raiseRelay s n r w) := by
  unfold raiseRelay
  with_reducible repeat' first
    | assumption | simp only [kept_mk, kept_mk_cal] | refine State.each_kept (fun _ _ _ => ?_) ?_ | apply State.setSeqr_kept | split

theorem evalSample_kept {z : State} (s : State) (n tick : Nat) (ws : List Word) (force : Bool)
    (hz : Kept z s) : Kept z (evalSample s n tick ws force).1 := by
  unfold evalSample
  with_reducible repeat' first
    | assumption | simp only [kept_mk, kept_mk_cal] | refine State.each_kept (fun _ _ _ => ?_) ?_
    | refine foldl_kept (fun _ _ _ => ?_) ?_ | refine foldl_snd_kept (fun _ _ _ => ?_) ?_ | apply State.setSeqr_kept
    | apply raiseRelay_kept | split

/-! ### Referee -/

theorem postFault_kept {z : State} (s : State) (res : Word) (code : Nat) (v : Verdict) (three : Bool)
    (hz : Kept z s) : Kept z (postFault s res code v three) := by
  unfold postFault
  with_reducible repeat' first
    | assumption | simp only [kept_mk, kept_mk_cal] | refine State.each_kept (fun _ _ _ => ?_) ?_ | apply postEvent_kept | split

theorem writeVerdict_kept {z : State} (s : State) (res : Word) (code : Nat) (v : Verdict) (three requested : Bool)
    (hz : Kept z s) : Kept z (writeVerdict s res code v three requested) := by
  unfold writeVerdict
  with_reducible repeat' first | assumption | simp only [kept_mk, kept_mk_cal] | apply logPart_kept

theorem noteLet_kept {z : State} (s : State) (res : Word) (hz : Kept z s) : Kept z (noteLet s res) := by
  unfold noteLet
  with_reducible repeat' first | assumption | simp only [kept_mk, kept_mk_cal] | split

theorem forgetLets_kept {z : State} (s : State) (res : Word) (hz : Kept z s) : Kept z (forgetLets s res) := by
  unfold forgetLets
  with_reducible repeat' first | assumption | simp only [kept_mk, kept_mk_cal]

theorem retainRetired_kept {z : State} (s : State) (hz : Kept z s) : Kept z (retainRetired s) := by
  unfold retainRetired
  with_reducible repeat' first | assumption | simp only [kept_mk, kept_mk_cal]

theorem bookRetire_kept {z : State} (s : State) (res : Word) (code : Nat) (hz : Kept z s) : Kept z (bookRetire s res code) := by
  unfold bookRetire
  with_reducible repeat' first | assumption | simp only [kept_mk, kept_mk_cal] | apply retainRetired_kept | split

theorem bookRejoin_kept {z : State} (s : State) (res : Word) (hz : Kept z s) : Kept z (bookRejoin s res) := by
  unfold bookRejoin
  with_reducible repeat' first | assumption | simp only [kept_mk, kept_mk_cal] | apply forgetLets_kept | apply retainRetired_kept

theorem verdictAlert_kept {z : State} (s : State) (res : Word) (code : Nat) (v : Verdict) (three : Bool)
    (hz : Kept z s) : Kept z (verdictAlert s res code v three) := by
  unfold verdictAlert
  with_reducible repeat' first | assumption | simp only [kept_mk, kept_mk_cal] | apply latchAlert_kept | split

theorem reportVerdict_kept {z : State} (s : State) (res : Word) (code : Nat) (v : Verdict) (three requested : Bool)
    (hz : Kept z s) : Kept z (reportVerdict s res code v three requested) := by
  unfold reportVerdict
  with_reducible repeat' first
    | assumption | simp only [kept_mk, kept_mk_cal] | apply State.bumpSat_kept | apply diverge_kept | apply postFault_kept
    | apply writeVerdict_kept | apply noteLet_kept | apply verdictAlert_kept | split

theorem bookVerdict_kept {z : State} (s : State) (t : RefTest) (pass : Bool) (hz : Kept z s) : Kept z (bookVerdict s t pass).2 := by
  unfold bookVerdict
  dsimp only
  with_reducible repeat' first | assumption | apply bookRetire_kept | apply reportVerdict_kept | split | intro _

theorem bookReturn_kept {z : State} (s : State) (res : Word) (hz : Kept z s) : Kept z (bookReturn s res) := by
  unfold bookReturn
  with_reducible repeat' first | assumption | apply bookRejoin_kept | apply reportVerdict_kept

theorem retireUntested_kept {z : State} (s : State) (res : Word) (code : Nat)
    (hz : Kept z s) : Kept z (retireUntested s res code) := by
  unfold retireUntested
  with_reducible repeat' first | assumption | apply bookRetire_kept | apply reportVerdict_kept

/-! ### Calendar -/

theorem requestCommit_kept {z : State} (s : State) (hz : Kept z s) : Kept z (requestCommit s) := by
  unfold requestCommit
  with_reducible repeat' first | assumption | simp only [kept_mk, kept_mk_cal] | split

theorem answerCalSet_kept {z : State} (s : State) (hz : Kept z s) : Kept z (answerCalSet s) := by
  unfold answerCalSet
  with_reducible repeat' first | assumption | simp only [kept_mk, kept_mk_cal] | apply respond_kept | apply done_kept | split

theorem calendarTick_kept {z : State} (s : State) (hz : Kept z s) : Kept z (calendarTick s) := by
  unfold calendarTick
  lift_lets
  intro c staged date time sub src next changed next2 t t2
  have hn : s.cal.InRange → next2.InRange := by
    intro h
    have ha : s.cal.advance.InRange := h.advance
    have hx : next.InRange := by
      dsimp only [next]
      split
      · split
        · rename_i hv
          exact Calendar.take_inRange (c := s.cal) hv
        · exact ha
      · exact ha
    exact hx
  have ht : Kept z t := kept_cal _ hz hn
  clear_value t
  have ht2 : Kept z t2 := by
    dsimp only [t2]
    split
    · exact State.setActWord_kept _ _ (State.setActWord_kept _ _ (State.setActWord_kept _ _ ht))
    · exact ht
  clear_value t2
  split
  · split
    · exact answerCalSet_kept _ ht2
    · exact ht2
  · exact ht

theorem calendarColdInit_kept {z : State} (s : State) (hz : Kept z s) : Kept z (calendarColdInit s) :=
  ⟨hz.1, hz.2.1, hz.2.2.1, fun _ =>
    (by refine ⟨?_, ?_, ?_, ?_, ?_, ?_, ?_, ?_, ?_⟩ <;> decide : Calendar.InRange {})⟩

/-! ### Capture -/

theorem finishSkein_kept {z : State} (s : State) (n : Nat) (k : Skein) (e : Nat) (code : EndCode)
    (hz : Kept z s) : Kept z (finishSkein s n k e code).2 := by
  unfold finishSkein
  with_reducible repeat' first
    | assumption | simp only [kept_mk, kept_mk_cal] | apply pushRecord_kept | apply outputItem_kept | apply postEvent_kept
    | apply complete_kept | apply chargeSram_kept | split

theorem appendItem_kept {z : State} (s : State) (n : Nat) (x : Item) (hz : Kept z s) : Kept z (appendItem s n x) := by
  unfold appendItem
  with_reducible repeat' first
    | assumption | simp only [kept_mk, kept_mk_cal] | apply State.setCap_kept | apply chargeSram_kept | split

theorem mark_kept {z : State} (s : State) (n type tick arg : Nat) (hz : Kept z s) : Kept z (mark s n type tick arg) := by
  unfold mark
  with_reducible repeat' first | assumption | apply appendItem_kept

theorem flushTests_kept {z : State} (s : State) (n t : Nat) (hz : Kept z s) : Kept z (flushTests s n t) := by
  unfold flushTests
  with_reducible repeat' first
    | assumption | simp only [kept_mk, kept_mk_cal] | refine State.each_kept (fun _ _ _ => ?_) ?_ | apply State.setCap_kept
    | apply mark_kept | split

theorem endSkein_kept {z : State} (s0 : State) (n e : Nat) (code : EndCode) (hz : Kept z s0) : Kept z (endSkein s0 n e code) := by
  unfold endSkein
  with_reducible repeat' first
    | assumption | simp only [kept_mk, kept_mk_cal] | apply State.setCap_kept | apply finishSkein_kept | apply flushTests_kept
    | split

theorem endCapture_kept {z : State} (s : State) (n arg : Nat) (hz : Kept z s) : Kept z (endCapture s n arg) := by
  unfold endCapture
  with_reducible repeat' first
    | assumption | simp only [kept_mk, kept_mk_cal] | apply State.setCap_kept | apply State.setBState_kept | apply postEvent_kept
    | apply settleBench_kept | apply stopSequencer_kept

theorem completeSkein_kept {z : State} (s : State) (n e : Nat) (hz : Kept z s) : Kept z (completeSkein s n e) := by
  unfold completeSkein
  dsimp only
  with_reducible repeat' first | assumption | apply complete_kept | apply endSkein_kept | apply endCapture_kept | split | intro _

theorem haltBench_kept {z : State} (s : State) (n b : Nat) (hz : Kept z s) : Kept z (haltBench s n b) := by
  unfold haltBench
  with_reducible repeat' first
    | assumption | simp only [kept_mk, kept_mk_cal] | apply State.setCap_kept | apply State.setBState_kept
    | apply stopSequencer_kept | apply endSkein_kept | split

theorem rewriteReg_kept {z : State} (s : State) (a : Nat) (hz : Kept z s) : Kept z (rewriteReg s a) := by
  unfold rewriteReg
  with_reducible repeat' first
    | assumption | simp only [kept_mk, kept_mk_cal] | refine State.each_kept (fun _ _ _ => ?_) ?_ | apply State.setRegWord_kept
    | apply State.setActWord_kept | split

theorem parityFault_kept {z : State} (s : State) (a : Nat) (hz : Kept z s) : Kept z (parityFault s a) := by
  unfold parityFault
  with_reducible repeat' first
    | assumption | simp only [kept_mk, kept_mk_cal] | apply State.bumpSat_kept | apply State.setSess_kept | apply raiseFault_kept
    | apply haltBench_kept | apply rewriteReg_kept | split

theorem checkParity_kept {z : State} (s : State) (a : Nat) (hz : Kept z s) : Kept z (checkParity s a) := by
  unfold checkParity
  with_reducible repeat' first | assumption | apply parityFault_kept | split

theorem usesRegs_kept {z : State} (s : State) (p : Nat → Bool) (hz : Kept z s) : Kept z (usesRegs s p) := by
  unfold usesRegs
  with_reducible repeat' first | assumption | refine State.each_kept (fun _ _ _ => ?_) ?_ | apply checkParity_kept

theorem scrubParity_kept {z : State} (s : State) (hz : Kept z s) : Kept z (scrubParity s) := by
  unfold scrubParity
  with_reducible repeat' first | assumption | apply usesRegs_kept

theorem rejoinSkein_kept {z : State} (s : State) (n : Nat) (hz : Kept z s) : Kept z (rejoinSkein s n) := by
  unfold rejoinSkein
  with_reducible repeat' first
    | assumption | simp only [kept_mk, kept_mk_cal] | refine State.each_kept (fun _ _ _ => ?_) ?_ | apply State.setCap_kept
    | apply bookReturn_kept | split

theorem trimBoundary_kept {z : State} (s : State) (n : Nat) (hz : Kept z s) : Kept z (trimBoundary s n) := by
  unfold trimBoundary
  with_reducible repeat' first
    | assumption | simp only [kept_mk, kept_mk_cal] | refine State.each_kept (fun _ _ _ => ?_) ?_ | apply State.setPod_kept | split

theorem boundaryAt_kept {z : State} (s0 : State) (n b : Nat) (rearm : Bool)
    (hz : Kept z s0) : Kept z (boundaryAt s0 n b rearm) := by
  unfold boundaryAt
  with_reducible repeat' first
    | assumption | simp only [kept_mk, kept_mk_cal] | apply State.setSeqr_kept | apply State.setCap_kept | apply State.draw_kept
    | apply complete_kept | apply applySkein_kept | apply flushTests_kept | apply endSkein_kept | apply haltBench_kept
    | apply usesRegs_kept | apply rejoinSkein_kept | apply trimBoundary_kept | split

theorem performBoundary_kept {z : State} (s : State) (n : Nat) (hz : Kept z s) : Kept z (performBoundary s n) := by
  unfold performBoundary
  with_reducible repeat' first | assumption | simp only [kept_mk, kept_mk_cal] | apply boundaryAt_kept | split

theorem runDueStep_kept {z : State} (s : State) (n t : Nat) (hz : Kept z s) : Kept z (runDueStep s n t) := by
  unfold runDueStep
  with_reducible repeat' first
    | assumption | simp only [kept_mk, kept_mk_cal] | apply completeSkein_kept | apply performBoundary_kept | split

theorem runDue_kept {z : State} (s : State) (n t : Nat) (hz : Kept z s) : Kept z (runDue s n t) := by
  unfold runDue
  with_reducible repeat' first | assumption | apply runDueStep_kept

theorem trimPre_kept {z : State} (s : State) (n t : Nat) (hz : Kept z s) : Kept z (trimPre s n t) := by
  unfold trimPre
  with_reducible repeat' first
    | assumption | simp only [kept_mk, kept_mk_cal] | apply State.setCap_kept | apply endCapture_kept | split

theorem spaceGone_kept {z : State} (s : State) (n t : Nat) (hz : Kept z s) : Kept z (spaceGone s n t) := by
  unfold spaceGone
  with_reducible repeat' first
    | assumption | simp only [kept_mk, kept_mk_cal] | apply State.bumpSat_kept | apply State.setCap_kept | apply postEvent_kept
    | apply mark_kept | apply endSkein_kept | apply endCapture_kept | split

theorem writeMarks_kept {z : State} (s : State) (n t : Nat) (hz : Kept z s) : Kept z (writeMarks s n t) := by
  unfold writeMarks
  with_reducible repeat' first
    | assumption | simp only [kept_mk, kept_mk_cal] | refine State.each_kept (fun _ _ _ => ?_) ?_ | apply State.setCap_kept
    | apply mark_kept | apply flushTests_kept | apply spaceGone_kept | split

theorem storeSample_kept {z : State} (s : State) (n t : Nat) (ws : List Word) (on trigger : Bool)
    (hz : Kept z s) : Kept z (storeSample s n t ws on trigger) := by
  unfold storeSample
  with_reducible repeat' first
    | assumption | simp only [kept_mk, kept_mk_cal] | apply State.setCap_kept | apply appendItem_kept | apply mark_kept
    | apply trimPre_kept | apply spaceGone_kept | split

theorem triggerAt_kept {z : State} (s : State) (n t level : Nat) (forced : Bool)
    (hz : Kept z s) : Kept z (triggerAt s n t level forced) := by
  unfold triggerAt
  with_reducible repeat' first
    | assumption | simp only [kept_mk, kept_mk_cal] | apply State.setCap_kept | apply State.setBState_kept | apply postEvent_kept
    | split

theorem answerForce_kept {z : State} (s : State) (n t : Nat) (hz : Kept z s) : Kept z (answerForce s n t) := by
  unfold answerForce
  with_reducible repeat' first
    | assumption | simp only [kept_mk, kept_mk_cal] | apply State.setSeqr_kept | apply respond_kept | apply done_kept | split

theorem unaskTest_kept {z : State} (s : State) (t ch : Nat) (hz : Kept z s) : Kept z (unaskTest s t ch) := by
  unfold unaskTest
  with_reducible repeat' first | assumption | simp only [kept_mk, kept_mk_cal] | split

theorem clearStuck_kept {z : State} (s : State) (n t : Nat) (ws : List Word) (hz : Kept z s) : Kept z (clearStuck s n t ws) := by
  unfold clearStuck
  with_reducible repeat' first
    | assumption | simp only [kept_mk, kept_mk_cal] | refine State.each_kept (fun _ _ _ => ?_) ?_ | apply State.setCap_kept
    | apply State.setPod_kept | apply unaskTest_kept | split

theorem recordSample_kept {z : State} (s : State) (n t : Nat) (ws : List Word)
    (hz : Kept z s) : Kept z (recordSample s n t ws) := by
  unfold recordSample
  with_reducible repeat' first
    | assumption | simp only [kept_mk, kept_mk_cal] | refine State.each_kept (fun _ _ _ => ?_) ?_ | apply State.setCap_kept
    | apply logEntry_kept | split

theorem takeSample_kept {z : State} (s : State) (n t : Nat) (ws : List Word) (force : Bool)
    (hz : Kept z s) : Kept z (takeSample s n t ws force) := by
  unfold takeSample
  with_reducible repeat' first
    | assumption | simp only [kept_mk, kept_mk_cal] | apply State.setCap_kept | apply evalSample_kept | apply trimPre_kept
    | apply writeMarks_kept | apply storeSample_kept | apply triggerAt_kept | apply answerForce_kept | apply clearStuck_kept
    | apply recordSample_kept | split

theorem sampleStep_kept {z : State} (s : State) (n t : Nat) (raw : List Word) (hz : Kept z s) : Kept z (sampleStep s n t raw) := by
  unfold sampleStep
  dsimp only
  with_reducible repeat' first
    | assumption | simp only [kept_mk, kept_mk_cal] | apply usesRegs_kept | apply takeSample_kept | split | intro _

theorem freeWords_kept {z : State} (s : State) (hz : Kept z s) : Kept z (freeWords s).2 := by
  unfold freeWords
  with_reducible repeat' first
    | assumption | refine foldl_kept (fun _ _ _ => ?_) ?_ | refine foldl_snd_kept (fun _ _ _ => ?_) ?_ | apply State.draw_kept

theorem timingTick_kept {z : State} (s : State) (n : Nat) (pods : List PodInput) (last : Option Int) (t : Nat)
    (hz : Kept z s) : Kept z (timingTick s n pods last t).1 := by
  unfold timingTick
  dsimp only
  split
  · exact sampleStep_kept _ _ _ _ (runPods_kept _ _ _ _ _ hz)
  · exact runPods_kept _ _ _ _ _ hz

theorem stateTick_kept {z : State} (s : State) (n : Nat) (pods : List PodInput) (last : Option Int) (t : Nat)
    (hz : Kept z s) : Kept z (stateTick s n pods last t).1 := by
  unfold stateTick
  dsimp only
  split
  · exact State.setCap_kept _ _ (runPods_kept _ _ _ _ _ hz)
  · split
    · exact clockQuiet_kept _ _ _ (runPods_kept _ _ _ _ _ (runClock_kept _ _ _ _ _ hz))
    · refine sampleStep_kept _ _ _ _ ?_
      split
      · exact freeWords_kept _ (clockEdges_kept _ _ _ (runPods_kept _ _ _ _ _ (runClock_kept _ _ _ _ _ hz)))
      · exact clockEdges_kept _ _ _ (runPods_kept _ _ _ _ _ (runClock_kept _ _ _ _ _ hz))

theorem tickStep_kept {z : State} (n : Nat) (pods : List PodInput) (acc : State × Option Int) (t : Nat)
    (hz : Kept z acc.1) : Kept z (tickStep n pods acc t).1 := by
  unfold tickStep
  dsimp only
  split
  · exact stateTick_kept _ _ _ _ _ (runDue_kept _ _ _ hz)
  · exact timingTick_kept _ _ _ _ _ (runDue_kept _ _ _ hz)

theorem sampleWindow_kept {z : State} (s : State) (n w : Nat) (pods : List PodInput)
    (hz : Kept z s) : Kept z (sampleWindow s n w pods) := by
  unfold sampleWindow
  dsimp only
  split
  · exact hz
  · refine foldl_fst_kept (fun _ _ h => tickStep_kept _ _ _ _ h) ?_
    simpa only [kept_mk] using hz

/-! ### Umpire -/

theorem State.setLevel_kept {z : State} (s : State) (y k : Nat) (l : Int) (hz : Kept z s) : Kept z (State.setLevel s y k l) := by
  unfold State.setLevel
  with_reducible repeat' first | assumption | simp only [kept_mk, kept_mk_cal]

theorem chargePath_kept {z : State} (s : State) (n k bytes : Nat) (hz : Kept z s) : Kept z (chargePath s n k bytes) := by
  unfold chargePath
  with_reducible repeat' first | assumption | apply State.setLevel_kept | split

theorem refillOne_kept {z : State} (s : State) (y k : Nat) (hz : Kept z s) : Kept z (refillOne s y k) := by
  unfold refillOne
  with_reducible repeat' first | assumption | apply State.setLevel_kept | split

theorem refillAll_kept {z : State} (s : State) (hz : Kept z s) : Kept z (refillAll s) := by
  unfold refillAll
  with_reducible repeat' first | assumption | refine State.each_kept (fun _ _ _ => ?_) ?_ | apply refillOne_kept

theorem clipLevels_kept {z : State} (s : State) (hz : Kept z s) : Kept z (clipLevels s) := by
  unfold clipLevels
  with_reducible repeat' first | assumption | refine State.each_kept (fun _ _ _ => ?_) ?_ | apply State.setLevel_kept

theorem moveSram_kept {z : State} (s : State) (n bytes : Nat) (hz : Kept z s) : Kept z (moveSram s n bytes) := by
  unfold moveSram
  with_reducible repeat' first | assumption | apply chargeSram_kept | apply chargePath_kept

theorem moveNandWrite_kept {z : State} (s : State) (n bytes : Nat) (hz : Kept z s) : Kept z (moveNandWrite s n bytes) := by
  unfold moveNandWrite
  with_reducible repeat' first | assumption | apply chargeNandWrite_kept | apply chargePath_kept

theorem moveNandRead_kept {z : State} (s : State) (n bytes : Nat) (hz : Kept z s) : Kept z (moveNandRead s n bytes) := by
  unfold moveNandRead
  with_reducible repeat' first | assumption | apply chargeNandRead_kept | apply chargePath_kept

theorem moveUsb_kept {z : State} (s : State) (n bytes : Nat) (hz : Kept z s) : Kept z (moveUsb s n bytes) := by
  unfold moveUsb
  with_reducible repeat' first | assumption | apply chargeUsb_kept | apply chargePath_kept

theorem State.setJob_kept {z : State} (s : State) (j : Job) (hz : Kept z s) : Kept z (State.setJob s j) := by
  unfold State.setJob
  with_reducible repeat' first | assumption | simp only [kept_mk, kept_mk_cal] | split

theorem addJob_kept {z : State} (s : State) (n : Nat) (st : Stream) (tag : BitVec 8) (k : JobKind) (input : List (Nat × Nat × Item))
    (hz : Kept z s) : Kept z (addJob s n st tag k input) := by
  unfold addJob
  with_reducible repeat' first | assumption | simp only [kept_mk, kept_mk_cal]

theorem recordDecision_kept {z : State} (s : State) (e : Nat) (old new : Option Nat)
    (hz : Kept z s) : Kept z (recordDecision s e old new) := by
  unfold recordDecision
  with_reducible repeat' first
    | assumption | simp only [kept_mk, kept_mk_cal] | apply State.setEngine_kept | apply logPart_kept | split

theorem replayChoice_kept {z : State} (s : State) (e bench num : Nat) (hz : Kept z s) : Kept z (replayChoice s e bench num).2 := by
  unfold replayChoice
  with_reducible repeat' first | assumption | simp only [kept_mk, kept_mk_cal] | split

theorem choose_kept {z : State} (s : State) (e : Nat) (hz : Kept z s) : Kept z (choose s e).2 := by
  unfold choose
  with_reducible repeat' first
    | assumption | simp only [kept_mk, kept_mk_cal] | apply State.bumpWrap_kept | apply recordDecision_kept
    | apply replayChoice_kept | split

theorem applyPly_kept {z : State} (s : State) (n : Nat) (hz : Kept z s) : Kept z (applyPly s n) := by
  unfold applyPly
  with_reducible repeat' first | assumption | apply applyReg_kept | split

theorem preempt_kept {z : State} (s : State) (e : Nat) (hz : Kept z s) : Kept z (preempt s e) := by
  unfold preempt
  with_reducible repeat' first | assumption | simp only [kept_mk, kept_mk_cal] | apply State.setEngine_kept | split

theorem expelStrangers_kept {z : State} (s : State) (hz : Kept z s) : Kept z (expelStrangers s) := by
  unfold expelStrangers
  with_reducible repeat' first
    | assumption | simp only [kept_mk, kept_mk_cal] | refine State.each_kept (fun _ _ _ => ?_) ?_ | apply preempt_kept | split

theorem rejoinEngines_kept {z : State} (s : State) (y : Nat) (hz : Kept z s) : Kept z (rejoinEngines s y) := by
  unfold rejoinEngines
  with_reducible repeat' first
    | assumption | refine State.each_kept (fun _ _ _ => ?_) ?_ | apply postEvent_kept | apply bookReturn_kept | split

theorem applyRally_kept {z : State} (s : State) (hz : Kept z s) : Kept z (applyRally s) := by
  unfold applyRally
  with_reducible repeat' first
    | assumption | refine State.each_kept (fun _ _ _ => ?_) ?_ | apply applyReg_kept | apply clipLevels_kept | apply applyPly_kept
    | apply expelStrangers_kept | split

theorem rallyBoundary_kept {z : State} (s : State) (e : Nat) (hz : Kept z s) : Kept z (rallyBoundary s e) := by
  unfold rallyBoundary
  with_reducible repeat' first | assumption | apply usesRegs_kept | apply rejoinEngines_kept | apply applyRally_kept

theorem settleRally_kept {z : State} (s : State) (a : Nat) (hz : Kept z s) : Kept z (settleRally s a) := by
  unfold settleRally
  with_reducible repeat' first | assumption | apply applyReg_kept | apply clipLevels_kept | apply expelStrangers_kept | split

theorem settlePly_kept {z : State} (s : State) (n : Nat) (hz : Kept z s) : Kept z (settlePly s n) := by
  unfold settlePly
  with_reducible repeat' first | assumption | apply applyPly_kept | split

theorem startJob_kept {z : State} (s : State) (e : Nat) (id : Nat) (hz : Kept z s) : Kept z (startJob s e id) := by
  unfold startJob
  with_reducible repeat' first
    | assumption | simp only [kept_mk, kept_mk_cal] | apply State.bumpWrap_kept | apply State.setEngine_kept
    | apply State.setJob_kept | split

theorem failContext_kept {z : State} (s : State) (id : Nat) (hz : Kept z s) : Kept z (failContext s id) := by
  unfold failContext
  with_reducible repeat' first
    | assumption | simp only [kept_mk, kept_mk_cal] | apply raiseFault_kept | apply State.setJob_kept | split

theorem giveEngine_kept {z : State} (s : State) (e : Nat) (choice : Option Nat) (ok : Bool)
    (hz : Kept z s) : Kept z (giveEngine s e choice ok) := by
  unfold giveEngine
  with_reducible repeat' first
    | assumption | simp only [kept_mk, kept_mk_cal] | apply State.setEngine_kept | apply startJob_kept | apply failContext_kept
    | split

theorem applyIu_kept {z : State} (s : State) (hz : Kept z s) : Kept z (applyIu s) := by
  unfold applyIu
  with_reducible repeat' first | assumption | refine State.each_kept (fun _ _ _ => ?_) ?_ | apply applyReg_kept | split

theorem freeEngine_kept {z : State} (s : State) (e : Nat) (hz : Kept z s) : Kept z (freeEngine s e) := by
  unfold freeEngine
  with_reducible repeat' first
    | assumption | simp only [kept_mk, kept_mk_cal] | apply State.setEngine_kept | apply rallyBoundary_kept | apply applyIu_kept
    | split

theorem dropJob_kept {z : State} (s : State) (id : Nat) (hz : Kept z s) : Kept z (dropJob s id) := by
  unfold dropJob
  with_reducible repeat' first | assumption | simp only [kept_mk, kept_mk_cal] | apply freeEngine_kept | split

theorem endJob_kept {z : State} (s : State) (j : Job) (st : Status) (arg : Nat) (hz : Kept z s) : Kept z (endJob s j st arg) := by
  unfold endJob
  with_reducible repeat' first | assumption | apply complete_kept | apply dropJob_kept

/-! ### Lanes -/

theorem systemFailed_kept {z : State} (s : State) (x : Nat) (hz : Kept z s) : Kept z (systemFailed s x) := by
  unfold systemFailed
  with_reducible repeat' first
    | assumption | simp only [kept_mk, kept_mk_cal] | refine State.each_kept (fun _ _ _ => ?_) ?_ | apply State.bumpSat_kept
    | apply State.setLane_kept | apply raiseFault_kept | split

theorem changeTable_kept {z : State} (s : State) (x : Nat) (f : List (Nat × Nat) → List (Nat × Nat))
    (hz : Kept z s) : Kept z (changeTable s x f) := by
  unfold changeTable
  with_reducible repeat' first | assumption | simp only [kept_mk, kept_mk_cal] | apply State.setLane_kept | apply systemFailed_kept

theorem enterBad_kept {z : State} (s : State) (x b origin : Nat) (hz : Kept z s) : Kept z (enterBad s x b origin) := by
  unfold enterBad
  with_reducible repeat' first | assumption | apply changeTable_kept

theorem writeRecord_kept {z : State} (s : State) (f : ConfRecord → ConfRecord) (hz : Kept z s) : Kept z (writeRecord s f).2 := by
  unfold writeRecord
  with_reducible repeat' first | assumption | simp only [kept_mk, kept_mk_cal] | apply systemFailed_kept

theorem rejoinBlocks_kept {z : State} (s : State) (x h : Nat) (hz : Kept z s) : Kept z (rejoinBlocks s x h) := by
  unfold rejoinBlocks
  with_reducible repeat' first
    | assumption | refine State.each_kept (fun _ _ _ => ?_) ?_ | apply bookReturn_kept | apply changeTable_kept | split

theorem eraseHank_kept {z : State} (s : State) (x h : Nat) (owner : HankOwner)
    (hz : Kept z s) : Kept z (eraseHank s x h owner) := by
  unfold eraseHank
  with_reducible repeat' first | assumption | simp only [kept_mk, kept_mk_cal] | apply State.setLane_kept | apply rejoinBlocks_kept

theorem rejoinLanes_kept {z : State} (s : State) (hz : Kept z s) : Kept z (rejoinLanes s) := by
  unfold rejoinLanes
  with_reducible repeat' first
    | assumption | simp only [kept_mk, kept_mk_cal] | refine State.each_kept (fun _ _ _ => ?_) ?_ | apply State.setLane_kept
    | apply postEvent_kept | apply bookReturn_kept | split

theorem drawHank_kept {z : State} (s : State) (x : Nat) (owner : HankOwner)
    (hz : Kept z s) : OptKept z Prod.snd (drawHank s x owner) := by
  unfold drawHank
  split
  · exact optKept_none
  · exact optKept_some (eraseHank_kept _ _ _ _ hz)

theorem newHank_kept {z : State} (s : State) (n : Nat) (minPage : Nat) (hz : Kept z s) : OptKept z id (newHank s n minPage) := by
  unfold newHank
  dsimp only
  split
  · exact optKept_none
  · refine optKept_findSome fun x => optKept_map (drawHank_kept _ _ _ (rejoinLanes_kept _ hz)) fun a h => ?_
    exact State.setCmp_kept _ _ h

theorem freeHank_kept {z : State} (s : State) (x h : Nat) (hz : Kept z s) : Kept z (freeHank s x h) := by
  unfold freeHank
  with_reducible repeat' first
    | assumption | simp only [kept_mk, kept_mk_cal] | refine State.each_kept (fun _ _ _ => ?_) ?_ | apply State.setLane_kept
    | apply raiseFault_kept

theorem freeDeadHanks_kept {z : State} (s : State) (n : Nat) (hz : Kept z s) : Kept z (freeDeadHanks s n) := by
  unfold freeDeadHanks
  with_reducible repeat' first
    | assumption | simp only [kept_mk, kept_mk_cal] | refine State.each_kept (fun _ _ _ => ?_) ?_ | apply State.setLane_kept
    | apply freeHank_kept | split

theorem dropEntry_kept {z : State} (s : State) (e : CatEntry) (hz : Kept z s) : Kept z (dropEntry s e) := by
  unfold dropEntry
  with_reducible repeat' first | assumption | simp only [kept_mk, kept_mk_cal] | apply freeDeadHanks_kept | split

theorem startMove_kept {z : State} (s : State) (x : Nat) (hz : Kept z s) : Kept z (startMove s x) := by
  unfold startMove
  with_reducible repeat' first
    | assumption | simp only [kept_mk, kept_mk_cal] | apply State.setLane_kept | apply drawHank_kept
    | refine kept_of_opt2 (by assumption) ?_ | split

theorem queueMove_kept {z : State} (s : State) (x h : Nat) (hz : Kept z s) : Kept z (queueMove s x h) := by
  unfold queueMove
  with_reducible repeat' first
    | assumption | simp only [kept_mk, kept_mk_cal] | apply State.setLane_kept | apply startMove_kept | split

theorem damageEntries_kept {z : State} (s : State) (x : Nat) (p : NandPage) (hz : Kept z s) : Kept z (damageEntries s x p) := by
  unfold damageEntries
  with_reducible repeat' first
    | assumption | simp only [kept_mk, kept_mk_cal] | refine State.each_kept (fun _ _ _ => ?_) ?_ | apply postEvent_kept | split

theorem pageAsRead_kept {z : State} (s : State) (p : NandPage) (hz : Kept z s) : Kept z (pageAsRead s p).2 := by
  unfold pageAsRead
  with_reducible repeat' first
    | assumption | refine foldl_kept (fun _ _ _ => ?_) ?_ | refine foldl_snd_kept (fun _ _ _ => ?_) ?_ | apply State.draw_kept
    | split

theorem countRead_kept {z : State} (s : State) (x key : Nat) (hz : Kept z s) : Kept z (countRead s x key) := by
  unfold countRead
  with_reducible repeat' first | assumption | simp only [kept_mk, kept_mk_cal] | apply State.setLane_kept

theorem losePage_kept {z : State} (s : State) (x key : Nat) (hz : Kept z s) : Kept z (losePage s x key) := by
  unfold losePage
  with_reducible repeat' first
    | assumption | simp only [kept_mk, kept_mk_cal] | apply State.bumpSat_kept | apply State.setLane_kept | apply damageEntries_kept
    | split

theorem readPage_kept {z : State} (s : State) (x key : Nat) (hz : Kept z s) : Kept z (readPage s x key) := by
  unfold readPage
  dsimp only
  with_reducible repeat' first
    | assumption | apply State.bumpWrap_kept | apply queueMove_kept | apply countRead_kept | apply losePage_kept | split | intro _

theorem readParts_kept {z : State} (s : State) (n session : Nat) (k0 : List (Nat × Nat × Nat))
    (hz : Kept z s) : Kept z (readParts s n session k0).2.2.2 := by
  induction k0 generalizing s n session with
  | nil => exact hz
  | cons a t ih =>
    unfold readParts
    with_reducible repeat' first
      | assumption | simp only [kept_mk, kept_mk_cal] | apply moveNandRead_kept | apply pageAsRead_kept | apply readPage_kept
      | with_reducible apply ih | split

theorem ringDrop_kept {z : State} (s : State) (n : Nat) (hz : Kept z s) : OptKept z id (ringDrop s n) := by
  unfold ringDrop
  split
  · split
    · exact optKept_none
    · exact optKept_some (postEvent_kept _ _ _ _ (dropEntry_kept _ _ hz))
  · exact optKept_none

theorem hankOrDrop_kept {z : State} (s : State) (n minPage : Nat) (k : Nat)
    (hz : Kept z s) : OptKept z id (hankOrDrop s n minPage k) := by
  induction k generalizing s with
  | zero => exact newHank_kept s n minPage hz
  | succ k ih =>
    unfold hankOrDrop
    split
    · exact optKept_some (kept_of_opt (by assumption) (newHank_kept s n minPage hz))
    · split
      · exact ih _ (kept_of_opt (by assumption) (ringDrop_kept s n hz))
      · exact optKept_none

theorem closeHank_kept {z : State} (s : State) (n : Nat) (hz : Kept z s) : Kept z (closeHank s n) := by
  unfold closeHank
  with_reducible repeat' first
    | assumption | simp only [kept_mk, kept_mk_cal] | apply State.setCmp_kept | apply State.setLane_kept | apply freeDeadHanks_kept
    | split

theorem takeSlot_kept {z : State} (s : State) (n minPage : Nat)
    (hz : Kept z s) : OptKept z (fun r => r.2.2) (takeSlot s n minPage) := by
  have room : ∀ s, Kept z s → OptKept z (fun r => r.2.2) (match (s.cmp n).openHank with
    | none => none
    | some (x, h) =>
      let l := s.lane x
      let k := l.hank h
      if k.pages < l.capacity h ∧ !k.closed ∧ (s.lanesFor n).contains x ∧ minPage ≤ l.pageBytes then
        some (x, h * 4096 + k.pages, s.setLane x (l.setHank h { k with pages := k.pages + 1 }))
      else none) := by
    intro s hs
    split
    · exact optKept_none
    · dsimp only
      split
      · exact optKept_some (State.setLane_kept _ _ hs)
      · exact optKept_none
  intro r hr
  unfold takeSlot at hr
  dsimp only at hr
  split at hr
  · rename_i r' hr'
    cases hr
    exact room s hz _ hr'
  · refine optKept_bind (hankOrDrop_kept _ n minPage _ ?_) (fun a ha => room a ha) _ hr
    split
    · exact closeHank_kept _ _ hz
    · exact hz

theorem pumpFrom_kept {z : State} (s : State) (n : Nat) (again : Bool) (k0 : Nat)
    (hz : Kept z s) : Kept z (pumpFrom s n again k0) := by
  induction k0 generalizing s n again with
  | zero => exact hz
  | succ k ih =>
    unfold pumpFrom
    with_reducible repeat' first
      | assumption | simp only [kept_mk, kept_mk_cal] | apply State.setCmp_kept | apply State.setLane_kept
      | apply moveNandWrite_kept | with_reducible apply ih | split

theorem pumpPages_kept {z : State} (s : State) (n k : Nat) (hz : Kept z s) : Kept z (pumpPages s n k) := by
  unfold pumpPages
  with_reducible repeat' first | assumption | apply pumpFrom_kept

theorem queuePage_kept {z : State} (s : State) (n : Nat) (hz : Kept z s) : Kept z (queuePage s n) := by
  unfold queuePage
  with_reducible repeat' first | assumption | simp only [kept_mk, kept_mk_cal] | apply State.setCmp_kept | split

theorem closePage_kept {z : State} (s : State) (n : Nat) (hz : Kept z s) : Kept z (closePage s n) := by
  unfold closePage
  with_reducible repeat' first | assumption | apply pumpPages_kept | apply queuePage_kept

theorem handBytes_kept {z : State} (s : State) (n : Nat) (bs : List Byte) (k : Nat) (hz : Kept z s) :
    OptKept z Prod.snd (handBytes s n bs k) := by
  induction k generalizing s bs with
  | zero => exact optKept_some hz
  | succ k ih =>
    unfold handBytes
    split
    · exact optKept_some hz
    · dsimp only
      have hw : OptKept z id (if (s.cmp n).slot.isSome then some s
        else (takeSlot s n 0).map fun r => r.2.2.setCmp n { r.2.2.cmp n with slot := some (r.1, r.2.1) }) := by
        split
        · exact optKept_some hz
        · exact optKept_map (takeSlot_kept s n 0 hz) fun a h => State.setCmp_kept _ _ h
      split
      · exact optKept_none
      · rename_i t ht
        refine optKept_map (ih _ _ ?_) fun a h => h
        have k2 : Kept z t := hw t ht
        repeat' first
          | with_reducible assumption
          | with_reducible apply queuePage_kept
          | with_reducible apply State.setCmp_kept
          | split

theorem finishMove_kept {z : State} (s : State) (x : Nat) (hz : Kept z s) : Kept z (finishMove s x) := by
  unfold finishMove
  with_reducible repeat' first
    | assumption | simp only [kept_mk, kept_mk_cal] | refine State.each_kept (fun _ _ _ => ?_) ?_
    | refine foldl_kept (fun _ _ _ => ?_) ?_ | refine foldl_snd_kept (fun _ _ _ => ?_) ?_ | apply State.bumpWrap_kept
    | apply State.setLane_kept | apply freeHank_kept | apply startMove_kept | apply readPage_kept | split

/-! ### Streams -/

theorem freeStaging_kept {z : State} (s : State) (n bytes : Nat) (hz : Kept z s) : Kept z (freeStaging s n bytes) := by
  unfold freeStaging
  with_reducible repeat' first | assumption | simp only [kept_mk, kept_mk_cal] | apply State.setCap_kept

theorem sendData_kept {z : State} (s : State) (n : Nat) (tag : BitVec 8) (bytes : List Byte) (done : Option
    (BitVec 16 × BitVec 8 × Nat)) (staging : Nat) (read : Option Nat)
    (hz : Kept z s) : Kept z (sendData s n tag bytes done staging read) := by
  unfold sendData
  with_reducible repeat' first
    | assumption | simp only [kept_mk, kept_mk_cal] | refine foldl_kept (fun _ _ _ => ?_) ?_
    | refine foldl_snd_kept (fun _ _ _ => ?_) ?_ | apply State.setEndpoint_kept | apply outputItem_kept | apply completeCode_kept
    | apply done_kept | apply freeStaging_kept | split

theorem discardUndurable_kept {z : State} (s : State) (n : Nat) (hz : Kept z s) : Kept z (discardUndurable s n) := by
  unfold discardUndurable
  with_reducible repeat' first
    | assumption | simp only [kept_mk, kept_mk_cal] | refine foldl_kept (fun _ _ _ => ?_) ?_
    | refine foldl_snd_kept (fun _ _ _ => ?_) ?_ | apply State.setCmp_kept | apply State.setLane_kept | split

theorem dropStreamJob_kept {z : State} (s : State) (n : Nat) (hz : Kept z s) : Kept z (dropStreamJob s n) := by
  unfold dropStreamJob
  with_reducible repeat' first | assumption | simp only [kept_mk, kept_mk_cal] | apply dropJob_kept | split

theorem endOnFullStorage_kept {z : State} (s : State) (n : Nat) (hz : Kept z s) : Kept z (endOnFullStorage s n) := by
  unfold endOnFullStorage
  with_reducible repeat' first
    | assumption | simp only [kept_mk, kept_mk_cal] | apply State.setCap_kept | apply endSkein_kept | apply endCapture_kept
    | apply runDue_kept | split

theorem stopStream_kept {z : State} (s : State) (n : Nat) (cause : StopCause) (hz : Kept z s) : Kept z (stopStream s n cause) := by
  unfold stopStream
  with_reducible repeat' first
    | assumption | simp only [kept_mk, kept_mk_cal] | apply State.setCmp_kept | apply postEvent_kept | apply discardUndurable_kept
    | apply dropStreamJob_kept | apply endOnFullStorage_kept | split

theorem seekSkein_kept {z : State} (s : State) (n : Nat) (hz : Kept z s) : Kept z (seekSkein s n) := by
  unfold seekSkein
  with_reducible repeat' first | assumption | simp only [kept_mk, kept_mk_cal] | apply State.setCmp_kept | split

theorem resumeStream_kept {z : State} (s : State) (n : Nat) (hz : Kept z s) : Kept z (resumeStream s n) := by
  unfold resumeStream
  with_reducible repeat' first
    | assumption | simp only [kept_mk, kept_mk_cal] | apply State.setCmp_kept | apply postEvent_kept | apply addJob_kept
    | apply seekSkein_kept | split

theorem kickStream_kept {z : State} (s : State) (n : Nat) (hz : Kept z s) : Kept z (kickStream s n) := by
  unfold kickStream
  with_reducible repeat' first
    | assumption | simp only [kept_mk, kept_mk_cal] | apply State.setCmp_kept | apply addJob_kept | apply stopStream_kept | split

theorem releaseRecords_kept {z : State} (s : State) (n skein k : Nat) (hz : Kept z s) : Kept z (releaseRecords s n skein k) := by
  unfold releaseRecords
  with_reducible repeat' first | assumption | simp only [kept_mk, kept_mk_cal] | apply State.setCap_kept | split

theorem blockDurable_kept {z : State} (s : State) (n : Nat) (b : Block) (hz : Kept z s) : Kept z (blockDurable s n b) := by
  unfold blockDurable
  with_reducible repeat' first
    | assumption | simp only [kept_mk, kept_mk_cal] | apply State.bumpWrap_kept | apply State.addAcc_kept | apply State.setCmp_kept
    | apply releaseRecords_kept | split

theorem headerDurable_kept {z : State} (s : State) (n : Nat) (b : Block) (hz : Kept z s) : Kept z (headerDurable s n b) := by
  unfold headerDurable
  with_reducible repeat' first
    | assumption | simp only [kept_mk, kept_mk_cal] | apply State.setCap_kept | apply State.setCmp_kept | apply dropStreamJob_kept
    | split

theorem settleDurable_kept {z : State} (s : State) (n : Nat) (k0 : Nat) (hz : Kept z s) : Kept z (settleDurable s n k0) := by
  induction k0 generalizing s n with
  | zero => exact hz
  | succ k ih =>
    unfold settleDurable
    with_reducible repeat' first
      | assumption | simp only [kept_mk, kept_mk_cal] | apply State.setCmp_kept | apply blockDurable_kept | apply headerDurable_kept
      | with_reducible apply ih | split

theorem pageDurable_kept {z : State} (s : State) (n seq : Nat) (hz : Kept z s) : Kept z (pageDurable s n seq) := by
  unfold pageDurable
  with_reducible repeat' first | assumption | simp only [kept_mk, kept_mk_cal] | apply State.setCmp_kept | apply settleDurable_kept

theorem release_kept {z : State} (s : State) (n : Nat) (b : Block) (bytes : List Byte)
    (hz : Kept z s) : Kept z (release s n b bytes) := by
  unfold release
  with_reducible repeat' first
    | assumption | simp only [kept_mk, kept_mk_cal] | apply State.setCmp_kept | apply pumpPages_kept | apply handBytes_kept
    | apply stopStream_kept | apply settleDurable_kept | refine kept_of_opt2 (by assumption) ?_ | split

theorem releaseHeader_kept {z : State} (s : State) (n : Nat) (k : Skein) (hz : Kept z s) : Kept z (releaseHeader s n k) := by
  unfold releaseHeader
  with_reducible repeat' first
    | assumption | simp only [kept_mk, kept_mk_cal] | apply State.setCmp_kept | apply closePage_kept | apply release_kept | split

theorem chargeEncode_kept {z : State} (s : State) (n e len : Nat) (hz : Kept z s) : Kept z (chargeEncode s n e len) := by
  unfold chargeEncode
  with_reducible repeat' first | assumption | apply chargeEngine_kept | apply moveSram_kept

theorem failSelfcheck_kept {z : State} (s : State) (e : Nat) (j : Job) (hz : Kept z s) : Kept z (failSelfcheck s e j) := by
  unfold failSelfcheck
  with_reducible repeat' first
    | assumption | simp only [kept_mk, kept_mk_cal] | apply State.bumpSat_kept | apply raiseFault_kept | apply State.setJob_kept

theorem endStreamBlock_kept {z : State} (s : State) (e : Nat) (j : Job) (ok : Bool)
    (hz : Kept z s) : Kept z (endStreamBlock s e j ok) := by
  unfold endStreamBlock
  with_reducible repeat' first
    | assumption | simp only [kept_mk, kept_mk_cal] | apply State.bumpWrap_kept | apply State.setCmp_kept | apply outputItem_kept
    | apply closePage_kept | apply release_kept | apply releaseHeader_kept | apply chargeEncode_kept | apply failSelfcheck_kept
    | split

theorem finishEmptyTail_kept {z : State} (s : State) (n : Nat) (hz : Kept z s) : Kept z (finishEmptyTail s n) := by
  unfold finishEmptyTail
  with_reducible repeat' first | assumption | simp only [kept_mk, kept_mk_cal] | apply releaseHeader_kept | split

theorem finishTails_kept {z : State} (s : State) (n : Nat) (k0 : Nat) (hz : Kept z s) : Kept z (finishTails s n k0) := by
  induction k0 generalizing s n with
  | zero => exact hz
  | succ k ih =>
    unfold finishTails
    dsimp only
    with_reducible repeat' first
      | assumption | apply seekSkein_kept | apply finishEmptyTail_kept | with_reducible apply ih | split | intro _

theorem flushStream_kept {z : State} (s : State) (n : Nat) (hz : Kept z s) : Kept z (flushStream s n).2 := by
  unfold flushStream
  with_reducible repeat' first | assumption | simp only [kept_mk, kept_mk_cal] | apply State.setCmp_kept | split

theorem followCapture_kept {z : State} (s : State) (n : Nat) (hz : Kept z s) : Kept z (followCapture s n) := by
  unfold followCapture
  with_reducible repeat' first | assumption | apply kickStream_kept | apply finishTails_kept

theorem endExportBlock_kept {z : State} (s : State) (e : Nat) (j : Job) (skein : Nat) (cfg : Word) (outMax : Nat) (ok : Bool)
    (hz : Kept z s) : Kept z (endExportBlock s e j skein cfg outMax ok) := by
  unfold endExportBlock
  with_reducible repeat' first
    | assumption | simp only [kept_mk, kept_mk_cal] | apply State.bumpWrap_kept | apply done_kept | apply moveSram_kept
    | apply State.setJob_kept | apply dropJob_kept | apply endJob_kept | apply freeStaging_kept | apply sendData_kept
    | apply chargeEncode_kept | apply failSelfcheck_kept | split

theorem endVerifyStep_kept {z : State} (s : State) (e : Nat) (j : Job) (session skein : Nat) (fail : Option Nat)
    (hz : Kept z s) : Kept z (endVerifyStep s e j session skein fail) := by
  unfold endVerifyStep
  with_reducible repeat' first
    | assumption | simp only [kept_mk, kept_mk_cal] | apply done_kept | apply chargeEngine_kept | apply State.setJob_kept
    | apply endJob_kept | apply readParts_kept | split

/-! ### Jobs -/

theorem switchTo_kept {z : State} (s : State) (e : Nat) (choice : Option Nat) (ok : Bool)
    (hz : Kept z s) : Kept z (switchTo s e choice ok) := by
  unfold switchTo
  with_reducible repeat' first
    | assumption | simp only [kept_mk, kept_mk_cal] | apply State.setEngine_kept | apply preempt_kept | apply giveEngine_kept
    | split

theorem loseJob_kept {z : State} (s : State) (j : Job) (code : Nat) (hz : Kept z s) : Kept z (loseJob s j code) := by
  unfold loseJob
  with_reducible repeat' first
    | assumption | simp only [kept_mk, kept_mk_cal] | apply endJob_kept | apply freeStaging_kept | apply stopStream_kept | split

theorem sweepOrphans_kept {z : State} (s : State) (hz : Kept z s) : Kept z (sweepOrphans s) := by
  unfold sweepOrphans
  with_reducible repeat' first | assumption | refine State.each_kept (fun _ _ _ => ?_) ?_ | apply loseJob_kept | split

theorem afterStep_kept {z : State} (s : State) (e : Nat) (hz : Kept z s) : Kept z (afterStep s e) := by
  unfold afterStep
  with_reducible repeat' first
    | assumption | apply choose_kept | apply rallyBoundary_kept | apply switchTo_kept | apply sweepOrphans_kept | split

theorem endScanStep_kept {z : State} (s : State) (e : Nat) (j : Job) (hz : Kept z s) : Kept z (endScanStep s e j) := by
  unfold endScanStep
  with_reducible repeat' first
    | assumption | simp only [kept_mk, kept_mk_cal] | apply State.draw_kept | apply done_kept | apply chargeEngine_kept
    | apply moveSram_kept | apply State.setJob_kept | apply dropJob_kept | apply sendData_kept | split

theorem stopAtStep_kept {z : State} (s : State) (j : Job) (hz : Kept z s) : Kept z (stopAtStep s j) := by
  unfold stopAtStep
  with_reducible repeat' first
    | assumption | simp only [kept_mk, kept_mk_cal] | apply completeCode_kept | apply dropJob_kept | apply freeStaging_kept | split

theorem endStep_kept {z : State} (s : State) (e : Nat) (ok : Bool) (hz : Kept z s) : Kept z (endStep s e ok) := by
  unfold endStep
  with_reducible repeat' first
    | assumption | simp only [kept_mk, kept_mk_cal] | apply endStreamBlock_kept | apply followCapture_kept
    | apply endExportBlock_kept | apply endVerifyStep_kept | apply afterStep_kept | apply endScanStep_kept | apply stopAtStep_kept
    | split

theorem tellStop_kept {z : State} (s : State) (j : Job) (code : BitVec 8) (arg : Nat)
    (hz : Kept z s) : Kept z (tellStop s j code arg) := by
  unfold tellStop
  with_reducible repeat' first
    | assumption | simp only [kept_mk, kept_mk_cal] | apply completeCode_kept | apply done_kept | apply State.setJob_kept
    | apply dropJob_kept | apply freeStaging_kept | split

theorem postEngState_kept {z : State} (s : State) (e state : Nat) (hz : Kept z s) : Kept z (postEngState s e state) := by
  unfold postEngState
  with_reducible repeat' first | assumption | refine State.each_kept (fun _ _ _ => ?_) ?_ | apply postEvent_kept

theorem wakeJobs_kept {z : State} (s : State) (res : Word) (hz : Kept z s) : Kept z (wakeJobs s res) := by
  unfold wakeJobs
  with_reducible repeat' first | assumption | simp only [kept_mk, kept_mk_cal] | split

theorem orphanJobs_kept {z : State} (s : State) (code : Nat) (hz : Kept z s) : Kept z (orphanJobs s code) := by
  unfold orphanJobs
  with_reducible repeat' first | assumption | refine State.each_kept (fun _ _ _ => ?_) ?_ | apply loseJob_kept | split

theorem retireEngine_kept {z : State} (s : State) (e code : Nat) (hz : Kept z s) : Kept z (retireEngine s e code) := by
  unfold retireEngine
  with_reducible repeat' first
    | assumption | simp only [kept_mk, kept_mk_cal] | apply State.setEngine_kept | apply State.setJob_kept | apply postEngState_kept
    | apply wakeJobs_kept | apply orphanJobs_kept | split

/-! ### Interval -/

theorem iuClock_kept {z : State} (s : State) (coarse : Nat) (hz : Kept z s) : Kept z (iuClock s coarse) := by
  unfold iuClock
  with_reducible repeat' first | assumption | simp only [kept_mk, kept_mk_cal] | split

theorem iuStart_kept {z : State} (s : State) (src : Nat) (falling : Bool) (coarse code : Nat)
    (hz : Kept z s) : Kept z (iuStart s src falling coarse code) := by
  unfold iuStart
  with_reducible repeat' first | assumption | simp only [kept_mk, kept_mk_cal] | split

theorem iuStop_kept {z : State} (s : State) (src : Nat) (falling : Bool) (coarse code : Nat)
    (hz : Kept z s) : Kept z (iuStop s src falling coarse code) := by
  unfold iuStop
  with_reducible repeat' first | assumption | simp only [kept_mk, kept_mk_cal] | split

theorem iuArm_kept {z : State} (s : State) (n : Option Nat) (hz : Kept z s) : Kept z (iuArm s n) := by
  unfold iuArm
  with_reducible repeat' first | assumption | simp only [kept_mk, kept_mk_cal]

theorem iuArmBench_kept {z : State} (s : State) (n : Nat) (hz : Kept z s) : Kept z (iuArmBench s n) := by
  unfold iuArmBench
  dsimp only
  with_reducible repeat' first | assumption | apply State.wr_kept | apply applyIu_kept | apply iuArm_kept | split | intro _

theorem iuStartCal_kept {z : State} (s : State) (hz : Kept z s) : Kept z (iuStartCal s) := by
  unfold iuStartCal
  with_reducible repeat' first | assumption | simp only [kept_mk, kept_mk_cal]

theorem iuPump_kept {z : State} (s : State) (hz : Kept z s) : Kept z (iuPump s) := by
  unfold iuPump
  with_reducible repeat' first | assumption | simp only [kept_mk, kept_mk_cal] | apply iuArm_kept | apply iuStartCal_kept | split

theorem iuBegin_kept {z : State} (s : State) (hz : Kept z s) : Kept z (iuBegin s) := by
  unfold iuBegin
  with_reducible repeat' first
    | assumption | simp only [kept_mk, kept_mk_cal] | apply done_kept | apply endJob_kept | apply iuArmBench_kept
    | apply iuStartCal_kept | split

theorem deliverRecords_kept {z : State} (s : State) (j : Job) (left done : Nat) (recs : List (List Word))
    (hz : Kept z s) : Kept z (deliverRecords s j left done recs) := by
  unfold deliverRecords
  with_reducible repeat' first
    | assumption | simp only [kept_mk, kept_mk_cal] | refine State.each_kept (fun _ _ _ => ?_) ?_ | apply logBench_kept
    | apply done_kept | apply freeEngine_kept | apply dropJob_kept | apply sendData_kept | split

theorem iuReport_kept {z : State} (s : State) (hz : Kept z s) : Kept z (iuReport s) := by
  unfold iuReport
  with_reducible repeat' first
    | assumption | simp only [kept_mk, kept_mk_cal] | apply State.bumpWrap_kept | apply chargeEngine_kept | apply rallyBoundary_kept
    | apply applyIu_kept | apply sweepOrphans_kept | apply iuClock_kept | apply iuPump_kept | apply deliverRecords_kept | split

theorem iuAbandon_kept {z : State} (s : State) (n : Nat) (hz : Kept z s) : Kept z (iuAbandon s n) := by
  unfold iuAbandon
  with_reducible repeat' first | assumption | simp only [kept_mk, kept_mk_cal] | split

theorem iuDiscard_kept {z : State} (s : State) (hz : Kept z s) : Kept z (iuDiscard s) := by
  unfold iuDiscard
  with_reducible repeat' first | assumption | simp only [kept_mk, kept_mk_cal]

theorem iuChannelLost_kept {z : State} (s : State) (ch : Nat) (hz : Kept z s) : Kept z (iuChannelLost s ch) := by
  unfold iuChannelLost
  with_reducible repeat' first | assumption | simp only [kept_mk, kept_mk_cal] | split

theorem iuCalDone_kept {z : State} (s : State) (hz : Kept z s) : Kept z (iuCalDone s) := by
  unfold iuCalDone
  with_reducible repeat' first
    | assumption | simp only [kept_mk, kept_mk_cal] | refine State.each_kept (fun _ _ _ => ?_) ?_ | apply postEvent_kept
    | apply done_kept | apply endJob_kept | apply iuPump_kept | apply iuBegin_kept | split

theorem iuCalStopped_kept {z : State} (s : State) (hz : Kept z s) : Kept z (iuCalStopped s) := by
  unfold iuCalStopped
  with_reducible repeat' first
    | assumption | simp only [kept_mk, kept_mk_cal] | apply completeCode_kept | apply dropJob_kept | apply iuPump_kept | split

theorem iuCalStep_kept {z : State} (s : State) (hits : List Nat) (hz : Kept z s) : Kept z (iuCalStep s hits) := by
  unfold iuCalStep
  with_reducible repeat' first
    | assumption | simp only [kept_mk, kept_mk_cal] | refine foldl_kept (fun _ _ _ => ?_) ?_
    | refine foldl_snd_kept (fun _ _ _ => ?_) ?_ | apply raiseFault_kept | apply done_kept | apply iuCalDone_kept
    | apply iuCalStopped_kept | split

theorem iuTemp_kept {z : State} (s : State) (t : BitVec 8) (hz : Kept z s) : Kept z (iuTemp s t) := by
  unfold iuTemp
  with_reducible repeat' first | assumption | simp only [kept_mk, kept_mk_cal] | apply iuPump_kept

theorem updateCorr_kept {z : State} (s : State) (hz : Kept z s) : Kept z (updateCorr s) := by
  unfold updateCorr
  with_reducible repeat' first | assumption | simp only [kept_mk, kept_mk_cal] | apply State.wr_kept | apply applyIu_kept | split

/-! ### TwoWire -/

theorem twStop_kept {z : State} (s : State) (hz : Kept z s) : Kept z (twStop s) := by
  unfold twStop
  with_reducible repeat' first
    | assumption | simp only [kept_mk, kept_mk_cal] | refine State.each_kept (fun _ _ _ => ?_) ?_ | apply twKick_kept
    | apply applyReg_kept | apply bookReturn_kept | apply usesRegs_kept | split

theorem twChoose_kept {z : State} (s : State) (hz : Kept z s) : Kept z (twChoose s) := by
  unfold twChoose
  with_reducible repeat' first | assumption | simp only [kept_mk, kept_mk_cal] | apply setCState_kept | split

theorem alertFailed_kept {z : State} (s : State) (hz : Kept z s) : Kept z (alertFailed s) := by
  unfold alertFailed
  with_reducible repeat' first | assumption | simp only [kept_mk, kept_mk_cal] | apply setCState_kept | split

theorem alertSent_kept {z : State} (s : State) (a : Alert) (hz : Kept z s) : Kept z (alertSent s a) := by
  unfold alertSent
  with_reducible repeat' first | assumption | simp only [kept_mk, kept_mk_cal] | apply State.bumpSat_kept | apply twChoose_kept

theorem countXfer_kept {z : State} (s : State) (k0 : XferOut) (hz : Kept z s) : Kept z (countXfer s k0) := by
  unfold countXfer
  with_reducible repeat' first | assumption | apply State.bumpSat_kept | apply done_kept | split

theorem logMore_kept {z : State} (k : Nat) (s : State) (rd : List Byte) (hz : Kept z s) : Kept z (logMore k s rd) := by
  induction k generalizing s rd with
  | zero => exact hz
  | succ k ih =>
    unfold logMore
    with_reducible repeat' first | assumption | apply logPart_kept | with_reducible apply ih | split

theorem logTransfer_kept {z : State} (s : State) (addr : Nat) (read : Bool) (n outcome : Nat) (rd : List Byte)
    (hz : Kept z s) : Kept z (logTransfer s addr read n outcome rd) := by
  unfold logTransfer
  with_reducible repeat' first | assumption | apply logPart_kept | apply logMore_kept

theorem logOut_kept {z : State} (s : State) (addr : Nat) (read : Bool) (all : Nat) (k0 : XferOut)
    (hz : Kept z s) : Kept z (logOut s addr read all k0) := by
  unfold logOut
  with_reducible repeat' first | assumption | apply done_kept | apply logTransfer_kept | split

theorem sendAlert_kept {z : State} (s : State) (a : Alert) (last : Bool) (out : XferOut)
    (hz : Kept z s) : Kept z (sendAlert s a last out) := by
  unfold sendAlert
  with_reducible repeat' first
    | assumption | simp only [kept_mk, kept_mk_cal] | apply done_kept | apply twStop_kept | apply alertFailed_kept
    | apply alertSent_kept | apply countXfer_kept | apply logOut_kept | split

theorem removedAlerts_kept {z : State} (s : State) (as : List Alert) (hz : Kept z s) : Kept z (removedAlerts s as) := by
  unfold removedAlerts
  with_reducible repeat' first | assumption | simp only [kept_mk, kept_mk_cal] | apply setCState_kept | apply twKick_kept | split

theorem runXfer_kept {z : State} (s : State) (addr wlen rlen : Nat) (k0 : Nat) (k1 : List XferOut)
    (hz : Kept z s) : Kept z (runXfer s addr wlen rlen k0 k1).2.2.2.2 := by
  induction k1 generalizing s addr wlen rlen k0 with
  | nil => exact hz
  | cons a t ih =>
    unfold runXfer
    with_reducible repeat' first
      | assumption | simp only [kept_mk, kept_mk_cal] | apply State.draw_kept | apply done_kept | apply countXfer_kept
      | apply logOut_kept | with_reducible apply ih | split

theorem performXfer_kept {z : State} (s : State) (c : Cmd) (outs : List XferOut)
    (hz : Kept z s) : Kept z (performXfer s c outs) := by
  unfold performXfer
  with_reducible repeat' first
    | assumption | simp only [kept_mk, kept_mk_cal] | apply complete_kept | apply twStop_kept | apply runXfer_kept | split

theorem releaseXfers_kept {z : State} (s : State) (hz : Kept z s) : Kept z (releaseXfers s) := by
  unfold releaseXfers
  with_reducible repeat' first
    | assumption | simp only [kept_mk, kept_mk_cal] | refine State.each_kept (fun _ _ _ => ?_) ?_ | apply performXfer_kept | split

theorem padsLet_kept {z : State} (s : State) (hz : Kept z s) : Kept z (padsLet s) := by
  unfold padsLet
  with_reducible repeat' first
    | assumption | simp only [kept_mk, kept_mk_cal] | apply twStop_kept | apply alertFailed_kept | apply releaseXfers_kept

/-! ### RefereeTests -/

theorem lastValue_kept {z : State} (s : State) (ch : Nat) (hz : Kept z s) : Kept z (lastValue s ch).2 := by
  unfold lastValue
  with_reducible repeat' first | assumption | simp only [kept_mk, kept_mk_cal] | apply State.draw_kept | split

theorem noteTest_kept {z : State} (s : State) (ch : Nat) (hz : Kept z s) : Kept z (noteTest s ch) := by
  unfold noteTest
  with_reducible repeat' first | assumption | simp only [kept_mk, kept_mk_cal] | apply State.setCap_kept | split

theorem startEffect_kept {z : State} (s : State) (res : Word) (hz : Kept z s) : Kept z (startEffect s res) := by
  unfold startEffect
  with_reducible repeat' first
    | assumption | simp only [kept_mk, kept_mk_cal] | apply State.setCap_kept | apply State.setQueue_kept | apply preempt_kept
    | apply iuChannelLost_kept | apply lastValue_kept | apply noteTest_kept | split

theorem startTest_kept {z : State} (s : State) (type : Nat) (hz : Kept z s) : Kept z (startTest s type) := by
  unfold startTest
  with_reducible repeat' first | assumption | simp only [kept_mk, kept_mk_cal] | apply startEffect_kept | split

theorem timeTest_kept {z : State} (s : State) (ch start : Nat) (hz : Kept z s) : Kept z (timeTest s ch start) := by
  unfold timeTest
  with_reducible repeat' first | assumption | simp only [kept_mk, kept_mk_cal] | apply State.setCap_kept | split

theorem markTest_kept {z : State} (s : State) (ch start : Nat) (hz : Kept z s) : Kept z (markTest s ch start) := by
  unfold markTest
  with_reducible repeat' first | assumption | simp only [kept_mk, kept_mk_cal] | apply State.setCap_kept | split

theorem unholdChannel_kept {z : State} (s : State) (ch : Nat) (hz : Kept z s) : Kept z (unholdChannel s ch) := by
  unfold unholdChannel
  with_reducible repeat' first | assumption | simp only [kept_mk, kept_mk_cal]

theorem postStuck_kept {z : State} (s : State) (ch : Nat) (v : Verdict) (hz : Kept z s) : Kept z (postStuck s ch v) := by
  unfold postStuck
  with_reducible repeat' first | assumption | simp only [kept_mk, kept_mk_cal] | apply postEvent_kept | split

theorem retireChannel_kept {z : State} (s : State) (ch : Nat) (hz : Kept z s) : Kept z (retireChannel s ch) := by
  unfold retireChannel
  with_reducible repeat' first
    | assumption | simp only [kept_mk, kept_mk_cal] | apply State.setCap_kept | apply iuChannelLost_kept | split

theorem restoreQueue_kept {z : State} (s : State) (i : Nat) (hz : Kept z s) : Kept z (restoreQueue s i) := by
  unfold restoreQueue
  with_reducible repeat' first | assumption | simp only [kept_mk, kept_mk_cal] | apply State.setQueue_kept

theorem retireQueue_kept {z : State} (s : State) (i : Nat) (hz : Kept z s) : Kept z (retireQueue s i) := by
  unfold retireQueue
  with_reducible repeat' first | assumption | simp only [kept_mk, kept_mk_cal] | apply State.setQueue_kept | apply noteFlush_kept

theorem rejoinQueue_kept {z : State} (s : State) (i : Nat) (hz : Kept z s) : Kept z (rejoinQueue s i) := by
  unfold rejoinQueue
  with_reducible repeat' first | assumption | simp only [kept_mk, kept_mk_cal] | apply State.setQueue_kept

theorem postLost_kept {z : State} (s : State) (n num : Nat) (shared : Bool) (hz : Kept z s) : Kept z (postLost s n num shared) := by
  unfold postLost
  with_reducible repeat' first | assumption | apply postEvent_kept

theorem retireBank_kept {z : State} (s : State) (n b : Nat) (hz : Kept z s) : Kept z (retireBank s n b) := by
  unfold retireBank
  with_reducible repeat' first
    | assumption | simp only [kept_mk, kept_mk_cal] | refine State.each_kept (fun _ _ _ => ?_) ?_ | apply State.setCap_kept
    | apply endSkein_kept | apply endCapture_kept | apply postLost_kept | split

theorem blankHead_kept {z : State} (s : State) (n num : Nat) (hz : Kept z s) : Kept z (blankHead s n num) := by
  unfold blankHead
  with_reducible repeat' first | assumption | simp only [kept_mk, kept_mk_cal] | apply State.setCap_kept | split

theorem repeatRead_kept {z : State} (s : State) (b : Nat) (hz : Kept z s) : Kept z (repeatRead s b) := by
  unfold repeatRead
  with_reducible repeat' first
    | assumption | simp only [kept_mk, kept_mk_cal] | apply State.setCap_kept | apply State.draw_kept | apply raiseFault_kept
    | apply postLost_kept | apply blankHead_kept | split

theorem originOf_kept {z : State} (s : State) (code : Nat) (hz : Kept z s) : Kept z (originOf s code).2 := by
  unfold originOf
  with_reducible repeat' first | assumption | apply State.draw_kept | split

theorem postLaneState_kept {z : State} (s : State) (x : Nat) (hz : Kept z s) : Kept z (postLaneState s x) := by
  unfold postLaneState
  with_reducible repeat' first | assumption | refine State.each_kept (fun _ _ _ => ?_) ?_ | apply postEvent_kept

theorem abandonBlocks_kept {z : State} (s : State) (x code : Nat) (hz : Kept z s) : Kept z (abandonBlocks s x code) := by
  unfold abandonBlocks
  with_reducible repeat' first
    | assumption | simp only [kept_mk, kept_mk_cal] | refine State.each_kept (fun _ _ _ => ?_) ?_ | apply State.setLane_kept
    | apply complete_kept | split

theorem retireLane_kept {z : State} (s : State) (x code : Nat) (hz : Kept z s) : Kept z (retireLane s x code) := by
  unfold retireLane
  with_reducible repeat' first
    | assumption | simp only [kept_mk, kept_mk_cal] | refine State.each_kept (fun _ _ _ => ?_) ?_ | apply State.setLane_kept
    | apply freeHank_kept | apply stopStream_kept | apply resumeStream_kept | apply postLaneState_kept | apply abandonBlocks_kept
    | split

theorem loseTable_kept {z : State} (s : State) (x : Nat) (hz : Kept z s) : Kept z (loseTable s x) := by
  unfold loseTable
  with_reducible repeat' first | assumption | apply retireUntested_kept | apply retireLane_kept | split

theorem retireBlock_kept {z : State} (s : State) (x b code : Nat) (hz : Kept z s) : Kept z (retireBlock s x b code) := by
  unfold retireBlock
  dsimp only
  with_reducible repeat' first
    | assumption | apply raiseFault_kept | apply enterBad_kept | apply originOf_kept | apply loseTable_kept | split | intro _

theorem restoreWindow_kept {z : State} (s : State) (n : Nat) (hz : Kept z s) : Kept z (restoreWindow s n) := by
  unfold restoreWindow
  with_reducible repeat' first
    | assumption | simp only [kept_mk, kept_mk_cal] | refine State.each_kept (fun _ _ _ => ?_) ?_ | apply State.setRegWord_kept
    | apply State.setActWord_kept | apply State.setSess_kept | split

theorem windowLet_kept {z : State} (s : State) (n : Nat) (hz : Kept z s) : Kept z (windowLet s n) := by
  unfold windowLet
  with_reducible repeat' first | assumption | apply restoreWindow_kept | split

theorem refreshFaulted_kept {z : State} (s : State) (hz : Kept z s) : Kept z (refreshFaulted s) := by
  unfold refreshFaulted
  with_reducible repeat' first | assumption | simp only [kept_mk, kept_mk_cal]

theorem quietChannel_kept {z : State} (s : State) (ch : Nat) (hz : Kept z s) : Kept z (quietChannel s ch) := by
  unfold quietChannel
  with_reducible repeat' first | assumption | simp only [kept_mk, kept_mk_cal] | split

theorem letEffect_kept {z : State} (s : State) (t : RefTest) (hz : Kept z s) : Kept z (letEffect s t) := by
  unfold letEffect
  with_reducible repeat' first
    | assumption | simp only [kept_mk, kept_mk_cal] | apply wakeJobs_kept | apply padsLet_kept | apply postStuck_kept
    | apply repeatRead_kept | apply windowLet_kept | apply quietChannel_kept | split

theorem retireEffect_kept {z : State} (s : State) (t : RefTest) (hz : Kept z s) : Kept z (retireEffect s t) := by
  unfold retireEffect
  with_reducible repeat' first
    | assumption | simp only [kept_mk, kept_mk_cal] | apply retireEngine_kept | apply iuDiscard_kept | apply releaseXfers_kept
    | apply postStuck_kept | apply retireChannel_kept | apply retireQueue_kept | apply retireBank_kept | apply retireLane_kept
    | apply retireBlock_kept | apply refreshFaulted_kept | split

theorem endEffect_kept {z : State} (s : State) (t : RefTest) (hz : Kept z s) : Kept z (endEffect s t) := by
  unfold endEffect
  with_reducible repeat' first
    | assumption | simp only [kept_mk, kept_mk_cal] | apply State.setCap_kept | apply timeTest_kept | apply unholdChannel_kept
    | apply restoreQueue_kept | split

theorem rejoinEffect_kept {z : State} (s1 : State) (res : Word) (hz : Kept z s1) : Kept z (rejoinEffect s1 res) := by
  unfold rejoinEffect
  with_reducible repeat' first
    | assumption | simp only [kept_mk, kept_mk_cal] | apply State.setCap_kept | apply State.setLane_kept | apply changeTable_kept
    | apply postEngState_kept | apply rejoinQueue_kept | apply postLaneState_kept | apply windowLet_kept | apply refreshFaulted_kept
    | split

theorem rejoinNow_kept {z : State} (s : State) (res : Word) (hz : Kept z s) : Kept z (rejoinNow s res) := by
  unfold rejoinNow
  with_reducible repeat' first | assumption | apply bookReturn_kept | apply rejoinEffect_kept

theorem retestVerdict_kept {z : State} (s : State) (t : RefTest) (pass : Bool)
    (hz : Kept z s) : Kept z (retestVerdict s t pass) := by
  unfold retestVerdict
  with_reducible repeat' first
    | assumption | simp only [kept_mk, kept_mk_cal] | apply State.setLane_kept | apply reportVerdict_kept | apply retireQueue_kept
    | apply postLaneState_kept | apply quietChannel_kept | apply rejoinNow_kept | split

theorem answerTest_kept {z : State} (s : State) (t : RefTest) (pass : Bool) (hz : Kept z s) : Kept z (answerTest s t pass) := by
  unfold answerTest
  with_reducible repeat' first | assumption | simp only [kept_mk, kept_mk_cal] | apply complete_kept | apply done_kept | split

theorem postSelfcheck_kept {z : State} (s : State) (res : Word) (v : Verdict) (benches : List Nat)
    (hz : Kept z s) : Kept z (postSelfcheck s res v benches) := by
  unfold postSelfcheck
  with_reducible repeat' first | assumption | refine State.each_kept (fun _ _ _ => ?_) ?_ | apply postEvent_kept

theorem takeSelfchecks_kept {z : State} (s : State) (res : Word) (hz : Kept z s) : Kept z (takeSelfchecks s res).2 := by
  unfold takeSelfchecks
  with_reducible repeat' first | assumption | simp only [kept_mk, kept_mk_cal]

theorem dueFirst_kept {z : State} (s : State) (res : Word) (hz : Kept z s) : Kept z (dueFirst s res) := by
  unfold dueFirst
  with_reducible repeat' first
    | assumption | simp only [kept_mk, kept_mk_cal] | apply runDue_kept | apply followCapture_kept | split

theorem endTest_kept {z : State} (s : State) (type : Nat) (pass : Bool) (hz : Kept z s) : Kept z (endTest s type pass) := by
  unfold endTest
  with_reducible repeat' first
    | assumption | simp only [kept_mk, kept_mk_cal] | apply bookVerdict_kept | apply letEffect_kept | apply retireEffect_kept
    | apply endEffect_kept | apply retestVerdict_kept | apply answerTest_kept | apply postSelfcheck_kept | apply takeSelfchecks_kept
    | apply dueFirst_kept | split

theorem testChannel_kept {z : State} (s : State) (ch : Nat) (pass : Bool) (hz : Kept z s) : Kept z (testChannel s ch pass) := by
  unfold testChannel
  dsimp only
  with_reducible repeat' first
    | assumption | apply bookVerdict_kept | apply iuChannelLost_kept | apply letEffect_kept | apply retireEffect_kept | split
    | intro _

theorem reachBoundary_kept {z : State} (s : State) (res : Word) (hz : Kept z s) : Kept z (reachBoundary s res) := by
  unfold reachBoundary
  with_reducible repeat' first | assumption | simp only [kept_mk, kept_mk_cal] | apply rejoinNow_kept | split

end Sys2Proof.Machine
end

