-- ==== Sys2Proof/Laws/KeptChip.lean ====
section
/-! SUPPORT. Every operation keeps what `Kept` says, one lemma for each: the whole chip: USB, power, start-up, the register window, sessions. -/

namespace Sys2Proof.Machine

/-! ### Usb -/

theorem attach_kept {z : State} (s : State) (hz : Kept z s) : Kept z (attach s) := by
  unfold attach
  with_reducible repeat' first | assumption | simp only [kept_mk, kept_mk_cal] | split

theorem endAdmin_kept {z : State} (s : State) (hz : Kept z s) : Kept z (endAdmin s) := by
  unfold endAdmin
  with_reducible repeat' first | assumption | simp only [kept_mk, kept_mk_cal] | split

theorem dropWork_kept {z : State} (s : State) (st : Stream) (tag : BitVec 8) (hz : Kept z s) : Kept z (dropWork s st tag) := by
  unfold dropWork
  with_reducible repeat' first
    | assumption | simp only [kept_mk, kept_mk_cal] | apply dropJob_kept | apply freeStaging_kept | apply iuAbandon_kept | split

theorem loseData_kept {z : State} (s : State) (n : Nat) (hz : Kept z s) : Kept z (loseData s n) := by
  unfold loseData
  with_reducible repeat' first
    | assumption | simp only [kept_mk, kept_mk_cal] | refine State.each_kept (fun _ _ _ => ?_) ?_
    | refine foldl_kept (fun _ _ _ => ?_) ?_ | refine foldl_snd_kept (fun _ _ _ => ?_) ?_ | apply State.setEndpoint_kept
    | apply complete_kept | apply freeStaging_kept | apply dropWork_kept

theorem detachBench_kept {z : State} (s : State) (n : Nat) (hz : Kept z s) : Kept z (detachBench s n) := by
  unfold detachBench
  with_reducible repeat' first
    | assumption | simp only [kept_mk, kept_mk_cal] | apply State.setSess_kept | apply State.setStream_kept | apply flushQueue_kept
    | split

theorem linkLost_kept {z : State} (s : State) (busReset : Bool) (hz : Kept z s) : Kept z (linkLost s busReset) := by
  unfold linkLost
  with_reducible repeat' first
    | assumption | simp only [kept_mk, kept_mk_cal] | refine State.each_kept (fun _ _ _ => ?_) ?_ | apply State.bumpSat_kept
    | apply State.setEndpoint_kept | apply State.setStream_kept | apply flushQueue_kept | apply endAdmin_kept | apply loseData_kept
    | apply detachBench_kept | split

theorem dropPullup_kept {z : State} (s : State) (hz : Kept z s) : Kept z (dropPullup s) := by
  unfold dropPullup
  with_reducible repeat' first | assumption | simp only [kept_mk, kept_mk_cal] | apply linkLost_kept | split

theorem vbusTo_kept {z : State} (s : State) (high : Bool) (hz : Kept z s) : Kept z (vbusTo s high) := by
  unfold vbusTo
  with_reducible repeat' first | assumption | simp only [kept_mk, kept_mk_cal] | apply dropPullup_kept | split

theorem linkUp_kept {z : State} (s : State) (superSpeed : Bool) (hz : Kept z s) : Kept z (linkUp s superSpeed) := by
  unfold linkUp
  with_reducible repeat' first | assumption | simp only [kept_mk, kept_mk_cal] | split

theorem controlRequest_kept {z : State} (s : State) (superSpeed : Bool) (req : CtlReq)
    (hz : Kept z s) : Kept z (controlRequest s superSpeed req) := by
  unfold controlRequest
  with_reducible repeat' first | assumption | simp only [kept_mk, kept_mk_cal] | apply linkUp_kept | split

theorem pushFrame_kept {z : State} (s : State) (q : Nat) (ws : List Word) (hz : Kept z s) : Kept z (pushFrame s q ws) := by
  unfold pushFrame
  with_reducible repeat' first
    | assumption | simp only [kept_mk, kept_mk_cal] | refine foldl_kept (fun _ _ _ => ?_) ?_
    | refine foldl_snd_kept (fun _ _ _ => ?_) ?_ | apply pushHost_kept | apply mark_kept | split

theorem pushFrames_kept {z : State} (s : State) (q : Nat) (ws : List Word) (k0 : Nat)
    (hz : Kept z s) : Kept z (pushFrames s q ws k0).2 := by
  induction k0 generalizing s q ws with
  | zero => exact hz
  | succ k ih =>
    unfold pushFrames
    with_reducible repeat' first | assumption | apply pushFrame_kept | with_reducible apply ih | split

theorem bulkOut_kept {z : State} (s : State) (ep : Nat) (ws : List Word) (hz : Kept z s) : Kept z (bulkOut s ep ws) := by
  unfold bulkOut
  with_reducible repeat' first
    | assumption | simp only [kept_mk, kept_mk_cal] | apply State.setEndpoint_kept | apply moveUsb_kept | apply pushFrames_kept
    | split

theorem partialFrame_kept {z : State} (s : State) (ep : Nat) (hz : Kept z s) : Kept z (partialFrame s ep) := by
  unfold partialFrame
  with_reducible repeat' first
    | assumption | simp only [kept_mk, kept_mk_cal] | apply State.bumpSat_kept | apply State.setEndpoint_kept | split

theorem deliverMany_kept {z : State} (s : State) (q : Nat) (k0 : Nat) (hz : Kept z s) : Kept z (deliverMany s q k0).2 := by
  induction k0 generalizing s q with
  | zero => exact hz
  | succ k ih =>
    unfold deliverMany
    with_reducible repeat' first | assumption | apply settleQueue_kept | apply deliver_kept | with_reducible apply ih | split

theorem sendContainer_kept {z : State} (s : State) (ep : Nat) (c : Container) (hz : Kept z s) : Kept z (sendContainer s ep c) := by
  unfold sendContainer
  with_reducible repeat' first
    | assumption | simp only [kept_mk, kept_mk_cal] | apply State.setEndpoint_kept | apply moveUsb_kept | split

theorem sendRsp_kept {z : State} (s : State) (ep : Nat) (hz : Kept z s) : Kept z (sendRsp s ep) := by
  unfold sendRsp
  with_reducible repeat' first | assumption | apply deliverMany_kept | apply sendContainer_kept

theorem sendEvt_kept {z : State} (s : State) (ep : Nat) (hz : Kept z s) : Kept z (sendEvt s ep) := by
  unfold sendEvt
  with_reducible repeat' first
    | assumption | simp only [kept_mk, kept_mk_cal] | refine foldl_kept (fun _ _ _ => ?_) ?_
    | refine foldl_snd_kept (fun _ _ _ => ?_) ?_ | apply State.setEndpoint_kept | apply State.setStream_kept
    | apply deliverMany_kept | apply sendContainer_kept | split

theorem markRead_kept {z : State} (s : State) (n : Nat) (num : Option Nat) (hz : Kept z s) : Kept z (markRead s n num) := by
  unfold markRead
  with_reducible repeat' first | assumption | simp only [kept_mk, kept_mk_cal] | apply State.setCap_kept | split

theorem sendItem_kept {z : State} (s : State) (ep : Nat) (d : DataItem) (rest : List DataItem)
    (hz : Kept z s) : Kept z (sendItem s ep d rest) := by
  unfold sendItem
  with_reducible repeat' first
    | assumption | simp only [kept_mk, kept_mk_cal] | apply State.setEndpoint_kept | apply State.setStream_kept
    | apply completeCode_kept | apply done_kept | apply freeStaging_kept | apply sendContainer_kept | apply markRead_kept | split

theorem sendRest_kept {z : State} (s : State) (ep : Nat) (hz : Kept z s) : Kept z (sendRest s ep) := by
  unfold sendRest
  with_reducible repeat' first | assumption | simp only [kept_mk, kept_mk_cal] | apply State.setEndpoint_kept

theorem bulkIn_kept {z : State} (s : State) (ep : Nat) (hz : Kept z s) : Kept z (bulkIn s ep) := by
  unfold bulkIn
  with_reducible repeat' first
    | assumption | simp only [kept_mk, kept_mk_cal] | apply sendRsp_kept | apply sendEvt_kept | apply sendItem_kept
    | apply sendRest_kept | split

theorem cutSent_kept {z : State} (s : State) (ep k : Nat) (hz : Kept z s) : Kept z (cutSent s ep k) := by
  unfold cutSent
  with_reducible repeat' first | assumption | simp only [kept_mk, kept_mk_cal] | apply State.setEndpoint_kept | split

theorem cutContainer_kept {z : State} (s : State) (ep k : Nat) (hz : Kept z s) : Kept z (cutContainer s ep k) := by
  unfold cutContainer
  with_reducible repeat' first
    | assumption | simp only [kept_mk, kept_mk_cal] | apply done_kept | apply sendItem_kept | apply bulkIn_kept | apply cutSent_kept
    | split

theorem clearHalt_kept {z : State} (s : State) (ep : BitVec 8) (gone : Option Nat)
    (hz : Kept z s) : Kept z (clearHalt s ep gone) := by
  unfold clearHalt
  with_reducible repeat' first
    | assumption | simp only [kept_mk, kept_mk_cal] | apply State.setEndpoint_kept | apply cutContainer_kept | split

theorem suspendLink_kept {z : State} (s : State) (hz : Kept z s) : Kept z (suspendLink s) := by
  unfold suspendLink
  with_reducible repeat' first | assumption | simp only [kept_mk, kept_mk_cal] | split

theorem resumeLink_kept {z : State} (s : State) (hz : Kept z s) : Kept z (resumeLink s) := by
  unfold resumeLink
  with_reducible repeat' first | assumption | simp only [kept_mk, kept_mk_cal] | split

theorem signalWakeup_kept {z : State} (s : State) (hz : Kept z s) : Kept z (signalWakeup s) := by
  unfold signalWakeup
  with_reducible repeat' first | assumption | simp only [kept_mk, kept_mk_cal] | split

/-! ### Power -/

theorem armBench_kept {z : State} (s : State) (n : Nat) (hz : Kept z s) : Kept z (armBench s n) := by
  unfold armBench
  with_reducible repeat' first
    | assumption | simp only [kept_mk, kept_mk_cal] | apply State.setCap_kept | apply State.setBState_kept
    | apply performBoundary_kept | split

theorem requestEntry_kept {z : State} (s : State) (target : PState) (hz : Kept z s) : Kept z (requestEntry s target).2 := by
  unfold requestEntry
  with_reducible repeat' first | assumption | simp only [kept_mk, kept_mk_cal] | split

theorem heldEntry_kept {z : State} (s : State) (hz : Kept z s) : Kept z (heldEntry s) := by
  unfold heldEntry
  with_reducible repeat' first | assumption | simp only [kept_mk, kept_mk_cal] | apply requestEntry_kept | split

theorem startEntry_kept {z : State} (s : State) (hz : Kept z s) : Kept z (startEntry s) := by
  unfold startEntry
  with_reducible repeat' first
    | assumption | simp only [kept_mk, kept_mk_cal] | apply logPart_kept | apply dropPullup_kept | apply heldEntry_kept | split

theorem wakeFor_kept {z : State} (s : State) (src : WakeSource) (rule : Nat) (target : PState)
    (hz : Kept z s) : Kept z (wakeFor s src rule target) := by
  unfold wakeFor
  with_reducible repeat' first | assumption | simp only [kept_mk, kept_mk_cal] | split

theorem distaffLog_kept {z : State} (s : State) (type : Nat) (pulse level : Bool) (ch rule : Nat)
    (hz : Kept z s) : Kept z (distaffLog s type pulse level ch rule) := by
  unfold distaffLog
  with_reducible repeat' first
    | assumption | simp only [kept_mk, kept_mk_cal] | apply State.wr_kept | apply State.bumpSat_kept | split

theorem writeRptr_kept {z : State} (s : State) (v : Nat) (hz : Kept z s) : Kept z (writeRptr s v) := by
  unfold writeRptr
  with_reducible repeat' first | assumption | apply State.wr_kept | split

theorem distaffArm_kept {z : State} (s : State) (n rule : Nat) (hz : Kept z s) : Kept z (distaffArm s n rule) := by
  unfold distaffArm
  with_reducible repeat' first | assumption | apply armBench_kept | apply distaffLog_kept | split

theorem liveArm_kept {z : State} (s : State) (n rule : Nat) (hz : Kept z s) : Kept z (liveArm s n rule) := by
  unfold liveArm
  with_reducible repeat' first | assumption | apply distaffLog_kept | apply distaffArm_kept | split

theorem distaffValues_kept {z : State} (s : State) (levels : BitVec 16) (hz : Kept z s) : Kept z (distaffValues s levels).2 := by
  unfold distaffValues
  with_reducible repeat' first
    | assumption | simp only [kept_mk, kept_mk_cal] | refine foldl_kept (fun _ _ _ => ?_) ?_
    | refine foldl_snd_kept (fun _ _ _ => ?_) ?_ | split

theorem distaffLevels_kept {z : State} (s : State) (mv : List Int) (hz : Kept z s) : Kept z (distaffLevels s mv).2 := by
  unfold distaffLevels
  with_reducible repeat' first
    | assumption | refine foldl_kept (fun _ _ _ => ?_) ?_ | refine foldl_snd_kept (fun _ _ _ => ?_) ?_ | apply State.compare_kept

theorem fireRule_kept {z : State} (s : State) (i : Nat) (rule : Word) (v : TickValue)
    (hz : Kept z s) : Kept z (fireRule s i rule v) := by
  unfold fireRule
  with_reducible repeat' first
    | assumption | simp only [kept_mk, kept_mk_cal] | apply State.wrFld_kept | apply State.bumpSat_kept | apply logPart_kept
    | apply latchAlert_kept | apply wakeFor_kept | apply distaffLog_kept | apply liveArm_kept | split

theorem distaffRules_kept {z : State} (s : State) (old : BitVec 16) (vs : List TickValue)
    (hz : Kept z s) : Kept z (distaffRules s old vs) := by
  unfold distaffRules
  with_reducible repeat' first
    | assumption | simp only [kept_mk, kept_mk_cal] | refine State.each_kept (fun _ _ _ => ?_) ?_ | apply wakeFor_kept
    | apply fireRule_kept | split

theorem aonTick_kept {z : State} (s : State) (mv : List Int) (hz : Kept z s) : Kept z (aonTick s mv) := by
  unfold aonTick
  dsimp only [Calendar.nextBt]
  repeat' first
    | with_reducible assumption
    | simp only [kept_mk, kept_mk_cal]
    | with_reducible apply calendarTick_kept
    | with_reducible apply usesRegs_kept
    | with_reducible apply distaffLevels_kept
    | with_reducible apply distaffValues_kept
    | with_reducible apply distaffRules_kept
    | split

theorem emptyBobbin_kept {z : State} (s : State) (n : Nat) (hz : Kept z s) : Kept z (emptyBobbin s n) := by
  unfold emptyBobbin
  with_reducible repeat' first | assumption | simp only [kept_mk, kept_mk_cal] | apply State.setCap_kept

theorem sleepLosses_kept {z : State} (s : State) (hz : Kept z s) : Kept z (sleepLosses s) := by
  unfold sleepLosses
  with_reducible repeat' first
    | assumption | simp only [kept_mk, kept_mk_cal] | refine State.each_kept (fun _ _ _ => ?_) ?_ | apply done_kept
    | apply emptyBobbin_kept | split

theorem finishWake_kept {z : State} (s : State) (hz : Kept z s) : Kept z (finishWake s) := by
  unfold finishWake
  with_reducible repeat' first
    | assumption | simp only [kept_mk, kept_mk_cal] | refine State.each_kept (fun _ _ _ => ?_) ?_ | apply logPart_kept
    | apply twKick_kept | apply iuPump_kept | apply attach_kept | apply resumeLink_kept | apply heldEntry_kept
    | apply distaffLog_kept | apply liveArm_kept | apply sleepLosses_kept | split

theorem fastReset_kept {z : State} (s : State) (cause : BitVec 8) (hz : Kept z s) : Kept z (fastReset s cause) :=
  ⟨hz.1, hz.2.1, fun c => by
    obtain ⟨h1, h2, _, _, h5, _, _, _, _, _, _, h12⟩ := hz.2.2.1 c
    unfold fastReset Canonical
    dsimp only
    exact ⟨Store.keep_wf _ _ _ h1, Store.keep_wf _ _ _ h2, rfl, rfl, Store.update_wf _ _ _ h5, rfl, rfl, rfl, rfl, rfl, rfl,
      Store.update_wf _ _ _ h12⟩, hz.2.2.2⟩

theorem partResetDue_kept {z : State} (s : State) (hz : Kept z s) : Kept z (partResetDue s) := by
  unfold partResetDue
  with_reducible repeat' first | assumption | simp only [kept_mk, kept_mk_cal] | apply fastReset_kept | split

theorem coldResetState_kept {z : State} (s : State) (hz : Kept z s) : Kept z (coldResetState s) := by
  have k := fastReset_kept s 1 hz
  exact ⟨k.1, k.2.1, fun c => by
    obtain ⟨_, _, h3, h4, _, h6, h7, h8, h9, h10, h11, h12⟩ := k.2.2.1 c
    exact ⟨rfl, rfl, h3, h4, rfl, h6, h7, h8, h9, h10, h11, h12⟩, fun _ =>
    (by refine ⟨?_, ?_, ?_, ?_, ?_, ?_, ?_, ?_, ?_⟩ <;> decide : Calendar.InRange {})⟩

/-! ### Startup -/

theorem setBoot_kept {z : State} (s : State) (f : Boot → Boot) (hz : Kept z s) : Kept z (setBoot s f) := by
  unfold setBoot
  with_reducible repeat' first | assumption | simp only [kept_mk, kept_mk_cal]

theorem startImage_kept {z : State} (s : State) (v : ImageView) (copyB : Bool) (hz : Kept z s) : Kept z (startImage s v copyB) := by
  unfold startImage
  with_reducible repeat' first | assumption | simp only [kept_mk, kept_mk_cal] | apply State.draw_kept | apply setBoot_kept | split

theorem enterRecovery_kept {z : State} (s : State) (hz : Kept z s) : Kept z (enterRecovery s) := by
  unfold enterRecovery
  with_reducible repeat' first | assumption | simp only [kept_mk, kept_mk_cal] | apply setBoot_kept | split

theorem tryPods_kept {z : State} (s : State) (hz : Kept z s) : Kept z (tryPods s) := by
  unfold tryPods
  with_reducible repeat' first | assumption | simp only [kept_mk, kept_mk_cal] | apply setBoot_kept | split

theorem beginRom_kept {z : State} (s : State) (hz : Kept z s) : Kept z (beginRom s) := by
  unfold beginRom
  with_reducible repeat' first | assumption | simp only [kept_mk, kept_mk_cal] | apply setBoot_kept

theorem romDue_kept {z : State} (s : State) (hz : Kept z s) : Kept z (romDue s) := by
  unfold romDue
  with_reducible repeat' first | assumption | apply beginRom_kept | split

theorem runBootRom_kept {z : State} (s : State) (a b : Option ImageView) (hz : Kept z s) : Kept z (runBootRom s a b) := by
  unfold runBootRom
  with_reducible repeat' first
    | assumption | simp only [kept_mk, kept_mk_cal] | apply setBoot_kept | apply startImage_kept | apply enterRecovery_kept
    | apply beginRom_kept | split

theorem setStall_kept {z : State} (s : State) (b : Bool) (hz : Kept z s) : Kept z (setStall s b) := by
  unfold setStall
  with_reducible repeat' first | assumption | simp only [kept_mk, kept_mk_cal]

theorem recoveryWrite_kept {z : State} (s : State) (offset : Nat) (data : List Byte)
    (hz : Kept z s) : Kept z (recoveryWrite s offset data) := by
  unfold recoveryWrite
  with_reducible repeat' first
    | assumption | simp only [kept_mk, kept_mk_cal] | refine foldl_kept (fun _ _ _ => ?_) ?_
    | refine foldl_snd_kept (fun _ _ _ => ?_) ?_ | apply setBoot_kept | apply setStall_kept | split

theorem recoveryBoot_kept {z : State} (s : State) (hz : Kept z s) : Kept z (recoveryBoot s) := by
  unfold recoveryBoot
  with_reducible repeat' first
    | assumption | simp only [kept_mk, kept_mk_cal] | apply dropPullup_kept | apply setBoot_kept | apply startImage_kept
    | apply setStall_kept | split

theorem recoveryStatus_kept {z : State} (s : State) (hz : Kept z s) : Kept z (recoveryStatus s) := by
  unfold recoveryStatus
  with_reducible repeat' first | assumption | simp only [kept_mk, kept_mk_cal] | apply setStall_kept | split

theorem applyLaneMode_kept {z : State} (s : State) (x : Nat) (hz : Kept z s) : Kept z (applyLaneMode s x) := by
  unfold applyLaneMode
  with_reducible repeat' first | assumption | simp only [kept_mk, kept_mk_cal] | apply State.setLane_kept | split

theorem loadLane_kept {z : State} (s : State) (x : Nat) (p : LaneProbe) (hz : Kept z s) : Kept z (loadLane s x p) := by
  unfold loadLane
  split
  · exact hz
  · split
    · exact hz
    · lift_lets
      intro g used modes sdr ddr l l2 d r
      have hr : Kept z r.2.2.1 := by
        dsimp only [r]
        split
        · exact hz
        · exact State.draw_kept s 32 hz
      clear_value r
      repeat' first
        | with_reducible assumption
        | (intro x; first
            | (have hx : Kept z x := by
                 dsimp only [x]
                 repeat' first
                   | with_reducible assumption
                   | with_reducible apply State.setLane_kept
                   | with_reducible apply setBoot_kept
                   | with_reducible apply applyLaneMode_kept
                   | split
               clear_value x)
            | clear_value x)
        | with_reducible apply State.setLane_kept
        | with_reducible apply setBoot_kept
        | with_reducible apply loseTable_kept
        | split

theorem sweepHanks_kept {z : State} (s : State) (hz : Kept z s) : Kept z (sweepHanks s) := by
  unfold sweepHanks
  with_reducible repeat' first
    | assumption | simp only [kept_mk, kept_mk_cal] | refine State.each_kept (fun _ _ _ => ?_) ?_ | apply freeHank_kept
    | apply freeDeadHanks_kept | split

theorem loadTables_kept {z : State} (s : State) (a b : LaneProbe) (hz : Kept z s) : Kept z (loadTables s a b) := by
  unfold loadTables
  with_reducible repeat' first
    | assumption | simp only [kept_mk, kept_mk_cal] | apply setBoot_kept | apply tryPods_kept | apply loadLane_kept
    | apply sweepHanks_kept | split

theorem lostPod_kept {z : State} (s : State) (p k : Nat) (hz : Kept z s) : Kept z (lostPod s p k) := by
  unfold lostPod
  with_reducible repeat' first
    | assumption | refine State.each_kept (fun _ _ _ => ?_) ?_ | apply State.bumpSat_kept | apply logTransfer_kept

theorem accessPod_kept {z : State} (s : State) (p : Nat) (r : PodRead) (rd : List Byte)
    (hz : Kept z s) : Kept z (accessPod s p r rd) := by
  unfold accessPod
  with_reducible repeat' first
    | assumption | simp only [kept_mk, kept_mk_cal] | apply State.bumpSat_kept | apply logTransfer_kept | apply lostPod_kept | split

theorem readPod_kept {z : State} (s : State) (p : Nat) (r : PodRead) (post : Bool)
    (hz : Kept z s) : Kept z (readPod s p r post) := by
  unfold readPod
  with_reducible repeat' first
    | assumption | simp only [kept_mk, kept_mk_cal] | apply State.setPod_kept | apply postEvent_kept | apply setBoot_kept
    | apply accessPod_kept | split

theorem discoverPods_kept {z : State} (s : State) (reads : List PodRead) (hz : Kept z s) : Kept z (discoverPods s reads) := by
  unfold discoverPods
  with_reducible repeat' first
    | assumption | simp only [kept_mk, kept_mk_cal] | refine State.each_kept (fun _ _ _ => ?_) ?_ | apply setBoot_kept
    | apply readPod_kept | split

theorem applyRetained_kept {z : State} (s : State) (r : Word) (hz : Kept z s) : Kept z (applyRetained s r) := by
  unfold applyRetained
  with_reducible repeat' first
    | assumption | simp only [kept_mk, kept_mk_cal] | apply State.setCap_kept | apply State.setLane_kept | apply retireQueue_kept
    | apply refreshFaulted_kept | split

theorem restoreSessions_kept {z : State} (s : State) (hz : Kept z s) : Kept z (restoreSessions s) := by
  unfold restoreSessions
  with_reducible repeat' first
    | assumption | simp only [kept_mk, kept_mk_cal] | refine State.each_kept (fun _ _ _ => ?_) ?_ | apply State.setSess_kept | split

theorem setEarly_kept {z : State} (s : State) (st : Stream) (hz : Kept z s) : Kept z (setEarly s st) := by
  unfold setEarly
  with_reducible repeat' first | assumption | simp only [kept_mk, kept_mk_cal] | apply State.setStream_kept

theorem becomeReady_kept {z : State} (s : State) (hz : Kept z s) : Kept z (becomeReady s) := by
  unfold becomeReady
  with_reducible repeat' first
    | assumption | simp only [kept_mk, kept_mk_cal] | refine State.each_kept (fun _ _ _ => ?_) ?_ | apply State.wr_kept
    | apply twKick_kept | apply iuPump_kept | apply updateCorr_kept | apply setBoot_kept | apply applyRetained_kept
    | apply restoreSessions_kept | apply setEarly_kept | split

theorem setCopy_kept {z : State} (s : State) (copyB : Bool) (v : ImageView) (hz : Kept z s) : Kept z (setCopy s copyB v) := by
  unfold setCopy
  with_reducible repeat' first | assumption | simp only [kept_mk, kept_mk_cal] | apply setBoot_kept | split

theorem spoilCopy_kept {z : State} (s : State) (copyB : Bool) (hz : Kept z s) : Kept z (spoilCopy s copyB) := by
  unfold spoilCopy
  with_reducible repeat' first | assumption | simp only [kept_mk, kept_mk_cal] | apply setBoot_kept | split

theorem bootFault_kept {z : State} (s : State) (hz : Kept z s) : Kept z (bootFault s).2 := by
  unfold bootFault
  with_reducible repeat' first | assumption | apply State.draw_kept | split

theorem writeImage_kept {z : State} (s : State) (g : Staging) (programOk verifyOk : Bool)
    (hz : Kept z s) : Kept z (writeImage s g programOk verifyOk).2.2 := by
  unfold writeImage
  with_reducible repeat' first
    | assumption | simp only [kept_mk, kept_mk_cal] | apply done_kept | apply setBoot_kept | apply setCopy_kept
    | apply spoilCopy_kept | apply bootFault_kept | split

theorem endCommit_kept {z : State} (s : State) (j : CommitJob) (st : Status) (detail : Nat)
    (hz : Kept z s) : Kept z (endCommit s j st detail) := by
  unfold endCommit
  with_reducible repeat' first | assumption | simp only [kept_mk, kept_mk_cal] | apply complete_kept

theorem commitStep_kept {z : State} (s : State) (hz : Kept z s) : Kept z (commitStep s) := by
  unfold commitStep
  with_reducible repeat' first
    | assumption | simp only [kept_mk, kept_mk_cal] | apply writeImage_kept | apply endCommit_kept | split

/-! ### Registers -/

theorem flipBit_kept {z : State} (s : State) (u : Upset) (hz : Kept z s) : Kept z (flipBit s u) := by
  unfold flipBit
  with_reducible repeat' first
    | assumption | simp only [kept_mk, kept_mk_cal] | apply State.setRegWord_kept | apply State.setActWord_kept | split

theorem busError_kept {z : State} (s : State) (p : Path) (addr cause : Nat) (write : Bool)
    (hz : Kept z s) : Kept z (busError s p addr cause write) := by
  unfold busError
  with_reducible repeat' first | assumption | simp only [kept_mk, kept_mk_cal] | apply State.bumpSat_kept

theorem logWrite_kept {z : State} (s : State) (p : Path) (addr : Nat) (data : Word)
    (hz : Kept z s) : Kept z (logWrite s p addr data) := by
  unfold logWrite
  with_reducible repeat' first | assumption | simp only [kept_mk, kept_mk_cal]

theorem recordWrite_kept {z : State} (s : State) (p : Path) (addr : Nat) (data : Word)
    (hz : Kept z s) : Kept z (recordWrite s p addr data) := by
  unfold recordWrite
  with_reducible repeat' first | assumption | simp only [kept_mk, kept_mk_cal] | apply logPart_kept | apply logBench_kept | split

theorem logAccess_kept {z : State} (s : State) (p : Path) (addr : Nat) (cause : Nat) (data : Option Word)
    (hz : Kept z s) : Kept z (logAccess s p addr cause data) := by
  unfold logAccess
  with_reducible repeat' first
    | assumption | simp only [kept_mk, kept_mk_cal] | apply logWrite_kept | apply recordWrite_kept | split

theorem setShadow_kept {z : State} (s : State) (p : Path) (l : List (Nat × Word)) (hz : Kept z s) : Kept z (setShadow s p l) := by
  unfold setShadow
  with_reducible repeat' first | assumption | simp only [kept_mk, kept_mk_cal] | apply State.setPath_kept

theorem collectWord_kept {z : State} (s : State) (p : Path) (q : Nat) (w : QWord) (had : Bool)
    (hz : Kept z s) : Kept z (collectWord s p q w had) := by
  unfold collectWord
  with_reducible repeat' first | assumption | apply State.setStream_kept | split

theorem readQueue_kept {z : State} (s : State) (p : Path) (r : Reg) (hz : Kept z s) : Kept z (readQueue s p r).2 := by
  unfold readQueue
  with_reducible repeat' first | assumption | apply deliver_kept | apply setShadow_kept | apply collectWord_kept

theorem readAlert_kept {z : State} (s : State) (p : Path) (r : Reg) (hz : Kept z s) : Kept z (readAlert s p r).2 := by
  unfold readAlert
  with_reducible repeat' first | assumption | apply removedAlerts_kept | apply setShadow_kept

theorem readReg_kept {z : State} (s : State) (p : Path) (r : Reg) (hz : Kept z s) : Kept z (readReg s p r).2 := by
  unfold readReg
  with_reducible repeat' first
    | assumption | simp only [kept_mk, kept_mk_cal] | apply checkParity_kept | apply setShadow_kept | apply readQueue_kept
    | apply readAlert_kept | split

theorem busRead_kept {z : State} (s : State) (p : Path) (addr : Nat) (narrow : Bool)
    (hz : Kept z s) : Kept z (busRead s p addr narrow).2.2 := by
  unfold busRead
  with_reducible repeat' first
    | assumption | simp only [kept_mk, kept_mk_cal] | apply State.draw_kept | apply checkParity_kept | apply busError_kept
    | apply logAccess_kept | apply readReg_kept | split

theorem holdLo_kept {z : State} (s : State) (p : Path) (a : Nat) (d : Word) (hz : Kept z s) : Kept z (holdLo s p a d) := by
  unfold holdLo
  with_reducible repeat' first | assumption | simp only [kept_mk, kept_mk_cal] | apply State.setPath_kept

theorem takeLo_kept {z : State} (s : State) (p : Path) (a : Nat) (hz : Kept z s) : Kept z (takeLo s p a).2 := by
  unfold takeLo
  with_reducible repeat' first | assumption | simp only [kept_mk, kept_mk_cal] | apply State.setPath_kept | split

theorem writeHigh_kept {z : State} (s : State) (p : Path) (r : Reg) (d : Word) (t : Tag)
    (hz : Kept z s) : Kept z (writeHigh s p r d t) := by
  unfold writeHigh
  with_reducible repeat' first
    | assumption | simp only [kept_mk, kept_mk_cal] | apply State.draw_kept | apply pushHost_kept | apply takeLo_kept | split

theorem goTest_kept {z : State} (s : State) (hz : Kept z s) : Kept z (goTest s) := by
  unfold goTest
  with_reducible repeat' first | assumption | simp only [kept_mk, kept_mk_cal] | apply requestTest_kept | split

theorem writeGo_kept {z : State} (s : State) (r : Reg) (d : Word) (hz : Kept z s) : Kept z (writeGo s r d) := by
  unfold writeGo
  with_reducible repeat' first | assumption | simp only [kept_mk, kept_mk_cal] | apply iuPump_kept | apply goTest_kept | split

theorem writeKey_kept {z : State} (s : State) (p : Path) (r : Reg) (d : Word) (hz : Kept z s) : Kept z (writeKey s p r d) := by
  unfold writeKey
  with_reducible repeat' first
    | assumption | simp only [kept_mk, kept_mk_cal] | apply flushQueue_kept | apply requestCommit_kept | apply mark_kept
    | apply flushStream_kept | apply requestEntry_kept | apply holdLo_kept | apply writeHigh_kept | split

theorem writePods_kept {z : State} (s : State) (n pods : Nat) (hz : Kept z s) : Kept z (writePods s n pods) := by
  unfold writePods
  with_reducible repeat' first | assumption | apply State.wrFld_kept | apply settleBench_kept

theorem pumpAssign_kept {z : State} (s : State) (hz : Kept z s) : Kept z (pumpAssign s) := by
  unfold pumpAssign
  with_reducible repeat' first
    | assumption | simp only [kept_mk, kept_mk_cal] | refine State.each_kept (fun _ _ _ => ?_) ?_ | apply respond_kept
    | apply done_kept | apply writePods_kept | split

theorem settleWrite.applyIuIdle_kept {z : State} (s : State) (hz : Kept z s) : Kept z (settleWrite.applyIuIdle s) := by
  unfold settleWrite.applyIuIdle
  split
  · exact applyIu_kept _ hz
  · exact hz

theorem settleWrite.armWaiting_kept {z : State} (s : State) (hz : Kept z s) : Kept z (settleWrite.armWaiting s) := by
  unfold settleWrite.armWaiting
  split
  · exact hz
  · exact iuBegin_kept _ hz

theorem settleWrite_kept {z : State} (s : State) (r : Reg) (hz : Kept z s) : Kept z (settleWrite s r) := by
  unfold settleWrite
  with_reducible repeat' first
    | assumption | simp only [kept_mk, kept_mk_cal] | refine State.each_kept (fun _ _ _ => ?_) ?_ | apply twKick_kept
    | apply applyReg_kept | apply settleBench_kept | apply settleRally_kept | apply settlePly_kept | apply applyIu_kept
    | apply sweepOrphans_kept | apply iuPump_kept | apply iuBegin_kept | apply applyLaneMode_kept | apply pumpAssign_kept
    | apply settleWrite.applyIuIdle_kept | apply settleWrite.armWaiting_kept | split

theorem storeWord_kept {z : State} (s : State) (p : Path) (r : Reg) (d : Word) (hz : Kept z s) : Kept z (storeWord s p r d) := by
  unfold storeWord
  with_reducible repeat' first
    | assumption | simp only [kept_mk, kept_mk_cal] | apply State.setRegWord_kept | apply writeCounter_kept | apply writeRptr_kept
    | apply holdLo_kept | apply takeLo_kept | split

theorem writeNormal_kept {z : State} (s : State) (p : Path) (r : Reg) (d : Word)
    (hz : Kept z s) : Kept z (writeNormal s p r d) := by
  unfold writeNormal
  with_reducible repeat' first
    | assumption | apply writeGo_kept | apply writeKey_kept | apply settleWrite_kept | apply storeWord_kept

theorem writeAlias_kept {z : State} (s : State) (r : Reg) (view : Nat) (d : Word)
    (hz : Kept z s) : Kept z (writeAlias s r view d) := by
  unfold writeAlias
  with_reducible repeat' first
    | assumption | apply State.setRegWord_kept | apply checkParity_kept | apply writeRptr_kept | apply writeGo_kept
    | apply settleWrite_kept | split

theorem busWrite_kept {z : State} (s : State) (p : Path) (addr : Nat) (d : Word) (narrow : Bool)
    (hz : Kept z s) : Kept z (busWrite s p addr d narrow).2 := by
  unfold busWrite
  with_reducible repeat' first
    | assumption | simp only [kept_mk, kept_mk_cal] | apply busError_kept | apply logAccess_kept | apply writeNormal_kept
    | apply writeAlias_kept | split

theorem accessRead_kept {z : State} (s : State) (p : Path) (addr : Nat) (hz : Kept z s) : Kept z (accessRead s p addr) := by
  unfold accessRead
  with_reducible repeat' first
    | assumption | simp only [kept_mk, kept_mk_cal] | apply State.setPath_kept | apply busRead_kept | split

theorem accessWrite_kept {z : State} (s : State) (p : Path) (addr : Nat) (d : Word)
    (hz : Kept z s) : Kept z (accessWrite s p addr d) := by
  unfold accessWrite
  with_reducible repeat' first
    | assumption | simp only [kept_mk, kept_mk_cal] | apply State.setPath_kept | apply busWrite_kept | split

theorem windowWrites_kept {z : State} (s : State) (addr : Nat) (k0 : List Word)
    (hz : Kept z s) : Kept z (windowWrites s addr k0).2 := by
  induction k0 generalizing s addr with
  | nil => exact hz
  | cons a t ih =>
    unfold windowWrites
    dsimp only
    with_reducible repeat' first
      | assumption | simp only [kept_mk, kept_mk_cal] | apply busWrite_kept | with_reducible apply ih | split | intro _

theorem windowDone_kept {z : State} (s : State) (words : List Word) (error : Bool)
    (hz : Kept z s) : Kept z (windowDone s words error) := by
  unfold windowDone
  with_reducible repeat' first
    | assumption | simp only [kept_mk, kept_mk_cal] | apply State.setPath_kept | apply setStall_kept | split

theorem windowWrite_kept {z : State} (s : State) (addr : Nat) (ws : List Word)
    (hz : Kept z s) : Kept z (windowWrite s addr ws) := by
  unfold windowWrite
  dsimp only
  with_reducible repeat' first | assumption | apply windowWrites_kept | apply windowDone_kept | split | intro _

theorem resumeRequest_kept {z : State} (s : State) (hz : Kept z s) : Kept z (resumeRequest s) := by
  unfold resumeRequest
  with_reducible repeat' first | assumption | simp only [kept_mk, kept_mk_cal] | apply windowWrite_kept | split

/-! ### Session -/

theorem startAccount_kept {z : State} (s : State) (n : Nat) (hz : Kept z s) : Kept z (startAccount s n) := by
  unfold startAccount
  with_reducible repeat' first
    | assumption | simp only [kept_mk, kept_mk_cal] | refine State.each_kept (fun _ _ _ => ?_) ?_ | apply State.wr_kept

theorem closeAccount_kept {z : State} (s : State) (n : Nat) (hz : Kept z s) : Kept z (closeAccount s n) := by
  unfold closeAccount
  with_reducible repeat' first | assumption | simp only [kept_mk, kept_mk_cal] | apply startAccount_kept

theorem frameBacklog_kept {z : State} (s : State) (n : Nat) (k0 : Nat) (hz : Kept z s) : Kept z (frameBacklog s n k0) := by
  induction k0 generalizing s n with
  | zero => exact hz
  | succ k ih =>
    unfold frameBacklog
    with_reducible repeat' first
      | assumption | simp only [kept_mk, kept_mk_cal] | apply State.setSess_kept | apply sendFrames_kept | with_reducible apply ih
      | split

theorem drainBacklog_kept {z : State} (s : State) (n : Nat) (k0 : Nat) (hz : Kept z s) : Kept z (drainBacklog s n k0) := by
  induction k0 generalizing s n with
  | zero => exact hz
  | succ k ih =>
    unfold drainBacklog
    with_reducible repeat' first
      | assumption | simp only [kept_mk, kept_mk_cal] | apply State.setSess_kept | apply pushWord_kept | apply mark_kept
      | with_reducible apply ih | split

theorem writeBacklog_kept {z : State} (s : State) (n : Nat) (hz : Kept z s) : Kept z (writeBacklog s n) := by
  unfold writeBacklog
  dsimp only
  with_reducible repeat' first | assumption | apply frameBacklog_kept | apply drainBacklog_kept | split | intro _

theorem writeAdminFrame_kept {z : State} (s : State) (hz : Kept z s) : Kept z (writeAdminFrame s) := by
  unfold writeAdminFrame
  with_reducible repeat' first
    | assumption | simp only [kept_mk, kept_mk_cal] | apply State.setStream_kept | apply sendFrames_kept | split

theorem openSession_kept {z : State} (s : State) (n : Nat) (via : Transport) (client : BitVec 16)
    (hz : Kept z s) : Kept z (openSession s n via client) := by
  unfold openSession
  with_reducible repeat' first
    | assumption | simp only [kept_mk, kept_mk_cal] | apply State.wr_kept | apply State.setSess_kept | apply State.setCap_kept
    | apply State.setCmp_kept | apply writeRecord_kept | apply startAccount_kept | split

theorem resumeSession_kept {z : State} (s : State) (n : Nat) (via : Transport) (client : BitVec 16)
    (hz : Kept z s) : Kept z (resumeSession s n via client) := by
  unfold resumeSession
  with_reducible repeat' first | assumption | simp only [kept_mk, kept_mk_cal] | apply State.setSess_kept

theorem dropJobs_kept {z : State} (s : State) (n : Nat) (hz : Kept z s) : Kept z (dropJobs s n) := by
  unfold dropJobs
  with_reducible repeat' first
    | assumption | refine State.each_kept (fun _ _ _ => ?_) ?_ | apply dropJob_kept | apply iuAbandon_kept

theorem discardCapture_kept {z : State} (s : State) (n : Nat) (hz : Kept z s) : Kept z (discardCapture s n) := by
  unfold discardCapture
  with_reducible repeat' first | assumption | simp only [kept_mk, kept_mk_cal] | apply State.setCap_kept | apply runDue_kept | split

theorem forgetStream_kept {z : State} (s : State) (n : Nat) (hz : Kept z s) : Kept z (forgetStream s n) := by
  unfold forgetStream
  with_reducible repeat' first | assumption | simp only [kept_mk, kept_mk_cal] | apply State.setCmp_kept | split

theorem startReset_kept {z : State} (s : State) (n : Nat) (close : Bool) (by_ : Option (BitVec 16 × Cmd))
    (hz : Kept z s) : Kept z (startReset s n close by_) := by
  unfold startReset
  with_reducible repeat' first
    | assumption | simp only [kept_mk, kept_mk_cal] | apply State.setSess_kept | apply State.setEndpoint_kept
    | apply State.setStream_kept | apply flushBench_kept | apply takeCommand_kept | apply stopSequencer_kept
    | apply discardUndurable_kept | apply sweepOrphans_kept | apply iuPump_kept | apply dropJobs_kept | apply discardCapture_kept
    | apply forgetStream_kept | split

theorem resetWindow_kept {z : State} (s : State) (n : Nat) (hz : Kept z s) : Kept z (resetWindow s n) := by
  unfold resetWindow
  with_reducible repeat' first
    | assumption | simp only [kept_mk, kept_mk_cal] | apply State.setSess_kept | apply restoreWindow_kept | split

theorem resetResponses_kept {z : State} (s : State) (n : Nat) (r : ResetJob) (hz : Kept z s) : Kept z (resetResponses s n r) := by
  unfold resetResponses
  with_reducible repeat' first
    | assumption | simp only [kept_mk, kept_mk_cal] | apply State.setSeqr_kept | apply respond_kept | apply done_kept | split

theorem lateResponses_kept {z : State} (s : State) (n : Nat) (late : List (BitVec 16 × Cmd))
    (hz : Kept z s) : Kept z (lateResponses s n late) := by
  unfold lateResponses
  with_reducible repeat' first
    | assumption | simp only [kept_mk, kept_mk_cal] | refine State.each_kept (fun _ _ _ => ?_) ?_ | apply State.setSess_kept
    | apply postOpenBench_kept | apply respond_kept

theorem releaseSession_kept {z : State} (s : State) (n : Nat) (hz : Kept z s) : Kept z (releaseSession s n) := by
  unfold releaseSession
  with_reducible repeat' first
    | assumption | apply State.setSess_kept | apply State.setCap_kept | apply State.setCmp_kept | apply freeDeadHanks_kept

theorem finishReset_kept {z : State} (s : State) (n : Nat) (hz : Kept z s) : Kept z (finishReset s n) := by
  unfold finishReset
  with_reducible repeat' first
    | assumption | simp only [kept_mk, kept_mk_cal] | apply State.setSess_kept | apply State.setSeqr_kept
    | apply State.setBState_kept | apply postEvent_kept | apply closeHank_kept | apply closeAccount_kept | apply frameBacklog_kept
    | apply resetWindow_kept | apply resetResponses_kept | apply lateResponses_kept | apply releaseSession_kept | split

end Sys2Proof.Machine
end

