-- ==== Sys2Proof/Laws/KeptCommands.lean ====
section
/-! SUPPORT. Every operation keeps what `Kept` says, one lemma for each: the rows of groups 0x01 to 0x07 and of administration. -/

namespace Sys2Proof.Machine

/-! ### SessionCommands -/

theorem meanBenchOpen_kept {z : State} (c : Cmd) (s : State) (r : Bool) (hz : Kept z s) : Kept z ((meanBenchOpen c).run s r) := by
  unfold meanBenchOpen
  dsimp only
  with_reducible repeat' first | assumption | apply done_kept | apply openSession_kept | apply resumeSession_kept | split

theorem cmdBenchOpen_kept {z : State} (c : Cmd) (s : State) (hz : Kept z s) : Kept z (cmdBenchOpen c s) :=
  mailbox_kept _ _ _ _ (fun _ h => h) (fun _ h => h) (fun s r h => by with_reducible apply meanBenchOpen_kept; exact h) hz

theorem execBenchOpen_kept {z t : State} (c : Cmd) (s : State) (hz : Kept z s) (h : execBenchOpen c s = .next t) : Kept z t := by
  unfold execBenchOpen at h
  injection h with h
  subst h
  with_reducible repeat' first | assumption | apply cmdBenchOpen_kept

theorem meanBenchClose_kept {z : State} (c : Cmd) (s : State) (r : Bool) (hz : Kept z s) : Kept z ((meanBenchClose c).run s r) := by
  unfold meanBenchClose
  dsimp only
  with_reducible repeat' first | assumption | apply startReset_kept

theorem cmdBenchClose_kept {z : State} (c : Cmd) (s : State) (hz : Kept z s) : Kept z (cmdBenchClose c s) :=
  mailbox_kept _ _ _ _ (fun _ h => h) (fun _ h => h) (fun s r h => by with_reducible apply meanBenchClose_kept; exact h) hz

theorem execBenchClose_kept {z t : State} (c : Cmd) (s : State) (hz : Kept z s) (h : execBenchClose c s = .next t) : Kept z t := by
  unfold execBenchClose at h
  injection h with h
  subst h
  with_reducible repeat' first | assumption | apply cmdBenchClose_kept

theorem meanBenchReset_kept {z : State} (c : Cmd) (s : State) (r : Bool) (hz : Kept z s) : Kept z ((meanBenchReset c).run s r) := by
  unfold meanBenchReset
  dsimp only
  with_reducible repeat' first | assumption | apply startReset_kept

theorem cmdBenchReset_kept {z : State} (c : Cmd) (s : State) (hz : Kept z s) : Kept z (cmdBenchReset c s) :=
  mailbox_kept _ _ _ _ (fun _ h => h) (fun _ h => h) (fun s r h => by with_reducible apply meanBenchReset_kept; exact h) hz

theorem execBenchReset_kept {z t : State} (c : Cmd) (s : State) (hz : Kept z s) (h : execBenchReset c s = .next t) : Kept z t := by
  unfold execBenchReset at h
  injection h with h
  subst h
  with_reducible repeat' first | assumption | apply cmdBenchReset_kept

theorem execBenchResetComplete_kept {z t : State} (n : Fin 8) (s : State)
    (hz : Kept z s) (h : execBenchResetComplete n s = .next t) : Kept z t := by
  unfold execBenchResetComplete at h
  injection h with h
  subst h
  with_reducible repeat' first | assumption | apply finishReset_kept

theorem meanBenchStatus_kept {z : State} (c : Cmd) (s : State) (r : Bool)
    (hz : Kept z s) : Kept z ((meanBenchStatus c).run s r) := by
  unfold meanBenchStatus
  dsimp only
  with_reducible repeat' first | assumption | apply done_kept

theorem cmdBenchStatus_kept {z : State} (c : Cmd) (s : State) (hz : Kept z s) : Kept z (cmdBenchStatus c s) :=
  mailbox_kept _ _ _ _ (fun _ h => h) (fun _ h => h) (fun s r h => by with_reducible apply meanBenchStatus_kept; exact h) hz

theorem execBenchStatus_kept {z t : State} (c : Cmd) (s : State)
    (hz : Kept z s) (h : execBenchStatus c s = .next t) : Kept z t := by
  unfold execBenchStatus at h
  injection h with h
  subst h
  with_reducible repeat' first | assumption | apply cmdBenchStatus_kept

theorem meanCapsQuery_kept {z : State} (c : Cmd) (s : State) (r : Bool) (hz : Kept z s) : Kept z ((meanCapsQuery c).run s r) := by
  unfold meanCapsQuery
  dsimp only
  with_reducible repeat' first | assumption | apply done_kept

theorem cmdCapsQuery_kept {z : State} (c : Cmd) (s : State) (hz : Kept z s) : Kept z (cmdCapsQuery c s) :=
  mailbox_kept _ _ _ _ (fun _ h => h) (fun _ h => h) (fun s r h => by with_reducible apply meanCapsQuery_kept; exact h) hz

theorem execCapsQuery_kept {z t : State} (c : Cmd) (s : State) (hz : Kept z s) (h : execCapsQuery c s = .next t) : Kept z t := by
  unfold execCapsQuery at h
  injection h with h
  subst h
  with_reducible repeat' first | assumption | apply cmdCapsQuery_kept

theorem meanAccountsQuery_kept {z : State} (c : Cmd) (s : State) (r : Bool)
    (hz : Kept z s) : Kept z ((meanAccountsQuery c).run s r) := by
  unfold meanAccountsQuery
  dsimp only
  with_reducible repeat' first | assumption | apply done_kept | apply closeAccount_kept | split

theorem cmdAccountsQuery_kept {z : State} (c : Cmd) (s : State) (hz : Kept z s) : Kept z (cmdAccountsQuery c s) :=
  mailbox_kept _ _ _ _ (fun _ h => h) (fun _ h => h) (fun s r h => by with_reducible apply meanAccountsQuery_kept; exact h) hz

theorem execAccountsQuery_kept {z t : State} (c : Cmd) (s : State)
    (hz : Kept z s) (h : execAccountsQuery c s = .next t) : Kept z t := by
  unfold execAccountsQuery at h
  injection h with h
  subst h
  with_reducible repeat' first | assumption | apply cmdAccountsQuery_kept

theorem meanBenchControl_kept {z : State} (c : Cmd) (s : State) (r : Bool)
    (hz : Kept z s) : Kept z ((meanBenchControl c).run s r) := by
  unfold meanBenchControl
  dsimp only
  with_reducible repeat' first | assumption | apply State.wrFld_kept | apply done_kept | apply startReset_kept | split

theorem cmdBenchControl_kept {z : State} (c : Cmd) (s : State) (hz : Kept z s) : Kept z (cmdBenchControl c s) :=
  mailbox_kept _ _ _ _ (fun _ h => h) (fun _ h => h) (fun s r h => by with_reducible apply meanBenchControl_kept; exact h) hz

theorem execBenchControlEnable_kept {z t : State} (c : Cmd) (s : State)
    (hz : Kept z s) (h : execBenchControlEnable c s = .next t) : Kept z t := by
  unfold execBenchControlEnable at h
  injection h with h
  subst h
  with_reducible repeat' first | assumption | apply cmdBenchControl_kept

theorem execBenchControlReset_kept {z t : State} (c : Cmd) (s : State)
    (hz : Kept z s) (h : execBenchControlReset c s = .next t) : Kept z t := by
  unfold execBenchControlReset at h
  injection h with h
  subst h
  with_reducible repeat' first | assumption | apply cmdBenchControl_kept

theorem execBenchControlClose_kept {z t : State} (c : Cmd) (s : State)
    (hz : Kept z s) (h : execBenchControlClose c s = .next t) : Kept z t := by
  unfold execBenchControlClose at h
  injection h with h
  subst h
  with_reducible repeat' first | assumption | apply cmdBenchControl_kept

theorem meanPodAssign_kept {z : State} (c : Cmd) (s : State) (r : Bool) (hz : Kept z s) : Kept z ((meanPodAssign c).run s r) := by
  unfold meanPodAssign
  dsimp only
  with_reducible repeat' first | assumption | simp only [kept_mk, kept_mk_cal] | apply pumpAssign_kept

theorem cmdPodAssign_kept {z : State} (c : Cmd) (s : State) (hz : Kept z s) : Kept z (cmdPodAssign c s) :=
  mailbox_kept _ _ _ _ (fun _ h => h) (fun _ h => h) (fun s r h => by with_reducible apply meanPodAssign_kept; exact h) hz

theorem execPodAssign_kept {z t : State} (c : Cmd) (s : State) (hz : Kept z s) (h : execPodAssign c s = .next t) : Kept z t := by
  unfold execPodAssign at h
  injection h with h
  subst h
  with_reducible repeat' first | assumption | apply cmdPodAssign_kept

theorem settleRallyAll_kept {z : State} (s : State) (hz : Kept z s) : Kept z (settleRallyAll s) := by
  unfold settleRallyAll
  with_reducible repeat' first | assumption | apply applyRally_kept | apply sweepOrphans_kept | split

theorem meanPlyMembership_kept {z : State} (c : Cmd) (s : State) (r : Bool)
    (hz : Kept z s) : Kept z ((meanPlyMembership c).run s r) := by
  unfold meanPlyMembership
  dsimp only
  with_reducible repeat' first
    | assumption | refine State.each_kept (fun _ _ _ => ?_) ?_ | apply State.wrFld_kept | apply done_kept
    | apply settleRallyAll_kept

theorem cmdPlyMembership_kept {z : State} (c : Cmd) (s : State) (hz : Kept z s) : Kept z (cmdPlyMembership c s) :=
  mailbox_kept _ _ _ _ (fun _ h => h) (fun _ h => h) (fun s r h => by with_reducible apply meanPlyMembership_kept; exact h) hz

theorem execPlyMembership_kept {z t : State} (c : Cmd) (s : State)
    (hz : Kept z s) (h : execPlyMembership c s = .next t) : Kept z t := by
  unfold execPlyMembership at h
  injection h with h
  subst h
  with_reducible repeat' first | assumption | apply cmdPlyMembership_kept

/-! ### AdminCommands -/

theorem lockAdmin_kept {z : State} (s : State) (hz : Kept z s) : Kept z (lockAdmin s) := by
  unfold lockAdmin
  with_reducible repeat' first | assumption | simp only [kept_mk, kept_mk_cal] | split

theorem meanAdminOpen_kept {z : State} (c : Cmd) (s : State) (r : Bool) (hz : Kept z s) : Kept z ((meanAdminOpen c).run s r) := by
  unfold meanAdminOpen
  dsimp only
  with_reducible repeat' first | assumption | simp only [kept_mk, kept_mk_cal] | apply done_kept | apply lockAdmin_kept

theorem cmdAdminOpen_kept {z : State} (c : Cmd) (s : State) (hz : Kept z s) : Kept z (cmdAdminOpen c s) :=
  mailbox_kept _ _ _ _ (fun s h => lockAdmin_kept s h) (fun _ h => h) (fun s r h => meanAdminOpen_kept c s r h) hz

theorem execAdminOpen_kept {z t : State} (c : Cmd) (s : State) (hz : Kept z s) (h : execAdminOpen c s = .next t) : Kept z t := by
  unfold execAdminOpen at h
  injection h with h
  subst h
  with_reducible repeat' first | assumption | apply cmdAdminOpen_kept

theorem meanAdminClose_kept {z : State} (c : Cmd) (s : State) (r : Bool) (hz : Kept z s) : Kept z ((meanAdminClose c).run s r) := by
  unfold meanAdminClose
  dsimp only
  with_reducible repeat' first | assumption | apply done_kept | apply endAdmin_kept

theorem cmdAdminClose_kept {z : State} (c : Cmd) (s : State) (hz : Kept z s) : Kept z (cmdAdminClose c s) :=
  mailbox_kept _ _ _ _ (fun _ h => h) (fun _ h => h) (fun s r h => by with_reducible apply meanAdminClose_kept; exact h) hz

theorem execAdminClose_kept {z t : State} (c : Cmd) (s : State) (hz : Kept z s) (h : execAdminClose c s = .next t) : Kept z t := by
  unfold execAdminClose at h
  injection h with h
  subst h
  with_reducible repeat' first | assumption | apply cmdAdminClose_kept

theorem execAdminSessionTimeout_kept {z t : State} (s : State)
    (hz : Kept z s) (h : execAdminSessionTimeout s = .next t) : Kept z t := by
  unfold execAdminSessionTimeout at h
  injection h with h
  subst h
  with_reducible repeat' first | assumption | apply endAdmin_kept | split

theorem meanSetCredential_kept {z : State} (c : Cmd) (s : State) (r : Bool)
    (hz : Kept z s) : Kept z ((meanSetCredential c).run s r) := by
  unfold meanSetCredential
  dsimp only
  with_reducible repeat' first
    | assumption | simp only [kept_mk, kept_mk_cal] | apply respond_kept | apply done_kept | apply writeRecord_kept | split

theorem cmdSetCredential_kept {z : State} (c : Cmd) (s : State) (hz : Kept z s) : Kept z (cmdSetCredential c s) :=
  mailbox_kept _ _ _ _ (fun _ h => h) (fun _ h => h) (fun s r h => by with_reducible apply meanSetCredential_kept; exact h) hz

theorem execSetCredential_kept {z t : State} (c : Cmd) (s : State)
    (hz : Kept z s) (h : execSetCredential c s = .next t) : Kept z t := by
  unfold execSetCredential at h
  injection h with h
  subst h
  with_reducible repeat' first | assumption | apply cmdSetCredential_kept

theorem execSetCredentialClear_kept {z t : State} (c : Cmd) (s : State)
    (hz : Kept z s) (h : execSetCredentialClear c s = .next t) : Kept z t := by
  unfold execSetCredentialClear at h
  injection h with h
  subst h
  with_reducible repeat' first | assumption | apply cmdSetCredential_kept

theorem setOpenMode_kept {z : State} (s : State) (on : Bool) (hz : Kept z s) : Kept z (setOpenMode s on) := by
  unfold setOpenMode
  with_reducible repeat' first | assumption | simp only [kept_mk, kept_mk_cal] | apply postOpenBench_kept | split

theorem meanOpenBenchEnter_kept {z : State} (c : Cmd) (s : State) (r : Bool)
    (hz : Kept z s) : Kept z ((meanOpenBenchEnter c).run s r) := by
  unfold meanOpenBenchEnter
  dsimp only
  with_reducible repeat' first | assumption | apply done_kept | apply setOpenMode_kept

theorem cmdOpenBenchEnter_kept {z : State} (c : Cmd) (s : State) (hz : Kept z s) : Kept z (cmdOpenBenchEnter c s) :=
  mailbox_kept _ _ _ _ (fun _ h => h) (fun _ h => h) (fun s r h => by with_reducible apply meanOpenBenchEnter_kept; exact h) hz

theorem execOpenBenchEnter_kept {z t : State} (c : Cmd) (s : State)
    (hz : Kept z s) (h : execOpenBenchEnter c s = .next t) : Kept z t := by
  unfold execOpenBenchEnter at h
  injection h with h
  subst h
  with_reducible repeat' first | assumption | apply cmdOpenBenchEnter_kept

theorem meanOpenBenchLeave_kept {z : State} (c : Cmd) (s : State) (r : Bool)
    (hz : Kept z s) : Kept z ((meanOpenBenchLeave c).run s r) := by
  unfold meanOpenBenchLeave
  dsimp only
  with_reducible repeat' first | assumption | apply done_kept | apply setOpenMode_kept

theorem cmdOpenBenchLeave_kept {z : State} (c : Cmd) (s : State) (hz : Kept z s) : Kept z (cmdOpenBenchLeave c s) :=
  mailbox_kept _ _ _ _ (fun _ h => h) (fun _ h => h) (fun s r h => by with_reducible apply meanOpenBenchLeave_kept; exact h) hz

theorem execOpenBenchLeave_kept {z t : State} (c : Cmd) (s : State)
    (hz : Kept z s) (h : execOpenBenchLeave c s = .next t) : Kept z t := by
  unfold execOpenBenchLeave at h
  injection h with h
  subst h
  with_reducible repeat' first | assumption | apply cmdOpenBenchLeave_kept

theorem meanRegLogRead_kept {z : State} (c : Cmd) (s : State) (r : Bool) (hz : Kept z s) : Kept z ((meanRegLogRead c).run s r) := by
  unfold meanRegLogRead
  dsimp only
  with_reducible repeat' first | assumption | apply done_kept

theorem cmdRegLogRead_kept {z : State} (c : Cmd) (s : State) (hz : Kept z s) : Kept z (cmdRegLogRead c s) :=
  mailbox_kept _ _ _ _ (fun _ h => h) (fun _ h => h) (fun s r h => by with_reducible apply meanRegLogRead_kept; exact h) hz

theorem execRegLogRead_kept {z t : State} (c : Cmd) (s : State) (hz : Kept z s) (h : execRegLogRead c s = .next t) : Kept z t := by
  unfold execRegLogRead at h
  injection h with h
  subst h
  with_reducible repeat' first | assumption | apply cmdRegLogRead_kept

theorem readMany_kept {z : State} (s : State) (k0 : List Nat) (hz : Kept z s) : Kept z (readMany s k0).2.2 := by
  induction k0 generalizing s with
  | nil => exact hz
  | cons a t ih =>
    unfold readMany
    dsimp only
    with_reducible repeat' first | assumption | apply busRead_kept | with_reducible apply ih | split | intro _

theorem meanRegRead_kept {z : State} (c : Cmd) (s : State) (r : Bool) (hz : Kept z s) : Kept z ((meanRegRead c).run s r) := by
  unfold meanRegRead
  dsimp only
  with_reducible repeat' first | assumption | apply respond_kept | apply done_kept | apply readMany_kept | split

theorem cmdRegRead_kept {z : State} (c : Cmd) (s : State) (hz : Kept z s) : Kept z (cmdRegRead c s) :=
  mailbox_kept _ _ _ _ (fun _ h => h) (fun _ h => h) (fun s r h => by with_reducible apply meanRegRead_kept; exact h) hz

theorem execRegRead_kept {z t : State} (c : Cmd) (s : State) (hz : Kept z s) (h : execRegRead c s = .next t) : Kept z t := by
  unfold execRegRead at h
  injection h with h
  subst h
  with_reducible repeat' first | assumption | apply cmdRegRead_kept

theorem meanRegWrite_kept {z : State} (c : Cmd) (s : State) (r : Bool) (hz : Kept z s) : Kept z ((meanRegWrite c).run s r) := by
  unfold meanRegWrite
  dsimp only
  with_reducible repeat' first
    | assumption | apply respond_kept | apply done_kept | apply logWrite_kept | apply busWrite_kept | split

theorem cmdRegWrite_kept {z : State} (c : Cmd) (s : State) (hz : Kept z s) : Kept z (cmdRegWrite c s) :=
  mailbox_kept _ _ _ _ (fun _ h => h) (fun _ h => h) (fun s r h => by with_reducible apply meanRegWrite_kept; exact h) hz

theorem execRegWrite_kept {z t : State} (c : Cmd) (s : State) (hz : Kept z s) (h : execRegWrite c s = .next t) : Kept z t := by
  unfold execRegWrite at h
  injection h with h
  subst h
  with_reducible repeat' first | assumption | apply cmdRegWrite_kept

theorem meanFwLoadBegin_kept {z : State} (c : Cmd) (s : State) (r : Bool)
    (hz : Kept z s) : Kept z ((meanFwLoadBegin c).run s r) := by
  unfold meanFwLoadBegin
  dsimp only
  with_reducible repeat' first | assumption | simp only [kept_mk, kept_mk_cal] | apply done_kept

theorem cmdFwLoadBegin_kept {z : State} (c : Cmd) (s : State) (hz : Kept z s) : Kept z (cmdFwLoadBegin c s) :=
  mailbox_kept _ _ _ _ (fun _ h => h) (fun _ h => h) (fun s r h => by with_reducible apply meanFwLoadBegin_kept; exact h) hz

theorem execFwLoadBegin_kept {z t : State} (c : Cmd) (s : State)
    (hz : Kept z s) (h : execFwLoadBegin c s = .next t) : Kept z t := by
  unfold execFwLoadBegin at h
  injection h with h
  subst h
  with_reducible repeat' first | assumption | apply cmdFwLoadBegin_kept

theorem meanFwLoadData_kept {z : State} (c : Cmd) (s : State) (r : Bool) (hz : Kept z s) : Kept z ((meanFwLoadData c).run s r) := by
  unfold meanFwLoadData
  dsimp only
  with_reducible repeat' first | assumption | simp only [kept_mk, kept_mk_cal] | apply done_kept

theorem cmdFwLoadData_kept {z : State} (c : Cmd) (s : State) (hz : Kept z s) : Kept z (cmdFwLoadData c s) :=
  mailbox_kept _ _ _ _ (fun _ h => h) (fun _ h => h) (fun s r h => by with_reducible apply meanFwLoadData_kept; exact h) hz

theorem execFwLoadData_kept {z t : State} (c : Cmd) (s : State) (hz : Kept z s) (h : execFwLoadData c s = .next t) : Kept z t := by
  unfold execFwLoadData at h
  injection h with h
  subst h
  with_reducible repeat' first | assumption | apply cmdFwLoadData_kept

theorem meanFwLoadCommit_kept {z : State} (c : Cmd) (programOk verifyOk : Bool) (s : State) (r : Bool)
    (hz : Kept z s) : Kept z ((meanFwLoadCommit c programOk verifyOk).run s r) := by
  unfold meanFwLoadCommit
  dsimp only
  with_reducible repeat' first | assumption | simp only [kept_mk, kept_mk_cal] | apply accept_kept

theorem cmdFwLoadCommit_kept {z : State} (c : Cmd) (programOk verifyOk : Bool) (s : State)
    (hz : Kept z s) : Kept z (cmdFwLoadCommit c programOk verifyOk s) :=
  mailbox_kept _ _ _ _ (fun _ h => h) (fun _ h => h) (fun s r h => by with_reducible apply meanFwLoadCommit_kept; exact h) hz

theorem execFwLoadCommit_kept {z t : State} (c : Cmd) (programOk verifyOk : Bool) (s : State)
    (hz : Kept z s) (h : execFwLoadCommit c programOk verifyOk s = .next t) : Kept z t := by
  unfold execFwLoadCommit at h
  injection h with h
  subst h
  with_reducible repeat' first | assumption | apply cmdFwLoadCommit_kept

theorem meanPartReset_kept {z : State} (c : Cmd) (s : State) (r : Bool) (hz : Kept z s) : Kept z ((meanPartReset c).run s r) := by
  unfold meanPartReset
  dsimp only
  with_reducible repeat' first | assumption | simp only [kept_mk, kept_mk_cal] | apply done_kept

theorem cmdPartReset_kept {z : State} (c : Cmd) (s : State) (hz : Kept z s) : Kept z (cmdPartReset c s) :=
  mailbox_kept _ _ _ _ (fun _ h => h) (fun _ h => h) (fun s r h => by with_reducible apply meanPartReset_kept; exact h) hz

theorem execPartReset_kept {z t : State} (c : Cmd) (s : State) (hz : Kept z s) (h : execPartReset c s = .next t) : Kept z t := by
  unfold execPartReset at h
  injection h with h
  subst h
  with_reducible repeat' first | assumption | apply cmdPartReset_kept

theorem execBadOpcodeCommand_kept {z t : State} (opcode : BitVec 16) (c : Cmd) (s : State) (hz : Kept z s)
    (h : execBadOpcodeCommand opcode c s = .next t) : Kept z t := by
  unfold execBadOpcodeCommand at h
  injection h with h
  subst h
  split
  · exact hz
  · exact mailbox_kept _ _ _ _ (fun _ h => h) (fun _ h => h) (fun _ _ h => h) hz

/-! ### FrontEndCommands -/

theorem stageRegs_kept {z : State} (s : State) (n : Nat) (l : List (RegName × Nat × Word))
    (hz : Kept z s) : Kept z (stageRegs s n l) := by
  unfold stageRegs
  with_reducible repeat' first
    | assumption | refine State.each_kept (fun _ _ _ => ?_) ?_ | apply State.wr_kept | apply settleBench_kept

theorem meanFeSetPod_kept {z : State} (c : Cmd) (s : State) (r : Bool) (hz : Kept z s) : Kept z ((meanFeSetPod c).run s r) := by
  unfold meanFeSetPod
  dsimp only
  with_reducible repeat' first | assumption | apply done_kept | apply stageRegs_kept

theorem cmdFeSetPod_kept {z : State} (c : Cmd) (s : State) (hz : Kept z s) : Kept z (cmdFeSetPod c s) :=
  mailbox_kept _ _ _ _ (fun _ h => h) (fun _ h => h) (fun s r h => by with_reducible apply meanFeSetPod_kept; exact h) hz

theorem execFeSetPod_kept {z t : State} (c : Cmd) (s : State) (hz : Kept z s) (h : execFeSetPod c s = .next t) : Kept z t := by
  unfold execFeSetPod at h
  injection h with h
  subst h
  with_reducible repeat' first | assumption | apply cmdFeSetPod_kept

theorem meanFeSetMode_kept {z : State} (c : Cmd) (s : State) (r : Bool) (hz : Kept z s) : Kept z ((meanFeSetMode c).run s r) := by
  unfold meanFeSetMode
  dsimp only
  with_reducible repeat' first | assumption | apply done_kept | apply stageRegs_kept

theorem cmdFeSetMode_kept {z : State} (c : Cmd) (s : State) (hz : Kept z s) : Kept z (cmdFeSetMode c s) :=
  mailbox_kept _ _ _ _ (fun _ h => h) (fun _ h => h) (fun s r h => by with_reducible apply meanFeSetMode_kept; exact h) hz

theorem execFeSetMode_kept {z t : State} (c : Cmd) (s : State) (hz : Kept z s) (h : execFeSetMode c s = .next t) : Kept z t := by
  unfold execFeSetMode at h
  injection h with h
  subst h
  with_reducible repeat' first | assumption | apply cmdFeSetMode_kept

theorem meanFeQuery_kept {z : State} (c : Cmd) (s : State) (r : Bool) (hz : Kept z s) : Kept z ((meanFeQuery c).run s r) := by
  unfold meanFeQuery
  dsimp only
  with_reducible repeat' first | assumption | apply done_kept

theorem cmdFeQuery_kept {z : State} (c : Cmd) (s : State) (hz : Kept z s) : Kept z (cmdFeQuery c s) :=
  mailbox_kept _ _ _ _ (fun _ h => h) (fun _ h => h) (fun s r h => by with_reducible apply meanFeQuery_kept; exact h) hz

theorem execFeQuery_kept {z t : State} (c : Cmd) (s : State) (hz : Kept z s) (h : execFeQuery c s = .next t) : Kept z t := by
  unfold execFeQuery at h
  injection h with h
  subst h
  with_reducible repeat' first | assumption | apply cmdFeQuery_kept

theorem testPod_kept {z : State} (s : State) (p : Nat) (fails : Word) (hz : Kept z s) : Kept z (testPod s p fails).2 := by
  unfold testPod
  dsimp only
  with_reducible repeat' first | assumption | refine State.each_kept (fun _ _ _ => ?_) ?_ | apply testChannel_kept | intro _

theorem meanFeHealth_kept {z : State} (c : Cmd) (fails : Option Word) (s : State) (r : Bool)
    (hz : Kept z s) : Kept z ((meanFeHealth c fails).run s r) := by
  unfold meanFeHealth
  dsimp only
  with_reducible repeat' first
    | assumption | simp only [kept_mk, kept_mk_cal] | apply State.draw_kept | apply done_kept | apply testPod_kept | split

theorem cmdFeHealth_kept {z : State} (c : Cmd) (fails : Option Word) (s : State) (hz : Kept z s) : Kept z (cmdFeHealth c fails s) :=
  mailbox_kept _ _ _ _ (fun _ h => h) (fun _ h => h) (fun s r h => by with_reducible apply meanFeHealth_kept; exact h) hz

theorem execFeHealth_kept {z t : State} (c : Cmd) (s : State) (hz : Kept z s) (h : execFeHealth c s = .next t) : Kept z t := by
  unfold execFeHealth at h
  injection h with h
  subst h
  with_reducible repeat' first | assumption | apply cmdFeHealth_kept

theorem execFeHealthTest_kept {z t : State} (c : Cmd) (fails : Word) (s : State)
    (hz : Kept z s) (h : execFeHealthTest c fails s = .next t) : Kept z t := by
  unfold execFeHealthTest at h
  injection h with h
  subst h
  with_reducible repeat' first | assumption | apply cmdFeHealth_kept

theorem meanFeDeskew_kept {z : State} (c : Cmd) (s : State) (r : Bool) (hz : Kept z s) : Kept z ((meanFeDeskew c).run s r) := by
  unfold meanFeDeskew
  dsimp only
  with_reducible repeat' first | assumption | apply done_kept | apply stageRegs_kept | split

theorem cmdFeDeskew_kept {z : State} (c : Cmd) (s : State) (hz : Kept z s) : Kept z (cmdFeDeskew c s) :=
  mailbox_kept _ _ _ _ (fun _ h => h) (fun _ h => h) (fun s r h => by with_reducible apply meanFeDeskew_kept; exact h) hz

theorem execFeDeskew_kept {z t : State} (c : Cmd) (s : State) (hz : Kept z s) (h : execFeDeskew c s = .next t) : Kept z t := by
  unfold execFeDeskew at h
  injection h with h
  subst h
  with_reducible repeat' first | assumption | apply cmdFeDeskew_kept

theorem postOverdrive_kept {z : State} (s : State) (p n : Nat) (hz : Kept z s) : Kept z (postOverdrive s p n) := by
  unfold postOverdrive
  with_reducible repeat' first | assumption | simp only [kept_mk, kept_mk_cal] | apply postEvent_kept | split

theorem startOverdrive_kept {z : State} (s : State) (p d : Nat) (hz : Kept z s) : Kept z (startOverdrive s p d) := by
  unfold startOverdrive
  with_reducible repeat' first
    | assumption | simp only [kept_mk, kept_mk_cal] | apply setOverdrive_kept | apply postOverdrive_kept | split

theorem execOverdriveOnset_kept {z t : State} (p : Fin 8) (d : Fin 32) (s : State)
    (hz : Kept z s) (h : execOverdriveOnset p d s = .next t) : Kept z t := by
  unfold execOverdriveOnset at h
  injection h with h
  subst h
  with_reducible repeat' first | assumption | apply startOverdrive_kept

theorem execOverdriveEnd_kept {z t : State} (p : Fin 8) (d : Fin 32) (s : State)
    (hz : Kept z s) (h : execOverdriveEnd p d s = .next t) : Kept z t := by
  unfold execOverdriveEnd at h
  injection h with h
  subst h
  with_reducible repeat' first | assumption | simp only [kept_mk, kept_mk_cal] | apply State.setPod_kept | split

theorem stuckExpiry_kept {z : State} (s : State) (n p d : Nat) (hz : Kept z s) : Kept z (stuckExpiry s n p d) := by
  unfold stuckExpiry
  with_reducible repeat' first
    | assumption | simp only [kept_mk, kept_mk_cal] | apply State.setPod_kept | apply raiseFault_kept | split

theorem execStuckWindowExpiry_kept {z t : State} (n p : Fin 8) (d : Fin 32) (s : State)
    (hz : Kept z s) (h : execStuckWindowExpiry n p d s = .next t) : Kept z t := by
  unfold execStuckWindowExpiry at h
  injection h with h
  subst h
  with_reducible repeat' first | assumption | apply stuckExpiry_kept

theorem execClkIdleTimeout_kept {z t : State} (n : Fin 8) (s : State)
    (hz : Kept z s) (h : execClkIdleTimeout n s = .next t) : Kept z t := by
  unfold execClkIdleTimeout at h
  injection h with h
  subst h
  with_reducible repeat' first | assumption | simp only [kept_mk, kept_mk_cal] | apply State.setCap_kept | split

theorem pollPod_kept {z : State} (s : State) (p : Nat) (r : PodRead) (hz : Kept z s) : Kept z (pollPod s p r) := by
  unfold pollPod
  with_reducible repeat' first
    | assumption | simp only [kept_mk, kept_mk_cal] | apply lostPod_kept | apply accessPod_kept | apply readPod_kept | split

theorem execPodPresencePoll_kept {z t : State} (p : Fin 8) (read : PodRead) (s : State)
    (hz : Kept z s) (h : execPodPresencePoll p read s = .next t) : Kept z t := by
  unfold execPodPresencePoll at h
  injection h with h
  subst h
  with_reducible repeat' first | assumption | apply pollPod_kept

/-! ### TriggerCommands -/

theorem meanTrgSetLevel_kept {z : State} (c : Cmd) (s : State) (r : Bool)
    (hz : Kept z s) : Kept z ((meanTrgSetLevel c).run s r) := by
  unfold meanTrgSetLevel
  dsimp only
  with_reducible repeat' first | assumption | apply done_kept | apply stageRegs_kept

theorem cmdTrgSetLevel_kept {z : State} (c : Cmd) (s : State) (hz : Kept z s) : Kept z (cmdTrgSetLevel c s) :=
  mailbox_kept _ _ _ _ (fun _ h => h) (fun _ h => h) (fun s r h => by with_reducible apply meanTrgSetLevel_kept; exact h) hz

theorem execTrgSetLevel_kept {z t : State} (c : Cmd) (s : State)
    (hz : Kept z s) (h : execTrgSetLevel c s = .next t) : Kept z t := by
  unfold execTrgSetLevel at h
  injection h with h
  subst h
  with_reducible repeat' first | assumption | apply cmdTrgSetLevel_kept

theorem meanTrgSetResource_kept {z : State} (c : Cmd) (s : State) (r : Bool)
    (hz : Kept z s) : Kept z ((meanTrgSetResource c).run s r) := by
  unfold meanTrgSetResource
  dsimp only
  with_reducible repeat' first | assumption | apply done_kept | apply stageRegs_kept

theorem cmdTrgSetResource_kept {z : State} (c : Cmd) (s : State) (hz : Kept z s) : Kept z (cmdTrgSetResource c s) :=
  mailbox_kept _ _ _ _ (fun _ h => h) (fun _ h => h) (fun s r h => by with_reducible apply meanTrgSetResource_kept; exact h) hz

theorem execTrgSetResource_kept {z t : State} (c : Cmd) (s : State)
    (hz : Kept z s) (h : execTrgSetResource c s = .next t) : Kept z t := by
  unfold execTrgSetResource at h
  injection h with h
  subst h
  with_reducible repeat' first | assumption | apply cmdTrgSetResource_kept

theorem meanTrgQuery_kept {z : State} (c : Cmd) (s : State) (r : Bool) (hz : Kept z s) : Kept z ((meanTrgQuery c).run s r) := by
  unfold meanTrgQuery
  dsimp only
  with_reducible repeat' first | assumption | apply done_kept

theorem cmdTrgQuery_kept {z : State} (c : Cmd) (s : State) (hz : Kept z s) : Kept z (cmdTrgQuery c s) :=
  mailbox_kept _ _ _ _ (fun _ h => h) (fun _ h => h) (fun s r h => by with_reducible apply meanTrgQuery_kept; exact h) hz

theorem execTrgQuery_kept {z t : State} (c : Cmd) (s : State) (hz : Kept z s) (h : execTrgQuery c s = .next t) : Kept z t := by
  unfold execTrgQuery at h
  injection h with h
  subst h
  with_reducible repeat' first | assumption | apply cmdTrgQuery_kept

theorem meanTrgForce_kept {z : State} (c : Cmd) (s : State) (r : Bool) (hz : Kept z s) : Kept z ((meanTrgForce c).run s r) := by
  unfold meanTrgForce
  dsimp only
  with_reducible repeat' first | assumption | simp only [kept_mk, kept_mk_cal] | apply State.setSeqr_kept

theorem cmdTrgForce_kept {z : State} (c : Cmd) (s : State) (hz : Kept z s) : Kept z (cmdTrgForce c s) :=
  mailbox_kept _ _ _ _ (fun _ h => h) (fun _ h => h) (fun s r h => by with_reducible apply meanTrgForce_kept; exact h) hz

theorem execTrgForce_kept {z t : State} (c : Cmd) (s : State) (hz : Kept z s) (h : execTrgForce c s = .next t) : Kept z t := by
  unfold execTrgForce at h
  injection h with h
  subst h
  with_reducible repeat' first | assumption | apply cmdTrgForce_kept

theorem meanRelayEnable_kept {z : State} (c : Cmd) (s : State) (r : Bool)
    (hz : Kept z s) : Kept z ((meanRelayEnable c).run s r) := by
  unfold meanRelayEnable
  dsimp only
  with_reducible repeat' first | assumption | apply done_kept | apply stageRegs_kept

theorem cmdRelayEnable_kept {z : State} (c : Cmd) (s : State) (hz : Kept z s) : Kept z (cmdRelayEnable c s) :=
  mailbox_kept _ _ _ _ (fun _ h => h) (fun _ h => h) (fun s r h => by with_reducible apply meanRelayEnable_kept; exact h) hz

theorem execRelayEnable_kept {z t : State} (c : Cmd) (s : State)
    (hz : Kept z s) (h : execRelayEnable c s = .next t) : Kept z t := by
  unfold execRelayEnable at h
  injection h with h
  subst h
  with_reducible repeat' first | assumption | apply cmdRelayEnable_kept

/-! ### CaptureCommands -/

theorem meanCapArm_kept {z : State} (c : Cmd) (s : State) (r : Bool) (hz : Kept z s) : Kept z ((meanCapArm c).run s r) := by
  unfold meanCapArm
  dsimp only
  with_reducible repeat' first | assumption | apply done_kept | apply followCapture_kept | apply armBench_kept

theorem cmdCapArm_kept {z : State} (c : Cmd) (s : State) (hz : Kept z s) : Kept z (cmdCapArm c s) :=
  mailbox_kept _ _ _ _ (fun _ h => h) (fun _ h => h) (fun s r h => by with_reducible apply meanCapArm_kept; exact h) hz

theorem execCapArm_kept {z t : State} (c : Cmd) (s : State) (hz : Kept z s) (h : execCapArm c s = .next t) : Kept z t := by
  unfold execCapArm at h
  injection h with h
  subst h
  with_reducible repeat' first | assumption | apply cmdCapArm_kept

theorem stopCapture_kept {z : State} (s : State) (n t : Nat) (hz : Kept z s) : Kept z (stopCapture s n t) := by
  unfold stopCapture
  with_reducible repeat' first
    | assumption | simp only [kept_mk, kept_mk_cal] | apply State.setCap_kept | apply endSkein_kept | apply endCapture_kept
    | apply runDue_kept | split

theorem meanCapStop_kept {z : State} (c : Cmd) (s : State) (r : Bool) (hz : Kept z s) : Kept z ((meanCapStop c).run s r) := by
  unfold meanCapStop
  dsimp only
  with_reducible repeat' first | assumption | apply done_kept | apply followCapture_kept | apply stopCapture_kept

theorem cmdCapStop_kept {z : State} (c : Cmd) (s : State) (hz : Kept z s) : Kept z (cmdCapStop c s) :=
  mailbox_kept _ _ _ _ (fun _ h => h) (fun _ h => h) (fun s r h => by with_reducible apply meanCapStop_kept; exact h) hz

theorem execCapStop_kept {z t : State} (c : Cmd) (s : State) (hz : Kept z s) (h : execCapStop c s = .next t) : Kept z t := by
  unfold execCapStop at h
  injection h with h
  subst h
  with_reducible repeat' first | assumption | apply cmdCapStop_kept

theorem meanCapConfig_kept {z : State} (c : Cmd) (s : State) (r : Bool) (hz : Kept z s) : Kept z ((meanCapConfig c).run s r) := by
  unfold meanCapConfig
  dsimp only
  with_reducible repeat' first | assumption | apply done_kept | apply stageRegs_kept

theorem cmdCapConfig_kept {z : State} (c : Cmd) (s : State) (hz : Kept z s) : Kept z (cmdCapConfig c s) :=
  mailbox_kept _ _ _ _ (fun _ h => h) (fun _ h => h) (fun s r h => by with_reducible apply meanCapConfig_kept; exact h) hz

theorem execCapConfig_kept {z t : State} (c : Cmd) (s : State) (hz : Kept z s) (h : execCapConfig c s = .next t) : Kept z t := by
  unfold execCapConfig at h
  injection h with h
  subst h
  with_reducible repeat' first | assumption | apply cmdCapConfig_kept

theorem meanSknList_kept {z : State} (c : Cmd) (s : State) (r : Bool) (hz : Kept z s) : Kept z ((meanSknList c).run s r) := by
  unfold meanSknList
  dsimp only
  with_reducible repeat' first | assumption | apply done_kept

theorem cmdSknList_kept {z : State} (c : Cmd) (s : State) (hz : Kept z s) : Kept z (cmdSknList c s) :=
  mailbox_kept _ _ _ _ (fun _ h => h) (fun _ h => h) (fun s r h => by with_reducible apply meanSknList_kept; exact h) hz

theorem execSknList_kept {z t : State} (c : Cmd) (s : State) (hz : Kept z s) (h : execSknList c s = .next t) : Kept z t := by
  unfold execSknList at h
  injection h with h
  subst h
  with_reducible repeat' first | assumption | apply cmdSknList_kept

theorem meanSknRead_kept {z : State} (c : Cmd) (s : State) (r : Bool) (hz : Kept z s) : Kept z ((meanSknRead c).run s r) := by
  unfold meanSknRead
  dsimp only
  with_reducible repeat' first
    | assumption | simp only [kept_mk, kept_mk_cal] | apply done_kept | apply accept_kept | apply moveSram_kept
    | apply sendData_kept | split

theorem cmdSknRead_kept {z : State} (c : Cmd) (s : State) (hz : Kept z s) : Kept z (cmdSknRead c s) :=
  mailbox_kept _ _ _ _ (fun _ h => h) (fun _ h => h) (fun s r h => by with_reducible apply meanSknRead_kept; exact h) hz

theorem execSknRead_kept {z t : State} (c : Cmd) (s : State) (hz : Kept z s) (h : execSknRead c s = .next t) : Kept z t := by
  unfold execSknRead at h
  injection h with h
  subst h
  with_reducible repeat' first | assumption | apply cmdSknRead_kept

theorem deleteSkein_kept {z : State} (s : State) (n : Nat) (k0 : Deletable) (hz : Kept z s) : Kept z (deleteSkein s n k0) := by
  unfold deleteSkein
  with_reducible repeat' first
    | assumption | simp only [kept_mk, kept_mk_cal] | apply State.setCap_kept | apply dropEntry_kept | split

theorem meanSknDelete_kept {z : State} (c : Cmd) (s : State) (r : Bool) (hz : Kept z s) : Kept z ((meanSknDelete c).run s r) := by
  unfold meanSknDelete
  dsimp only
  with_reducible repeat' first
    | assumption | refine foldl_kept (fun _ _ _ => ?_) ?_ | refine foldl_snd_kept (fun _ _ _ => ?_) ?_ | apply done_kept
    | apply deleteSkein_kept

theorem cmdSknDelete_kept {z : State} (c : Cmd) (s : State) (hz : Kept z s) : Kept z (cmdSknDelete c s) :=
  mailbox_kept _ _ _ _ (fun _ h => h) (fun _ h => h) (fun s r h => by with_reducible apply meanSknDelete_kept; exact h) hz

theorem execSknDelete_kept {z t : State} (c : Cmd) (s : State) (hz : Kept z s) (h : execSknDelete c s = .next t) : Kept z t := by
  unfold execSknDelete at h
  injection h with h
  subst h
  with_reducible repeat' first | assumption | apply cmdSknDelete_kept

theorem meanBobbinLend_kept {z : State} (c : Cmd) (s : State) (r : Bool) (hz : Kept z s) : Kept z ((meanBobbinLend c).run s r) := by
  unfold meanBobbinLend
  dsimp only
  with_reducible repeat' first | assumption | simp only [kept_mk, kept_mk_cal] | apply State.setCap_kept | apply done_kept

theorem cmdBobbinLend_kept {z : State} (c : Cmd) (s : State) (hz : Kept z s) : Kept z (cmdBobbinLend c s) :=
  mailbox_kept _ _ _ _ (fun _ h => h) (fun _ h => h) (fun s r h => by with_reducible apply meanBobbinLend_kept; exact h) hz

theorem execBobbinLend_kept {z t : State} (c : Cmd) (s : State) (hz : Kept z s) (h : execBobbinLend c s = .next t) : Kept z t := by
  unfold execBobbinLend at h
  injection h with h
  subst h
  with_reducible repeat' first | assumption | apply cmdBobbinLend_kept

theorem execSampleVector_kept {z t : State} (n : Fin 8) (window : Nat) (pods : List PodInput) (s : State)
    (hz : Kept z s) (h : execSampleVector n window pods s = .next t) : Kept z t := by
  unfold execSampleVector at h
  injection h with h
  subst h
  with_reducible repeat' first | assumption | apply sampleWindow_kept | apply followCapture_kept

theorem resumeStoring_kept {z : State} (s : State) (n : Nat) (hz : Kept z s) : Kept z (resumeStoring s n) := by
  unfold resumeStoring
  with_reducible repeat' first | assumption | simp only [kept_mk, kept_mk_cal] | apply State.setCap_kept | split

theorem execOverrunResume_kept {z t : State} (n : Fin 8) (s : State)
    (hz : Kept z s) (h : execOverrunResume n s = .next t) : Kept z t := by
  unfold execOverrunResume at h
  injection h with h
  subst h
  with_reducible repeat' first | assumption | apply resumeStoring_kept | split

theorem reachTick_kept {z : State} (s : State) (n t : Nat) (hz : Kept z s) : Kept z (reachTick s n t) := by
  unfold reachTick
  with_reducible repeat' first
    | assumption | simp only [kept_mk, kept_mk_cal] | apply runDue_kept | apply followCapture_kept | split

theorem execSkeinBoundary_kept {z t : State} (n : Fin 8) (s : State)
    (hz : Kept z s) (h : execSkeinBoundary n s = .next t) : Kept z t := by
  unfold execSkeinBoundary at h
  injection h with h
  subst h
  with_reducible repeat' first | assumption | simp only [kept_mk, kept_mk_cal] | apply reachTick_kept | split

theorem execSegmentedRearm_kept {z t : State} (n : Fin 8) (s : State)
    (hz : Kept z s) (h : execSegmentedRearm n s = .next t) : Kept z t := by
  unfold execSegmentedRearm at h
  injection h with h
  subst h
  with_reducible repeat' first | assumption | simp only [kept_mk, kept_mk_cal] | apply reachTick_kept | split

theorem execSkeinEnd_kept {z t : State} (n : Fin 8) (s : State) (hz : Kept z s) (h : execSkeinEnd n s = .next t) : Kept z t := by
  unfold execSkeinEnd at h
  injection h with h
  subst h
  with_reducible repeat' first | assumption | simp only [kept_mk, kept_mk_cal] | apply reachTick_kept | split

/-! ### CompressCommands -/

theorem meanCmpConfig_kept {z : State} (c : Cmd) (s : State) (r : Bool) (hz : Kept z s) : Kept z ((meanCmpConfig c).run s r) := by
  unfold meanCmpConfig
  dsimp only
  with_reducible repeat' first | assumption | apply done_kept | apply stageRegs_kept

theorem cmdCmpConfig_kept {z : State} (c : Cmd) (s : State) (hz : Kept z s) : Kept z (cmdCmpConfig c s) :=
  mailbox_kept _ _ _ _ (fun _ h => h) (fun _ h => h) (fun s r h => by with_reducible apply meanCmpConfig_kept; exact h) hz

theorem execCmpConfig_kept {z t : State} (c : Cmd) (s : State) (hz : Kept z s) (h : execCmpConfig c s = .next t) : Kept z t := by
  unfold execCmpConfig at h
  injection h with h
  subst h
  with_reducible repeat' first | assumption | apply cmdCmpConfig_kept

theorem meanCmpExport_kept {z : State} (c : Cmd) (s : State) (r : Bool) (hz : Kept z s) : Kept z ((meanCmpExport c).run s r) := by
  unfold meanCmpExport
  dsimp only
  with_reducible repeat' first
    | assumption | simp only [kept_mk, kept_mk_cal] | apply State.setCap_kept | apply accept_kept | apply addJob_kept

theorem cmdCmpExport_kept {z : State} (c : Cmd) (s : State) (hz : Kept z s) : Kept z (cmdCmpExport c s) :=
  mailbox_kept _ _ _ _ (fun _ h => h) (fun _ h => h) (fun s r h => by with_reducible apply meanCmpExport_kept; exact h) hz

theorem execCmpExport_kept {z t : State} (c : Cmd) (s : State) (hz : Kept z s) (h : execCmpExport c s = .next t) : Kept z t := by
  unfold execCmpExport at h
  injection h with h
  subst h
  with_reducible repeat' first | assumption | apply cmdCmpExport_kept

theorem meanCmpVerify_kept {z : State} (c : Cmd) (s : State) (r : Bool) (hz : Kept z s) : Kept z ((meanCmpVerify c).run s r) := by
  unfold meanCmpVerify
  dsimp only
  with_reducible repeat' first | assumption | apply accept_kept | apply addJob_kept

theorem cmdCmpVerify_kept {z : State} (c : Cmd) (s : State) (hz : Kept z s) : Kept z (cmdCmpVerify c s) :=
  mailbox_kept _ _ _ _ (fun _ h => h) (fun _ h => h) (fun s r h => by with_reducible apply meanCmpVerify_kept; exact h) hz

theorem execCmpVerify_kept {z t : State} (c : Cmd) (s : State) (hz : Kept z s) (h : execCmpVerify c s = .next t) : Kept z t := by
  unfold execCmpVerify at h
  injection h with h
  subst h
  with_reducible repeat' first | assumption | apply cmdCmpVerify_kept

theorem meanCmpFlush_kept {z : State} (c : Cmd) (s : State) (r : Bool) (hz : Kept z s) : Kept z ((meanCmpFlush c).run s r) := by
  unfold meanCmpFlush
  dsimp only
  with_reducible repeat' first | assumption | apply done_kept | apply flushStream_kept

theorem cmdCmpFlush_kept {z : State} (c : Cmd) (s : State) (hz : Kept z s) : Kept z (cmdCmpFlush c s) :=
  mailbox_kept _ _ _ _ (fun _ h => h) (fun _ h => h) (fun s r h => by with_reducible apply meanCmpFlush_kept; exact h) hz

theorem execCmpFlush_kept {z t : State} (c : Cmd) (s : State) (hz : Kept z s) (h : execCmpFlush c s = .next t) : Kept z t := by
  unfold execCmpFlush at h
  injection h with h
  subst h
  with_reducible repeat' first | assumption | apply cmdCmpFlush_kept

theorem meanCmpQuery_kept {z : State} (c : Cmd) (s : State) (r : Bool) (hz : Kept z s) : Kept z ((meanCmpQuery c).run s r) := by
  unfold meanCmpQuery
  dsimp only
  with_reducible repeat' first | assumption | apply done_kept

theorem cmdCmpQuery_kept {z : State} (c : Cmd) (s : State) (hz : Kept z s) : Kept z (cmdCmpQuery c s) :=
  mailbox_kept _ _ _ _ (fun _ h => h) (fun _ h => h) (fun s r h => by with_reducible apply meanCmpQuery_kept; exact h) hz

theorem execCmpQuery_kept {z t : State} (c : Cmd) (s : State) (hz : Kept z s) (h : execCmpQuery c s = .next t) : Kept z t := by
  unfold execCmpQuery at h
  injection h with h
  subst h
  with_reducible repeat' first | assumption | apply cmdCmpQuery_kept

theorem execCmpSnFlushWrite_kept {z t : State} (path : Path) (n : Fin 8) (data : Word) (s : State)
    (hz : Kept z s) (h : execCmpSnFlushWrite path n data s = .next t) : Kept z t := by
  unfold execCmpSnFlushWrite at h
  injection h with h
  subst h
  with_reducible repeat' first | assumption | apply accessWrite_kept

theorem execAutoflushExpiry_kept {z t : State} (n : Fin 8) (s : State)
    (hz : Kept z s) (h : execAutoflushExpiry n s = .next t) : Kept z t := by
  unfold execAutoflushExpiry at h
  injection h with h
  subst h
  with_reducible repeat' first | assumption | apply flushStream_kept | split

theorem execBlockEnd_kept {z t : State} (e : Fin 4) (checkOk : Bool) (s : State)
    (hz : Kept z s) (h : execBlockEnd e checkOk s = .next t) : Kept z t := by
  unfold execBlockEnd at h
  injection h with h
  subst h
  with_reducible repeat' first | assumption | apply endStep_kept | split

theorem execCmpStreamStop_kept {z t : State} (n : Fin 8) (cause : StopCause) (s : State)
    (hz : Kept z s) (h : execCmpStreamStop n cause s = .next t) : Kept z t := by
  unfold execCmpStreamStop at h
  injection h with h
  subst h
  with_reducible repeat' first | assumption | apply stopStream_kept | split

theorem execCmpStreamResume_kept {z t : State} (n : Fin 8) (s : State)
    (hz : Kept z s) (h : execCmpStreamResume n s = .next t) : Kept z t := by
  unfold execCmpStreamResume at h
  injection h with h
  subst h
  with_reducible repeat' first | assumption | apply resumeStream_kept | split

/-! ### LaneCommands -/

theorem meanSlQuery_kept {z : State} (c : Cmd) (s : State) (r : Bool) (hz : Kept z s) : Kept z ((meanSlQuery c).run s r) := by
  unfold meanSlQuery
  dsimp only
  with_reducible repeat' first | assumption | apply done_kept

theorem cmdSlQuery_kept {z : State} (c : Cmd) (s : State) (hz : Kept z s) : Kept z (cmdSlQuery c s) :=
  mailbox_kept _ _ _ _ (fun _ h => h) (fun _ h => h) (fun s r h => by with_reducible apply meanSlQuery_kept; exact h) hz

theorem execSlQuery_kept {z t : State} (c : Cmd) (s : State) (hz : Kept z s) (h : execSlQuery c s = .next t) : Kept z t := by
  unfold execSlQuery at h
  injection h with h
  subst h
  with_reducible repeat' first | assumption | apply cmdSlQuery_kept

theorem meanSlStream_kept {z : State} (c : Cmd) (s : State) (r : Bool) (hz : Kept z s) : Kept z ((meanSlStream c).run s r) := by
  unfold meanSlStream
  dsimp only
  with_reducible repeat' first | assumption | apply State.wr_kept | apply done_kept

theorem cmdSlStream_kept {z : State} (c : Cmd) (s : State) (hz : Kept z s) : Kept z (cmdSlStream c s) :=
  mailbox_kept _ _ _ _ (fun _ h => h) (fun _ h => h) (fun s r h => by with_reducible apply meanSlStream_kept; exact h) hz

theorem execSlStream_kept {z t : State} (c : Cmd) (s : State) (hz : Kept z s) (h : execSlStream c s = .next t) : Kept z t := by
  unfold execSlStream at h
  injection h with h
  subst h
  with_reducible repeat' first | assumption | apply cmdSlStream_kept

theorem sendStored_kept {z : State} (s : State) (r : LaneRead) (hz : Kept z s) : Kept z (sendStored s r) := by
  unfold sendStored
  with_reducible repeat' first | assumption | apply done_kept | apply sendData_kept | split

theorem readOn_kept {z : State} (s : State) (r : LaneRead) (ps : List (Nat × Nat × Nat))
    (hz : Kept z s) : Kept z (readOn s r ps) := by
  induction ps generalizing s r with
  | nil => exact sendStored_kept _ _ hz
  | cons p rest ih =>
    unfold readOn
    split
    · exact complete_kept _ _ _ _ _ _ hz
    · split
      · exact ih _ _ (readParts_kept _ _ _ _ hz)
      · simpa only [kept_mk] using hz

theorem pumpReads_kept {z : State} (s : State) (hz : Kept z s) : Kept z (pumpReads s) := by
  unfold pumpReads
  with_reducible repeat' first
    | assumption | simp only [kept_mk, kept_mk_cal] | refine State.each_kept (fun _ _ _ => ?_) ?_ | apply readOn_kept

theorem meanSlRead_kept {z : State} (c : Cmd) (s : State) (r : Bool) (hz : Kept z s) : Kept z ((meanSlRead c).run s r) := by
  unfold meanSlRead
  dsimp only
  with_reducible repeat' first
    | assumption | simp only [kept_mk, kept_mk_cal] | apply complete_kept | apply accept_kept | apply readOn_kept | split

theorem cmdSlRead_kept {z : State} (c : Cmd) (s : State) (hz : Kept z s) : Kept z (cmdSlRead c s) :=
  mailbox_kept _ _ _ _ (fun _ h => h) (fun _ h => h) (fun s r h => by with_reducible apply meanSlRead_kept; exact h) hz

theorem execSlRead_kept {z t : State} (c : Cmd) (s : State) (hz : Kept z s) (h : execSlRead c s = .next t) : Kept z t := by
  unfold execSlRead at h
  injection h with h
  subst h
  with_reducible repeat' first | assumption | apply cmdSlRead_kept

theorem loseOpenHank_kept {z : State} (s : State) (x n : Nat) (hz : Kept z s) : Kept z (loseOpenHank s x n) := by
  unfold loseOpenHank
  with_reducible repeat' first
    | assumption | simp only [kept_mk, kept_mk_cal] | apply State.setCmp_kept | apply discardUndurable_kept | split

theorem formatLane_kept {z : State} (s : State) (x : Nat) (hz : Kept z s) : Kept z (formatLane s x) := by
  unfold formatLane
  with_reducible repeat' first
    | assumption | simp only [kept_mk, kept_mk_cal] | refine State.each_kept (fun _ _ _ => ?_) ?_ | apply State.setLane_kept
    | apply raiseFault_kept | apply eraseHank_kept | apply loseOpenHank_kept

theorem meanSlFormat_kept {z : State} (c : Cmd) (s : State) (r : Bool) (hz : Kept z s) : Kept z ((meanSlFormat c).run s r) := by
  unfold meanSlFormat
  dsimp only
  with_reducible repeat' first
    | assumption | simp only [kept_mk, kept_mk_cal] | refine State.each_kept (fun _ _ _ => ?_) ?_
    | refine foldl_kept (fun _ _ _ => ?_) ?_ | refine foldl_snd_kept (fun _ _ _ => ?_) ?_ | apply complete_kept | apply done_kept
    | apply accept_kept | apply formatLane_kept | split

theorem cmdSlFormat_kept {z : State} (c : Cmd) (s : State) (hz : Kept z s) : Kept z (cmdSlFormat c s) :=
  mailbox_kept _ _ _ _ (fun _ h => h) (fun _ h => h) (fun s r h => by with_reducible apply meanSlFormat_kept; exact h) hz

theorem execSlFormat_kept {z t : State} (c : Cmd) (s : State) (hz : Kept z s) (h : execSlFormat c s = .next t) : Kept z t := by
  unfold execSlFormat at h
  injection h with h
  subst h
  with_reducible repeat' first | assumption | apply cmdSlFormat_kept

theorem meanSlScrub_kept {z : State} (c : Cmd) (s : State) (r : Bool) (hz : Kept z s) : Kept z ((meanSlScrub c).run s r) := by
  unfold meanSlScrub
  dsimp only
  with_reducible repeat' first
    | assumption | simp only [kept_mk, kept_mk_cal] | apply complete_kept | apply done_kept | apply accept_kept | split

theorem cmdSlScrub_kept {z : State} (c : Cmd) (s : State) (hz : Kept z s) : Kept z (cmdSlScrub c s) :=
  mailbox_kept _ _ _ _ (fun _ h => h) (fun _ h => h) (fun s r h => by with_reducible apply meanSlScrub_kept; exact h) hz

theorem execSlScrub_kept {z t : State} (c : Cmd) (s : State) (hz : Kept z s) (h : execSlScrub c s = .next t) : Kept z t := by
  unfold execSlScrub at h
  injection h with h
  subst h
  with_reducible repeat' first | assumption | apply cmdSlScrub_kept

theorem meanSlBbtRead_kept {z : State} (c : Cmd) (s : State) (r : Bool) (hz : Kept z s) : Kept z ((meanSlBbtRead c).run s r) := by
  unfold meanSlBbtRead
  dsimp only
  with_reducible repeat' first | assumption | apply done_kept

theorem cmdSlBbtRead_kept {z : State} (c : Cmd) (s : State) (hz : Kept z s) : Kept z (cmdSlBbtRead c s) :=
  mailbox_kept _ _ _ _ (fun _ h => h) (fun _ h => h) (fun s r h => by with_reducible apply meanSlBbtRead_kept; exact h) hz

theorem execSlBbtRead_kept {z t : State} (c : Cmd) (s : State) (hz : Kept z s) (h : execSlBbtRead c s = .next t) : Kept z t := by
  unfold execSlBbtRead at h
  injection h with h
  subst h
  with_reducible repeat' first | assumption | apply cmdSlBbtRead_kept

theorem finishPage_kept {z : State} (s : State) (x : Nat) (hz : Kept z s) : Kept z (finishPage s x) := by
  unfold finishPage
  with_reducible repeat' first
    | assumption | simp only [kept_mk, kept_mk_cal] | apply State.setLane_kept | apply pageDurable_kept | apply followCapture_kept
    | split

theorem finishProgram_kept {z : State} (s : State) (x : Nat) (hz : Kept z s) : Kept z (finishProgram s x) := by
  unfold finishProgram
  with_reducible repeat' first | assumption | refine State.each_kept (fun _ _ _ => ?_) ?_ | apply finishPage_kept

theorem execPageProgramDone_kept {z t : State} (lane : Fin 2) (s : State)
    (hz : Kept z s) (h : execPageProgramDone lane s = .next t) : Kept z t := by
  unfold execPageProgramDone at h
  injection h with h
  subst h
  with_reducible repeat' first | assumption | apply finishProgram_kept | split

theorem reissue_kept {z : State} (s : State) (n : Nat) (l : List Issued) (hz : Kept z s) : OptKept z id (reissue s n l) := by
  induction l generalizing s with
  | nil => exact optKept_some hz
  | cons i t ih =>
    unfold reissue
    split
    · exact optKept_none
    · exact ih _ (State.setLane_kept _ _ (kept_of_opt3 (by assumption) (takeSlot_kept s n _ hz)))

theorem requeue_kept {z : State} (s : State) (n x h : Nat) (l : List (Nat × Nat × Nat × List Byte)) (hz : Kept z s) :
    OptKept z Prod.snd (requeue s n x h l) := by
  induction l generalizing s with
  | nil => exact optKept_some hz
  | cons q t ih =>
    unfold requeue
    split
    · split
      · exact optKept_none
      · exact optKept_map (ih _ (kept_of_opt3 (by assumption) (takeSlot_kept s n _ hz))) fun a h => h
    · exact optKept_map (ih _ hz) fun a h => h

theorem reslot_kept {z : State} (s : State) (n x h : Nat) (hz : Kept z s) : OptKept z id (reslot s n x h) := by
  unfold reslot
  split
  · exact optKept_some hz
  · split
    · exact optKept_map (takeSlot_kept s n _ hz) fun a h => State.setCmp_kept _ _ h
    · exact optKept_some hz

theorem vacateHank_kept {z : State} (s : State) (x h n : Nat) (hz : Kept z s) : Kept z (vacateHank s x h n) := by
  unfold vacateHank
  lift_lets
  intro l mine s1 c s2 moved
  have h1 : Kept z s1 := State.setLane_kept _ _ hz
  clear_value s1
  have h2 : Kept z s2 := by
    dsimp only [s2]
    split
    · exact State.setCmp_kept _ _ h1
    · exact h1
  clear_value s2
  have h3 : OptKept z id moved :=
    optKept_bind (reissue_kept _ _ _ h2) fun a ha => optKept_bind (requeue_kept _ _ _ _ _ ha) fun b hb =>
      reslot_kept _ _ _ _ (State.setCmp_kept _ _ hb)
  clear_value moved
  split
  · exact h3 _ rfl
  · exact stopStream_kept _ _ _ h2

theorem failProgram_kept {z : State} (s : State) (x : Nat) (hz : Kept z s) : Kept z (failProgram s x) := by
  unfold failProgram
  with_reducible repeat' first
    | assumption | simp only [kept_mk, kept_mk_cal] | apply State.bumpSat_kept | apply State.setLane_kept | apply freeHank_kept
    | apply queueMove_kept | apply vacateHank_kept | split

theorem failSystem_kept {z : State} (s : State) (x k : Nat) (hz : Kept z s) : Kept z (failSystem s x k) := by
  unfold failSystem
  with_reducible repeat' first | assumption | simp only [kept_mk, kept_mk_cal] | apply State.setLane_kept

theorem execProgramStatusFail_kept {z t : State} (fail : FailedProgram) (s : State)
    (hz : Kept z s) (h : execProgramStatusFail fail s = .next t) : Kept z t := by
  unfold execProgramStatusFail at h
  injection h with h
  subst h
  with_reducible repeat' first
    | assumption | simp only [kept_mk, kept_mk_cal] | apply failProgram_kept | apply failSystem_kept | split

theorem failErase.afterDraw_kept {z : State} (x : Nat) (s : State) (h : Nat) (o : HankOwner) (hz : Kept z s) :
    Kept z (failErase.afterDraw x s h o) := by
  unfold failErase.afterDraw
  split
  · exact vacateHank_kept _ _ _ _ hz
  · exact hz

theorem failErase_kept {z : State} (s : State) (x b : Nat) (hz : Kept z s) : Kept z (failErase s x b) := by
  unfold failErase
  dsimp only
  repeat' first
    | with_reducible assumption
    | with_reducible refine kept_of_opt2 (by with_reducible assumption) ?_
    | with_reducible apply drawHank_kept
    | with_reducible apply failErase.afterDraw_kept
    | with_reducible apply State.setLane_kept
    | with_reducible apply raiseFault_kept
    | with_reducible apply State.bumpSat_kept
    | split

theorem execEraseStatusFail_kept {z t : State} (lane : Fin 2) (block : Nat) (s : State)
    (hz : Kept z s) (h : execEraseStatusFail lane block s = .next t) : Kept z t := by
  unfold execEraseStatusFail at h
  injection h with h
  subst h
  with_reducible repeat' first | assumption | apply failErase_kept | split

theorem uncorrectable_kept {z : State} (s : State) (x b page : Nat) (words : List Codeword)
    (hz : Kept z s) : Kept z (uncorrectable s x b page words) := by
  unfold uncorrectable
  with_reducible repeat' first
    | assumption | simp only [kept_mk, kept_mk_cal] | apply State.setLane_kept | apply losePage_kept | split

theorem execUncorrectableRead_kept {z t : State} (lane : Fin 2) (block : Nat) (read : Reread) (s : State)
    (hz : Kept z s) (h : execUncorrectableRead lane block read s = .next t) : Kept z t := by
  unfold execUncorrectableRead at h
  injection h with h
  subst h
  with_reducible repeat' first | assumption | apply uncorrectable_kept | split

theorem busyTooLong_kept {z : State} (s : State) (x : Nat) (op : NandOp) (b : Nat)
    (hz : Kept z s) : Kept z (busyTooLong s x op b) := by
  unfold busyTooLong
  with_reducible repeat' first
    | assumption | simp only [kept_mk, kept_mk_cal] | apply raiseFault_kept | apply failProgram_kept | apply failErase_kept | split

theorem execNandBusyTimeout_kept {z t : State} (lane : Fin 2) (op : NandOp) (block : Nat) (s : State)
    (hz : Kept z s) (h : execNandBusyTimeout lane op block s = .next t) : Kept z t := by
  unfold execNandBusyTimeout at h
  injection h with h
  subst h
  with_reducible repeat' first | assumption | apply busyTooLong_kept | split

theorem notePages_kept {z : State} (s : State) (x : Nat) (pages : List PageRead)
    (hz : Kept z s) : Kept z (notePages s x pages) := by
  unfold notePages
  with_reducible repeat' first
    | assumption | simp only [kept_mk, kept_mk_cal] | refine State.each_kept (fun _ _ _ => ?_) ?_ | apply State.setLane_kept | split

theorem scrubPage_kept {z : State} (s : State) (x key : Nat) (hz : Kept z s) : Kept z (scrubPage s x key) := by
  unfold scrubPage
  dsimp only
  with_reducible repeat' first
    | assumption | apply State.bumpWrap_kept | apply countRead_kept | apply losePage_kept | split | intro _

theorem scrubLane_kept {z : State} (s : State) (x : Nat) (pages : List PageRead)
    (hz : Kept z s) : Kept z (scrubLane s x pages) := by
  unfold scrubLane
  with_reducible repeat' first
    | assumption | simp only [kept_mk, kept_mk_cal] | refine State.each_kept (fun _ _ _ => ?_) ?_ | apply State.setLane_kept
    | apply postAll_kept | apply complete_kept | apply done_kept | apply queueMove_kept | apply notePages_kept
    | apply scrubPage_kept | split

theorem execRetentionScrub_kept {z t : State} (lane : Fin 2) (pages : List PageRead) (s : State)
    (hz : Kept z s) (h : execRetentionScrub lane pages s = .next t) : Kept z t := by
  unfold execRetentionScrub at h
  injection h with h
  subst h
  with_reducible repeat' first | assumption | apply notePages_kept | apply scrubLane_kept | split

theorem levelWear_kept {z : State} (s : State) (x : Nat) (hz : Kept z s) : Kept z (levelWear s x) := by
  unfold levelWear
  with_reducible repeat' first
    | assumption | simp only [kept_mk, kept_mk_cal] | refine foldl_kept (fun _ _ _ => ?_) ?_
    | refine foldl_snd_kept (fun _ _ _ => ?_) ?_ | apply queueMove_kept | split

theorem execWearLevelRelocation_kept {z t : State} (lane : Fin 2) (s : State)
    (hz : Kept z s) (h : execWearLevelRelocation lane s = .next t) : Kept z t := by
  unfold execWearLevelRelocation at h
  injection h with h
  subst h
  with_reducible repeat' first | assumption | apply levelWear_kept | split

theorem execReadDisturbRelocation_kept {z t : State} (lane : Fin 2) (block : Nat) (s : State)
    (hz : Kept z s) (h : execReadDisturbRelocation lane block s = .next t) : Kept z t := by
  unfold execReadDisturbRelocation at h
  injection h with h
  subst h
  with_reducible repeat' first | assumption | apply queueMove_kept | split

theorem execRelocationComplete_kept {z t : State} (lane : Fin 2) (s : State)
    (hz : Kept z s) (h : execRelocationComplete lane s = .next t) : Kept z t := by
  unfold execRelocationComplete at h
  injection h with h
  subst h
  with_reducible repeat' first | assumption | apply startMove_kept | apply finishMove_kept | split

/-! ### EngineCommands -/

theorem storedInput_kept {z : State} (s : State) (sel : List Nat) (prev : List Item) (k0 : List CatEntry)
    (hz : Kept z s) : Kept z (storedInput s sel prev k0).2 := by
  induction k0 generalizing s sel prev with
  | nil => exact hz
  | cons a t ih =>
    unfold storedInput
    with_reducible repeat' first | assumption | apply readParts_kept | with_reducible apply ih | split

theorem startScan_kept {z : State} (s : State) (op : BitVec 16) (c : Cmd) (k : JobKind) (r : Bool)
    (hz : Kept z s) : Kept z (startScan s op c k r) := by
  unfold startScan
  with_reducible repeat' first
    | assumption | simp only [kept_mk, kept_mk_cal] | apply complete_kept | apply done_kept | apply accept_kept | apply addJob_kept
    | apply storedInput_kept | split

theorem meanSearchJob_kept {z : State} (c : Cmd) (s : State) (r : Bool) (hz : Kept z s) : Kept z ((meanSearchJob c).run s r) := by
  unfold meanSearchJob
  dsimp only
  with_reducible repeat' first | assumption | apply startScan_kept

theorem cmdSearchJob_kept {z : State} (c : Cmd) (s : State) (hz : Kept z s) : Kept z (cmdSearchJob c s) :=
  mailbox_kept _ _ _ _ (fun _ h => h) (fun _ h => h) (fun s r h => by with_reducible apply meanSearchJob_kept; exact h) hz

theorem execSearchJob_kept {z t : State} (c : Cmd) (s : State) (hz : Kept z s) (h : execSearchJob c s = .next t) : Kept z t := by
  unfold execSearchJob at h
  injection h with h
  subst h
  with_reducible repeat' first | assumption | apply cmdSearchJob_kept

theorem meanDecodeJob_kept {z : State} (c : Cmd) (s : State) (r : Bool) (hz : Kept z s) : Kept z ((meanDecodeJob c).run s r) := by
  unfold meanDecodeJob
  dsimp only
  with_reducible repeat' first | assumption | apply startScan_kept

theorem cmdDecodeJob_kept {z : State} (c : Cmd) (s : State) (hz : Kept z s) : Kept z (cmdDecodeJob c s) :=
  mailbox_kept _ _ _ _ (fun _ h => h) (fun _ h => h) (fun s r h => by with_reducible apply meanDecodeJob_kept; exact h) hz

theorem execDecodeJob_kept {z t : State} (c : Cmd) (s : State) (hz : Kept z s) (h : execDecodeJob c s = .next t) : Kept z t := by
  unfold execDecodeJob at h
  injection h with h
  subst h
  with_reducible repeat' first | assumption | apply cmdDecodeJob_kept

theorem meanJobCancel_kept {z : State} (c : Cmd) (s : State) (r : Bool) (hz : Kept z s) : Kept z ((meanJobCancel c).run s r) := by
  unfold meanJobCancel
  dsimp only
  with_reducible repeat' first | assumption | simp only [kept_mk, kept_mk_cal] | apply done_kept | apply tellStop_kept | split

theorem cmdJobCancel_kept {z : State} (c : Cmd) (s : State) (hz : Kept z s) : Kept z (cmdJobCancel c s) :=
  mailbox_kept _ _ _ _ (fun _ h => h) (fun _ h => h) (fun s r h => by with_reducible apply meanJobCancel_kept; exact h) hz

theorem execJobCancel_kept {z t : State} (c : Cmd) (s : State) (hz : Kept z s) (h : execJobCancel c s = .next t) : Kept z t := by
  unfold execJobCancel at h
  injection h with h
  subst h
  with_reducible repeat' first | assumption | apply cmdJobCancel_kept

theorem meanEngQuery_kept {z : State} (c : Cmd) (s : State) (r : Bool) (hz : Kept z s) : Kept z ((meanEngQuery c).run s r) := by
  unfold meanEngQuery
  dsimp only
  with_reducible repeat' first | assumption | apply done_kept | split

theorem cmdEngQuery_kept {z : State} (c : Cmd) (s : State) (hz : Kept z s) : Kept z (cmdEngQuery c s) :=
  mailbox_kept _ _ _ _ (fun _ h => h) (fun _ h => h) (fun s r h => by with_reducible apply meanEngQuery_kept; exact h) hz

theorem execEngQuery_kept {z t : State} (c : Cmd) (s : State) (hz : Kept z s) (h : execEngQuery c s = .next t) : Kept z t := by
  unfold execEngQuery at h
  injection h with h
  subst h
  with_reducible repeat' first | assumption | apply cmdEngQuery_kept

theorem meanPlyConfig_kept {z : State} (c : Cmd) (s : State) (r : Bool) (hz : Kept z s) : Kept z ((meanPlyConfig c).run s r) := by
  unfold meanPlyConfig
  dsimp only
  with_reducible repeat' first
    | assumption | refine State.each_kept (fun _ _ _ => ?_) ?_ | apply State.wrFld_kept | apply done_kept | apply settleRally_kept

theorem cmdPlyConfig_kept {z : State} (c : Cmd) (s : State) (hz : Kept z s) : Kept z (cmdPlyConfig c s) :=
  mailbox_kept _ _ _ _ (fun _ h => h) (fun _ h => h) (fun s r h => by with_reducible apply meanPlyConfig_kept; exact h) hz

theorem execPlyConfig_kept {z t : State} (c : Cmd) (s : State) (hz : Kept z s) (h : execPlyConfig c s = .next t) : Kept z t := by
  unfold execPlyConfig at h
  injection h with h
  subst h
  with_reducible repeat' first | assumption | apply cmdPlyConfig_kept

theorem meanRegulatorSet_kept {z : State} (c : Cmd) (s : State) (r : Bool)
    (hz : Kept z s) : Kept z ((meanRegulatorSet c).run s r) := by
  unfold meanRegulatorSet
  dsimp only
  with_reducible repeat' first | assumption | apply State.wr_kept | apply done_kept | apply settleRally_kept

theorem cmdRegulatorSet_kept {z : State} (c : Cmd) (s : State) (hz : Kept z s) : Kept z (cmdRegulatorSet c s) :=
  mailbox_kept _ _ _ _ (fun _ h => h) (fun _ h => h) (fun s r h => by with_reducible apply meanRegulatorSet_kept; exact h) hz

theorem execRegulatorSet_kept {z t : State} (c : Cmd) (s : State)
    (hz : Kept z s) (h : execRegulatorSet c s = .next t) : Kept z t := by
  unfold execRegulatorSet at h
  injection h with h
  subst h
  with_reducible repeat' first | assumption | apply cmdRegulatorSet_kept

theorem startIdle_kept {z : State} (s : State) (e : Nat) (hz : Kept z s) : Kept z (startIdle s e) := by
  unfold startIdle
  with_reducible repeat' first | assumption | apply choose_kept | apply switchTo_kept | apply iuBegin_kept | split

theorem umpireChooses_kept {z : State} (s : State) (e : Nat) (hz : Kept z s) : Kept z (umpireChooses s e) := by
  unfold umpireChooses
  with_reducible repeat' first
    | assumption | simp only [kept_mk, kept_mk_cal] | apply State.setEngine_kept | apply choose_kept | apply startIdle_kept | split

theorem execUmpireChoice_kept {z t : State} (e : Fin 9) (s : State)
    (hz : Kept z s) (h : execUmpireChoice e s = .next t) : Kept z t := by
  unfold execUmpireChoice at h
  injection h with h
  subst h
  with_reducible repeat' first | assumption | apply umpireChooses_kept | split

theorem expireRally_kept {z : State} (s : State) (e : Nat) (contextOk : Bool)
    (hz : Kept z s) : Kept z (expireRally s e contextOk) := by
  unfold expireRally
  with_reducible repeat' first
    | assumption | simp only [kept_mk, kept_mk_cal] | apply choose_kept | apply rallyBoundary_kept | apply switchTo_kept
    | apply sweepOrphans_kept | split

theorem execRallyExpiry_kept {z t : State} (e : Fin 9) (contextOk : Bool) (s : State)
    (hz : Kept z s) (h : execRallyExpiry e contextOk s = .next t) : Kept z t := by
  unfold execRallyExpiry at h
  injection h with h
  subst h
  with_reducible repeat' first | assumption | apply expireRally_kept | split

theorem execJobBlockedTimeout_kept {z t : State} (e : Fin 9) (s : State)
    (hz : Kept z s) (h : execJobBlockedTimeout e s = .next t) : Kept z t := by
  unfold execJobBlockedTimeout at h
  injection h with h
  subst h
  with_reducible repeat' first
    | assumption | apply preempt_kept | apply rallyBoundary_kept | apply sweepOrphans_kept | apply startIdle_kept | split

theorem execJobStepEnd_kept {z t : State} (e : Fin 9) (s : State)
    (hz : Kept z s) (h : execJobStepEnd e s = .next t) : Kept z t := by
  unfold execJobStepEnd at h
  injection h with h
  subst h
  with_reducible repeat' first | assumption | apply endStep_kept | split

theorem execRegulatorRefill_kept {z t : State} (s : State) (hz : Kept z s) (h : execRegulatorRefill s = .next t) : Kept z t := by
  unfold execRegulatorRefill at h
  injection h with h
  subst h
  with_reducible repeat' first
    | assumption | refine State.each_kept (fun _ _ _ => ?_) ?_ | apply refillAll_kept | apply pumpPages_kept | apply pumpReads_kept
    | split

end Sys2Proof.Machine
end

