-- ==== Sys2Proof/Laws/KeptRest.lean ====
section
/-! SUPPORT. Every operation keeps what `Kept` says, one lemma for each: the rows of the other groups and the events. -/

namespace Sys2Proof.Machine

/-! ### IntervalCommands -/

theorem meanIuConfig_kept {z : State} (c : Cmd) (s : State) (r : Bool) (hz : Kept z s) : Kept z ((meanIuConfig c).run s r) := by
  unfold meanIuConfig
  dsimp only
  with_reducible repeat' first | assumption | simp only [kept_mk, kept_mk_cal] | apply done_kept

theorem cmdIuConfig_kept {z : State} (c : Cmd) (s : State) (hz : Kept z s) : Kept z (cmdIuConfig c s) :=
  mailbox_kept _ _ _ _ (fun _ h => h) (fun _ h => h) (fun s r h => by with_reducible apply meanIuConfig_kept; exact h) hz

theorem execIuConfig_kept {z t : State} (c : Cmd) (s : State) (hz : Kept z s) (h : execIuConfig c s = .next t) : Kept z t := by
  unfold execIuConfig at h
  injection h with h
  subst h
  with_reducible repeat' first | assumption | apply cmdIuConfig_kept

theorem meanIuMeasure_kept {z : State} (c : Cmd) (s : State) (r : Bool) (hz : Kept z s) : Kept z ((meanIuMeasure c).run s r) := by
  unfold meanIuMeasure
  dsimp only
  with_reducible repeat' first | assumption | apply accept_kept | apply addJob_kept

theorem cmdIuMeasure_kept {z : State} (c : Cmd) (s : State) (hz : Kept z s) : Kept z (cmdIuMeasure c s) :=
  mailbox_kept _ _ _ _ (fun _ h => h) (fun _ h => h) (fun s r h => by with_reducible apply meanIuMeasure_kept; exact h) hz

theorem execIuMeasure_kept {z t : State} (c : Cmd) (s : State) (hz : Kept z s) (h : execIuMeasure c s = .next t) : Kept z t := by
  unfold execIuMeasure at h
  injection h with h
  subst h
  with_reducible repeat' first | assumption | apply cmdIuMeasure_kept

theorem meanIuCalibrate_kept {z : State} (c : Cmd) (s : State) (r : Bool)
    (hz : Kept z s) : Kept z ((meanIuCalibrate c).run s r) := by
  unfold meanIuCalibrate
  dsimp only
  with_reducible repeat' first | assumption | apply State.wrFld_kept | apply accept_kept | apply addJob_kept | split

theorem cmdIuCalibrate_kept {z : State} (c : Cmd) (s : State) (hz : Kept z s) : Kept z (cmdIuCalibrate c s) :=
  mailbox_kept _ _ _ _ (fun _ h => h) (fun _ h => h) (fun s r h => by with_reducible apply meanIuCalibrate_kept; exact h) hz

theorem execIuCalibrate_kept {z t : State} (c : Cmd) (s : State)
    (hz : Kept z s) (h : execIuCalibrate c s = .next t) : Kept z t := by
  unfold execIuCalibrate at h
  injection h with h
  subst h
  with_reducible repeat' first | assumption | apply cmdIuCalibrate_kept

theorem meanIuQuery_kept {z : State} (c : Cmd) (s : State) (r : Bool) (hz : Kept z s) : Kept z ((meanIuQuery c).run s r) := by
  unfold meanIuQuery
  dsimp only
  with_reducible repeat' first | assumption | apply done_kept | split

theorem cmdIuQuery_kept {z : State} (c : Cmd) (s : State) (hz : Kept z s) : Kept z (cmdIuQuery c s) :=
  mailbox_kept _ _ _ _ (fun _ h => h) (fun _ h => h) (fun s r h => by with_reducible apply meanIuQuery_kept; exact h) hz

theorem execIuQuery_kept {z t : State} (c : Cmd) (s : State) (hz : Kept z s) (h : execIuQuery c s = .next t) : Kept z t := by
  unfold execIuQuery at h
  injection h with h
  subst h
  with_reducible repeat' first | assumption | apply cmdIuQuery_kept

theorem meanIuSetAge_kept {z : State} (c : Cmd) (s : State) (r : Bool) (hz : Kept z s) : Kept z ((meanIuSetAge c).run s r) := by
  unfold meanIuSetAge
  dsimp only
  with_reducible repeat' first
    | assumption | simp only [kept_mk, kept_mk_cal] | apply State.wr_kept | apply done_kept | apply updateCorr_kept

theorem cmdIuSetAge_kept {z : State} (c : Cmd) (s : State) (hz : Kept z s) : Kept z (cmdIuSetAge c s) :=
  mailbox_kept _ _ _ _ (fun _ h => h) (fun _ h => h) (fun s r h => by with_reducible apply meanIuSetAge_kept; exact h) hz

theorem execIuSetAge_kept {z t : State} (c : Cmd) (s : State) (hz : Kept z s) (h : execIuSetAge c s = .next t) : Kept z t := by
  unfold execIuSetAge at h
  injection h with h
  subst h
  with_reducible repeat' first | assumption | apply cmdIuSetAge_kept

theorem execIuCtrlGo_kept {z t : State} (path : Path) (s : State)
    (hz : Kept z s) (h : execIuCtrlGo path s = .next t) : Kept z t := by
  unfold execIuCtrlGo at h
  injection h with h
  subst h
  with_reducible repeat' first | assumption | apply accessWrite_kept

theorem execIuCtrlCalGo_kept {z t : State} (path : Path) (s : State)
    (hz : Kept z s) (h : execIuCtrlCalGo path s = .next t) : Kept z t := by
  unfold execIuCtrlCalGo at h
  injection h with h
  subst h
  with_reducible repeat' first | assumption | apply accessWrite_kept

theorem execIuStartEdge_kept {z t : State} (src : Fin 5) (falling : Bool) (coarse : Nat) (code : BitVec 10) (s : State)
    (hz : Kept z s) (h : execIuStartEdge src falling coarse code s = .next t) : Kept z t := by
  unfold execIuStartEdge at h
  injection h with h
  subst h
  with_reducible repeat' first | assumption | apply iuClock_kept | apply iuStart_kept | split

theorem execIuStopEdge_kept {z t : State} (src : Fin 5) (falling : Bool) (coarse : Nat) (code : BitVec 10) (s : State)
    (hz : Kept z s) (h : execIuStopEdge src falling coarse code s = .next t) : Kept z t := by
  unfold execIuStopEdge at h
  injection h with h
  subst h
  with_reducible repeat' first | assumption | apply iuClock_kept | apply iuStop_kept | split

theorem execIuMeasurementEnd_kept {z t : State} (s : State) (hz : Kept z s) (h : execIuMeasurementEnd s = .next t) : Kept z t := by
  unfold execIuMeasurementEnd at h
  injection h with h
  subst h
  with_reducible repeat' first | assumption | apply iuReport_kept | split

theorem execIuCalibrationEnd_kept {z t : State} (hits : List Nat) (s : State)
    (hz : Kept z s) (h : execIuCalibrationEnd hits s = .next t) : Kept z t := by
  unfold execIuCalibrationEnd at h
  injection h with h
  subst h
  with_reducible repeat' first | assumption | apply iuCalStep_kept | split

theorem execIuTempUpdate_kept {z t : State} (temp : BitVec 8) (s : State)
    (hz : Kept z s) (h : execIuTempUpdate temp s = .next t) : Kept z t := by
  unfold execIuTempUpdate at h
  injection h with h
  subst h
  with_reducible repeat' first | assumption | apply iuTemp_kept | split

/-! ### TwoWireCommands -/

theorem bootStatusRead_kept {z : State} (s : State) (count : Nat) (hz : Kept z s) : Kept z (bootStatusRead s count) := by
  unfold bootStatusRead
  with_reducible repeat' first | assumption | simp only [kept_mk, kept_mk_cal] | split

theorem execTwBootStatusRead_kept {z t : State} (count : Nat) (s : State)
    (hz : Kept z s) (h : execTwBootStatusRead count s = .next t) : Kept z t := by
  unfold execTwBootStatusRead at h
  injection h with h
  subst h
  with_reducible repeat' first | assumption | apply bootStatusRead_kept | split

theorem execTwPreReadyWrite_kept {z t : State} (s : State) (hz : Kept z s) (h : execTwPreReadyWrite s = .next t) : Kept z t := by
  unfold execTwPreReadyWrite at h
  injection h with h
  subst h
  with_reducible repeat' first | assumption | simp only [kept_mk, kept_mk_cal] | split

theorem setPointer_kept {z : State} (s : State) (p2 p1 p0 : Byte) (hz : Kept z s) : Kept z (setPointer s p2 p1 p0) := by
  unfold setPointer
  with_reducible repeat' first | assumption | simp only [kept_mk, kept_mk_cal] | split

theorem execTwPointerWrite_kept {z t : State} (p2 p1 p0 : Byte) (s : State)
    (hz : Kept z s) (h : execTwPointerWrite p2 p1 p0 s = .next t) : Kept z t := by
  unfold execTwPointerWrite at h
  injection h with h
  subst h
  with_reducible repeat' first | assumption | apply setPointer_kept | split

theorem writeWord_kept {z : State} (s : State) (d : Word) (hz : Kept z s) : Kept z (writeWord s d) := by
  unfold writeWord
  with_reducible repeat' first | assumption | simp only [kept_mk, kept_mk_cal] | apply accessWrite_kept | split

theorem execTwWordWrite_kept {z t : State} (data : Word) (s : State)
    (hz : Kept z s) (h : execTwWordWrite data s = .next t) : Kept z t := by
  unfold execTwWordWrite at h
  injection h with h
  subst h
  with_reducible repeat' first | assumption | apply writeWord_kept | split

theorem readWord_kept {z : State} (s : State) (hz : Kept z s) : Kept z (readWord s) := by
  unfold readWord
  with_reducible repeat' first
    | assumption | simp only [kept_mk, kept_mk_cal] | apply State.setPath_kept | apply accessRead_kept | split

theorem execTwWordRead_kept {z t : State} (s : State) (hz : Kept z s) (h : execTwWordRead s = .next t) : Kept z t := by
  unfold execTwWordRead at h
  injection h with h
  subst h
  with_reducible repeat' first | assumption | apply readWord_kept | split

theorem stretchOver_kept {z : State} (s : State) (hz : Kept z s) : Kept z (stretchOver s) := by
  unfold stretchOver
  with_reducible repeat' first
    | assumption | simp only [kept_mk, kept_mk_cal] | apply State.setQueue_kept | apply State.bumpQCnt_kept | apply holdLo_kept
    | split

theorem execTwStretchTimeout_kept {z t : State} (s : State) (hz : Kept z s) (h : execTwStretchTimeout s = .next t) : Kept z t := by
  unfold execTwStretchTimeout at h
  injection h with h
  subst h
  with_reducible repeat' first | assumption | apply stretchOver_kept | split

theorem execTwAddressWake_kept {z t : State} (s : State) (hz : Kept z s) (h : execTwAddressWake s = .next t) : Kept z t := by
  unfold execTwAddressWake at h
  injection h with h
  subst h
  with_reducible repeat' first | assumption | simp only [kept_mk, kept_mk_cal] | apply wakeFor_kept | split

theorem busStop_kept {z : State} (s : State) (bytes : List Byte) (hz : Kept z s) : Kept z (busStop s bytes) := by
  unfold busStop
  with_reducible repeat' first
    | assumption | simp only [kept_mk, kept_mk_cal] | apply twStop_kept | apply releaseXfers_kept | apply busWrite_kept | split

theorem execTwBusStop_kept {z t : State} (partialBytes : List Byte) (s : State)
    (hz : Kept z s) (h : execTwBusStop partialBytes s = .next t) : Kept z t := by
  unfold execTwBusStop at h
  injection h with h
  subst h
  with_reducible repeat' first | assumption | apply busStop_kept | split

theorem sendNow_kept {z : State} (s : State) (out : XferOut) (hz : Kept z s) : Kept z (sendNow s out) := by
  unfold sendNow
  with_reducible repeat' first | assumption | simp only [kept_mk, kept_mk_cal] | apply sendAlert_kept | split

theorem execAlertSend_kept {z t : State} (out : XferOut) (s : State)
    (hz : Kept z s) (h : execAlertSend out s = .next t) : Kept z t := by
  unfold execAlertSend at h
  injection h with h
  subst h
  with_reducible repeat' first | assumption | apply sendNow_kept

theorem winnerTakes_kept {z : State} (s : State) (winner : BitVec 8) (serves : Bool)
    (hz : Kept z s) : Kept z (winnerTakes s winner serves) := by
  unfold winnerTakes
  with_reducible repeat' first | assumption | simp only [kept_mk, kept_mk_cal]

theorem execTwArbitrationLoss_kept {z t : State} (winner : BitVec 8) (s : State)
    (hz : Kept z s) (h : execTwArbitrationLoss winner s = .next t) : Kept z t := by
  unfold execTwArbitrationLoss at h
  injection h with h
  subst h
  with_reducible repeat' first | assumption | simp only [kept_mk, kept_mk_cal] | apply sendNow_kept | apply winnerTakes_kept | split

theorem execTwControllerTimeout_kept {z t : State} (s : State)
    (hz : Kept z s) (h : execTwControllerTimeout s = .next t) : Kept z t := by
  unfold execTwControllerTimeout at h
  injection h with h
  subst h
  with_reducible repeat' first | assumption | apply sendNow_kept

theorem execTwStuck_kept {z t : State} (s : State) (hz : Kept z s) (h : execTwStuck s = .next t) : Kept z t := by
  unfold execTwStuck at h
  injection h with h
  subst h
  with_reducible repeat' first | assumption | simp only [kept_mk, kept_mk_cal] | apply raiseFault_kept | split

theorem execAlertWaitExpiry_kept {z t : State} (s : State) (hz : Kept z s) (h : execAlertWaitExpiry s = .next t) : Kept z t := by
  unfold execAlertWaitExpiry at h
  injection h with h
  subst h
  with_reducible repeat' first | assumption | apply twChoose_kept | split

theorem endBackoff_kept {z : State} (s : State) (hz : Kept z s) : Kept z (endBackoff s) := by
  unfold endBackoff
  with_reducible repeat' first | assumption | simp only [kept_mk, kept_mk_cal] | apply setCState_kept | apply twKick_kept | split

theorem execBackoffExpiry_kept {z t : State} (out : XferOut) (s : State)
    (hz : Kept z s) (h : execBackoffExpiry out s = .next t) : Kept z t := by
  unfold execBackoffExpiry at h
  injection h with h
  subst h
  try lift_lets
  with_reducible repeat' first
    | (intro x; first
        | (have hx : Kept z x := by
             dsimp only [x]
             with_reducible repeat' first
               | assumption | apply releaseXfers_kept | apply sendNow_kept | apply endBackoff_kept | split
           clear_value x)
        | (have hx : Kept z x.2 := by
             dsimp only [x]
             with_reducible repeat' first
               | assumption | apply releaseXfers_kept | apply sendNow_kept | apply endBackoff_kept | split
           clear_value x)
        | clear_value x)
    | assumption | apply releaseXfers_kept | apply sendNow_kept | apply endBackoff_kept | split | lift_lets | intro _

theorem meanTwConfig_kept {z : State} (c : Cmd) (s : State) (r : Bool) (hz : Kept z s) : Kept z ((meanTwConfig c).run s r) := by
  unfold meanTwConfig
  dsimp only
  with_reducible repeat' first
    | assumption | simp only [kept_mk, kept_mk_cal] | refine State.each_kept (fun _ _ _ => ?_) ?_ | apply State.wr_kept
    | apply setCState_kept | apply twKick_kept | apply done_kept | apply applyReg_kept | apply releaseXfers_kept
    | apply endBackoff_kept | split

theorem cmdTwConfig_kept {z : State} (c : Cmd) (s : State) (hz : Kept z s) : Kept z (cmdTwConfig c s) :=
  mailbox_kept _ _ _ _ (fun _ h => h) (fun _ h => h) (fun s r h => by with_reducible apply meanTwConfig_kept; exact h) hz

theorem execTwConfig_kept {z t : State} (c : Cmd) (s : State) (hz : Kept z s) (h : execTwConfig c s = .next t) : Kept z t := by
  unfold execTwConfig at h
  injection h with h
  subst h
  with_reducible repeat' first | assumption | apply cmdTwConfig_kept

theorem meanTwAlertRead_kept {z : State} (c : Cmd) (s : State) (r : Bool)
    (hz : Kept z s) : Kept z ((meanTwAlertRead c).run s r) := by
  unfold meanTwAlertRead
  dsimp only
  with_reducible repeat' first | assumption | apply done_kept | apply removedAlerts_kept

theorem cmdTwAlertRead_kept {z : State} (c : Cmd) (s : State) (hz : Kept z s) : Kept z (cmdTwAlertRead c s) :=
  mailbox_kept _ _ _ _ (fun _ h => h) (fun _ h => h) (fun s r h => by with_reducible apply meanTwAlertRead_kept; exact h) hz

theorem execTwAlertRead_kept {z t : State} (c : Cmd) (s : State)
    (hz : Kept z s) (h : execTwAlertRead c s = .next t) : Kept z t := by
  unfold execTwAlertRead at h
  injection h with h
  subst h
  with_reducible repeat' first | assumption | apply cmdTwAlertRead_kept

theorem meanTwXfer_kept {z : State} (c : Cmd) (outs : List XferOut) (s : State) (r : Bool)
    (hz : Kept z s) : Kept z ((meanTwXfer c outs).run s r) := by
  unfold meanTwXfer
  dsimp only
  with_reducible repeat' first | assumption | simp only [kept_mk, kept_mk_cal] | apply accept_kept | apply performXfer_kept | split

theorem cmdTwXfer_kept {z : State} (c : Cmd) (outs : List XferOut) (s : State) (hz : Kept z s) : Kept z (cmdTwXfer c outs s) :=
  mailbox_kept _ _ _ _ (fun _ h => h) (fun _ h => h) (fun s r h => by with_reducible apply meanTwXfer_kept; exact h) hz

theorem execTwXfer_kept {z t : State} (c : Cmd) (outs : List XferOut) (s : State)
    (hz : Kept z s) (h : execTwXfer c outs s = .next t) : Kept z t := by
  unfold execTwXfer at h
  injection h with h
  subst h
  with_reducible repeat' first | assumption | apply cmdTwXfer_kept

theorem meanTwQuery_kept {z : State} (c : Cmd) (s : State) (r : Bool) (hz : Kept z s) : Kept z ((meanTwQuery c).run s r) := by
  unfold meanTwQuery
  dsimp only
  with_reducible repeat' first | assumption | apply done_kept

theorem cmdTwQuery_kept {z : State} (c : Cmd) (s : State) (hz : Kept z s) : Kept z (cmdTwQuery c s) :=
  mailbox_kept _ _ _ _ (fun _ h => h) (fun _ h => h) (fun s r h => by with_reducible apply meanTwQuery_kept; exact h) hz

theorem execTwQuery_kept {z t : State} (c : Cmd) (s : State) (hz : Kept z s) (h : execTwQuery c s = .next t) : Kept z t := by
  unfold execTwQuery at h
  injection h with h
  subst h
  with_reducible repeat' first | assumption | apply cmdTwQuery_kept

theorem execTwAlertRdLoRead_kept {z t : State} (path : Path) (s : State)
    (hz : Kept z s) (h : execTwAlertRdLoRead path s = .next t) : Kept z t := by
  unfold execTwAlertRdLoRead at h
  injection h with h
  subst h
  with_reducible repeat' first | assumption | apply accessRead_kept

/-! ### FaultCommands -/

theorem meanFltList_kept {z : State} (c : Cmd) (s : State) (r : Bool) (hz : Kept z s) : Kept z ((meanFltList c).run s r) := by
  unfold meanFltList
  dsimp only
  with_reducible repeat' first | assumption | apply done_kept

theorem cmdFltList_kept {z : State} (c : Cmd) (s : State) (hz : Kept z s) : Kept z (cmdFltList c s) :=
  mailbox_kept _ _ _ _ (fun _ h => h) (fun _ h => h) (fun s r h => by with_reducible apply meanFltList_kept; exact h) hz

theorem execFltList_kept {z t : State} (c : Cmd) (s : State) (hz : Kept z s) (h : execFltList c s = .next t) : Kept z t := by
  unfold execFltList at h
  injection h with h
  subst h
  with_reducible repeat' first | assumption | apply cmdFltList_kept

theorem meanRefInservice_kept {z : State} (c : Cmd) (s : State) (r : Bool)
    (hz : Kept z s) : Kept z ((meanRefInservice c).run s r) := by
  unfold meanRefInservice
  dsimp only
  with_reducible repeat' first | assumption | apply done_kept

theorem cmdRefInservice_kept {z : State} (c : Cmd) (s : State) (hz : Kept z s) : Kept z (cmdRefInservice c s) :=
  mailbox_kept _ _ _ _ (fun _ h => h) (fun _ h => h) (fun s r h => by with_reducible apply meanRefInservice_kept; exact h) hz

theorem execRefInservice_kept {z t : State} (c : Cmd) (s : State)
    (hz : Kept z s) (h : execRefInservice c s = .next t) : Kept z t := by
  unfold execRefInservice at h
  injection h with h
  subst h
  with_reducible repeat' first | assumption | apply cmdRefInservice_kept

theorem meanRefTest_kept {z : State} (c : Cmd) (s : State) (r : Bool) (hz : Kept z s) : Kept z ((meanRefTest c).run s r) := by
  unfold meanRefTest
  dsimp only
  with_reducible repeat' first | assumption | apply requestTest_kept | apply accept_kept

theorem cmdRefTest_kept {z : State} (c : Cmd) (s : State) (hz : Kept z s) : Kept z (cmdRefTest c s) :=
  mailbox_kept _ _ _ _ (fun _ h => h) (fun _ h => h) (fun s r h => by with_reducible apply meanRefTest_kept; exact h) hz

theorem execRefTest_kept {z t : State} (c : Cmd) (s : State) (hz : Kept z s) (h : execRefTest c s = .next t) : Kept z t := by
  unfold execRefTest at h
  injection h with h
  subst h
  with_reducible repeat' first | assumption | apply cmdRefTest_kept

theorem toProbation_kept {z : State} (s : State) (r : Word) (hz : Kept z s) : Kept z (toProbation s r) := by
  unfold toProbation
  with_reducible repeat' first
    | assumption | simp only [kept_mk, kept_mk_cal] | apply State.setLane_kept | apply postLaneState_kept | split

theorem meanRefReturn_kept {z : State} (c : Cmd) (s : State) (r : Bool) (hz : Kept z s) : Kept z ((meanRefReturn c).run s r) := by
  unfold meanRefReturn
  dsimp only
  with_reducible repeat' first | assumption | apply requestTest_kept | apply accept_kept | apply toProbation_kept

theorem cmdRefReturn_kept {z : State} (c : Cmd) (s : State) (hz : Kept z s) : Kept z (cmdRefReturn c s) :=
  mailbox_kept _ _ _ _ (fun _ h => h) (fun _ h => h) (fun s r h => by with_reducible apply meanRefReturn_kept; exact h) hz

theorem execRefReturn_kept {z t : State} (c : Cmd) (s : State) (hz : Kept z s) (h : execRefReturn c s = .next t) : Kept z t := by
  unfold execRefReturn at h
  injection h with h
  subst h
  with_reducible repeat' first | assumption | apply cmdRefReturn_kept

theorem execRefTestCtlGo_kept {z t : State} (path : Path) (s : State)
    (hz : Kept z s) (h : execRefTestCtlGo path s = .next t) : Kept z t := by
  unfold execRefTestCtlGo at h
  injection h with h
  subst h
  with_reducible repeat' first | assumption | apply accessWrite_kept

theorem execRefereeTestStart_kept {z t : State} (type : Fin 8) (s : State)
    (hz : Kept z s) (h : execRefereeTestStart type s = .next t) : Kept z t := by
  unfold execRefereeTestStart at h
  injection h with h
  subst h
  with_reducible repeat' first | assumption | apply startTest_kept

theorem execRefereeVerdict_kept {z t : State} (type : Fin 8) (pass : Bool) (s : State)
    (hz : Kept z s) (h : execRefereeVerdict type pass s = .next t) : Kept z t := by
  unfold execRefereeVerdict at h
  injection h with h
  subst h
  with_reducible repeat' first | assumption | apply endTest_kept | split

theorem execSramEcc_kept {z t : State} (bank : Fin 96) (double : Bool) (s : State)
    (hz : Kept z s) (h : execSramEcc bank double s = .next t) : Kept z t := by
  unfold execSramEcc at h
  injection h with h
  subst h
  with_reducible repeat' first | assumption | apply State.bumpWrap_kept | apply raiseFault_kept | split

theorem hangEngine_kept {z : State} (s : State) (e : Nat) (hz : Kept z s) : Kept z (hangEngine s e) := by
  unfold hangEngine
  with_reducible repeat' first
    | assumption | simp only [kept_mk, kept_mk_cal] | apply raiseFault_kept | apply State.setJob_kept | apply preempt_kept
    | apply iuDiscard_kept | split

theorem execEngHang_kept {z t : State} (e : Fin 9) (s : State) (hz : Kept z s) (h : execEngHang e s = .next t) : Kept z t := by
  unfold execEngHang at h
  injection h with h
  subst h
  with_reducible repeat' first | assumption | apply hangEngine_kept | split

theorem execResourceRejoin_kept {z t : State} (res : Word) (s : State)
    (hz : Kept z s) (h : execResourceRejoin res s = .next t) : Kept z t := by
  unfold execResourceRejoin at h
  injection h with h
  subst h
  with_reducible repeat' first | assumption | apply reachBoundary_kept | split

theorem execParityScrub_kept {z t : State} (upsets : List Upset) (s : State)
    (hz : Kept z s) (h : execParityScrub upsets s = .next t) : Kept z t := by
  unfold execParityScrub at h
  injection h with h
  subst h
  with_reducible repeat' first
    | assumption | refine State.each_kept (fun _ _ _ => ?_) ?_ | apply scrubParity_kept | apply flipBit_kept | split

/-! ### CalendarCommands -/

theorem meanCalSet_kept {z : State} (c : Cmd) (s : State) (r : Bool) (hz : Kept z s) : Kept z ((meanCalSet c).run s r) := by
  unfold meanCalSet
  dsimp only
  with_reducible repeat' first | assumption | simp only [kept_mk, kept_mk_cal] | apply State.wr_kept | apply requestCommit_kept

theorem cmdCalSet_kept {z : State} (c : Cmd) (s : State) (hz : Kept z s) : Kept z (cmdCalSet c s) :=
  mailbox_kept _ _ _ _ (fun _ h => h) (fun _ h => h) (fun s r h => by with_reducible apply meanCalSet_kept; exact h) hz

theorem execCalSet_kept {z t : State} (c : Cmd) (s : State) (hz : Kept z s) (h : execCalSet c s = .next t) : Kept z t := by
  unfold execCalSet at h
  injection h with h
  subst h
  with_reducible repeat' first | assumption | apply cmdCalSet_kept

theorem meanCalGet_kept {z : State} (c : Cmd) (s : State) (r : Bool) (hz : Kept z s) : Kept z ((meanCalGet c).run s r) := by
  unfold meanCalGet
  dsimp only
  with_reducible repeat' first | assumption | apply done_kept

theorem cmdCalGet_kept {z : State} (c : Cmd) (s : State) (hz : Kept z s) : Kept z (cmdCalGet c s) :=
  mailbox_kept _ _ _ _ (fun _ h => h) (fun _ h => h) (fun s r h => by with_reducible apply meanCalGet_kept; exact h) hz

theorem execCalGet_kept {z t : State} (c : Cmd) (s : State) (hz : Kept z s) (h : execCalGet c s = .next t) : Kept z t := by
  unfold execCalGet at h
  injection h with h
  subst h
  with_reducible repeat' first | assumption | apply cmdCalGet_kept

theorem execCalCommit_kept {z t : State} (path : Path) (data : Word) (s : State)
    (hz : Kept z s) (h : execCalCommit path data s = .next t) : Kept z t := by
  unfold execCalCommit at h
  injection h with h
  subst h
  with_reducible repeat' first | assumption | apply accessWrite_kept

theorem execCalendarReadLatch_kept {z t : State} (path : Path) (lin : Bool) (s : State)
    (hz : Kept z s) (h : execCalendarReadLatch path lin s = .next t) : Kept z t := by
  unfold execCalendarReadLatch at h
  injection h with h
  subst h
  with_reducible repeat' first | assumption | apply accessRead_kept | split

theorem execCalendarDateChange_kept {z t : State} (s : State)
    (hz : Kept z s) (h : execCalendarDateChange s = .next t) : Kept z t := by
  unfold execCalendarDateChange at h
  injection h with h
  subst h
  with_reducible repeat' first | assumption | simp only [kept_mk, kept_mk_cal] | apply updateCorr_kept | split

/-! ### PowerCommands -/

theorem setPowerCtrl_kept {z : State} (s : State) (c : Cmd) (hz : Kept z s) : Kept z (setPowerCtrl s c) := by
  unfold setPowerCtrl
  with_reducible repeat' first | assumption | apply State.wr_kept

theorem meanPowerEnter_kept {z : State} (c : Cmd) (s : State) (r : Bool) (hz : Kept z s) : Kept z ((meanPowerEnter c).run s r) := by
  unfold meanPowerEnter
  dsimp only
  with_reducible repeat' first
    | assumption | simp only [kept_mk, kept_mk_cal] | apply done_kept | apply requestEntry_kept | apply setPowerCtrl_kept | split

theorem cmdPowerEnter_kept {z : State} (c : Cmd) (s : State) (hz : Kept z s) : Kept z (cmdPowerEnter c s) :=
  mailbox_kept _ _ _ _ (fun _ h => h) (fun _ h => h) (fun s r h => by with_reducible apply meanPowerEnter_kept; exact h) hz

theorem execPowerEnter_kept {z t : State} (c : Cmd) (s : State) (hz : Kept z s) (h : execPowerEnter c s = .next t) : Kept z t := by
  unfold execPowerEnter at h
  injection h with h
  subst h
  with_reducible repeat' first | assumption | apply cmdPowerEnter_kept

theorem execPwrEnterWrite_kept {z t : State} (path : Path) (data : Word) (s : State)
    (hz : Kept z s) (h : execPwrEnterWrite path data s = .next t) : Kept z t := by
  unfold execPwrEnterWrite at h
  injection h with h
  subst h
  with_reducible repeat' first | assumption | apply accessWrite_kept

theorem execPowerEntryStart_kept {z t : State} (s : State) (hz : Kept z s) (h : execPowerEntryStart s = .next t) : Kept z t := by
  unfold execPowerEntryStart at h
  injection h with h
  subst h
  with_reducible repeat' first | assumption | apply startEntry_kept

theorem meanPowerQuery_kept {z : State} (c : Cmd) (s : State) (r : Bool) (hz : Kept z s) : Kept z ((meanPowerQuery c).run s r) := by
  unfold meanPowerQuery
  dsimp only
  with_reducible repeat' first | assumption | apply done_kept

theorem cmdPowerQuery_kept {z : State} (c : Cmd) (s : State) (hz : Kept z s) : Kept z (cmdPowerQuery c s) :=
  mailbox_kept _ _ _ _ (fun _ h => h) (fun _ h => h) (fun s r h => by with_reducible apply meanPowerQuery_kept; exact h) hz

theorem execPowerQuery_kept {z t : State} (c : Cmd) (s : State) (hz : Kept z s) (h : execPowerQuery c s = .next t) : Kept z t := by
  unfold execPowerQuery at h
  injection h with h
  subst h
  with_reducible repeat' first | assumption | apply cmdPowerQuery_kept

theorem meanDstSetRules_kept {z : State} (c : Cmd) (s : State) (r : Bool)
    (hz : Kept z s) : Kept z ((meanDstSetRules c).run s r) := by
  unfold meanDstSetRules
  dsimp only
  with_reducible repeat' first | assumption | refine State.each_kept (fun _ _ _ => ?_) ?_ | apply State.wr_kept | apply done_kept

theorem cmdDstSetRules_kept {z : State} (c : Cmd) (s : State) (hz : Kept z s) : Kept z (cmdDstSetRules c s) :=
  mailbox_kept _ _ _ _ (fun _ h => h) (fun _ h => h) (fun s r h => by with_reducible apply meanDstSetRules_kept; exact h) hz

theorem execDstSetRules_kept {z t : State} (c : Cmd) (s : State)
    (hz : Kept z s) (h : execDstSetRules c s = .next t) : Kept z t := by
  unfold execDstSetRules at h
  injection h with h
  subst h
  with_reducible repeat' first | assumption | apply cmdDstSetRules_kept

theorem meanDstSetInputs_kept {z : State} (c : Cmd) (s : State) (r : Bool)
    (hz : Kept z s) : Kept z ((meanDstSetInputs c).run s r) := by
  unfold meanDstSetInputs
  dsimp only
  with_reducible repeat' first | assumption | refine State.each_kept (fun _ _ _ => ?_) ?_ | apply State.wr_kept | apply done_kept

theorem cmdDstSetInputs_kept {z : State} (c : Cmd) (s : State) (hz : Kept z s) : Kept z (cmdDstSetInputs c s) :=
  mailbox_kept _ _ _ _ (fun _ h => h) (fun _ h => h) (fun s r h => by with_reducible apply meanDstSetInputs_kept; exact h) hz

theorem execDstSetInputs_kept {z t : State} (c : Cmd) (s : State)
    (hz : Kept z s) (h : execDstSetInputs c s = .next t) : Kept z t := by
  unfold execDstSetInputs at h
  injection h with h
  subst h
  with_reducible repeat' first | assumption | apply cmdDstSetInputs_kept

theorem meanDstCounters_kept {z : State} (c : Cmd) (s : State) (r : Bool)
    (hz : Kept z s) : Kept z ((meanDstCounters c).run s r) := by
  unfold meanDstCounters
  dsimp only
  with_reducible repeat' first
    | assumption | refine State.each_kept (fun _ _ _ => ?_) ?_ | apply writeCounter_kept | apply done_kept | split

theorem cmdDstCounters_kept {z : State} (c : Cmd) (s : State) (hz : Kept z s) : Kept z (cmdDstCounters c s) :=
  mailbox_kept _ _ _ _ (fun _ h => h) (fun _ h => h) (fun s r h => by with_reducible apply meanDstCounters_kept; exact h) hz

theorem execDstCounters_kept {z t : State} (c : Cmd) (s : State)
    (hz : Kept z s) (h : execDstCounters c s = .next t) : Kept z t := by
  unfold execDstCounters at h
  injection h with h
  subst h
  with_reducible repeat' first | assumption | apply cmdDstCounters_kept

theorem meanDstReadLog_kept {z : State} (c : Cmd) (s : State) (r : Bool) (hz : Kept z s) : Kept z ((meanDstReadLog c).run s r) := by
  unfold meanDstReadLog
  dsimp only
  with_reducible repeat' first | assumption | apply done_kept | apply writeRptr_kept | split

theorem cmdDstReadLog_kept {z : State} (c : Cmd) (s : State) (hz : Kept z s) : Kept z (cmdDstReadLog c s) :=
  mailbox_kept _ _ _ _ (fun _ h => h) (fun _ h => h) (fun s r h => by with_reducible apply meanDstReadLog_kept; exact h) hz

theorem execDstReadLog_kept {z t : State} (c : Cmd) (s : State) (hz : Kept z s) (h : execDstReadLog c s = .next t) : Kept z t := by
  unfold execDstReadLog at h
  injection h with h
  subst h
  with_reducible repeat' first | assumption | apply cmdDstReadLog_kept

theorem execDstReadLogConsume_kept {z t : State} (c : Cmd) (s : State)
    (hz : Kept z s) (h : execDstReadLogConsume c s = .next t) : Kept z t := by
  unfold execDstReadLogConsume at h
  injection h with h
  subst h
  with_reducible repeat' first | assumption | apply cmdDstReadLog_kept

theorem execDstLogRptrWrite_kept {z t : State} (path : Path) (data : Word) (s : State)
    (hz : Kept z s) (h : execDstLogRptrWrite path data s = .next t) : Kept z t := by
  unfold execDstLogRptrWrite at h
  injection h with h
  subst h
  with_reducible repeat' first | assumption | apply accessWrite_kept

theorem execDistaffEdgeLatch_kept {z t : State} (w : Fin 16) (falling : Bool) (s : State)
    (hz : Kept z s) (h : execDistaffEdgeLatch w falling s = .next t) : Kept z t := by
  unfold execDistaffEdgeLatch at h
  injection h with h
  subst h
  with_reducible repeat' first | assumption | simp only [kept_mk, kept_mk_cal] | split

theorem execDistaffTick_kept {z t : State} (mv : List Int) (s : State)
    (hz : Kept z s) (h : execDistaffTick mv s = .next t) : Kept z t := by
  unfold execDistaffTick at h
  injection h with h
  subst h
  with_reducible repeat' first | assumption | apply aonTick_kept | apply partResetDue_kept | apply romDue_kept

theorem execWakeTimerMatch_kept {z t : State} (s : State) (hz : Kept z s) (h : execWakeTimerMatch s = .next t) : Kept z t := by
  unfold execWakeTimerMatch at h
  injection h with h
  subst h
  with_reducible repeat' first | assumption | apply wakeFor_kept | split

theorem execWakeComplete_kept {z t : State} (s : State) (hz : Kept z s) (h : execWakeComplete s = .next t) : Kept z t := by
  unfold execWakeComplete at h
  injection h with h
  subst h
  with_reducible repeat' first | assumption | apply finishWake_kept | apply fastReset_kept | split

/-! ### RegisterCommands -/

theorem execRegisterWrite_kept {z t : State} (path : Path) (addr : BitVec 16) (data : Word) (s : State)
    (hz : Kept z s) (h : execRegisterWrite path addr data s = .next t) : Kept z t := by
  unfold execRegisterWrite at h
  injection h with h
  subst h
  with_reducible repeat' first | assumption | apply accessWrite_kept

theorem execCrossDomainAccess_kept {z t : State} (path : Path) (addr : BitVec 20) (data : Option Word) (s : State)
    (hz : Kept z s) (h : execCrossDomainAccess path addr data s = .next t) : Kept z t := by
  unfold execCrossDomainAccess at h
  injection h with h
  subst h
  with_reducible repeat' first
    | assumption | simp only [kept_mk, kept_mk_cal] | apply accessRead_kept | apply accessWrite_kept | split

theorem execSetAliasWrite_kept {z t : State} (path : Path) (addr : BitVec 16) (data : Word) (s : State)
    (hz : Kept z s) (h : execSetAliasWrite path addr data s = .next t) : Kept z t := by
  unfold execSetAliasWrite at h
  injection h with h
  subst h
  with_reducible repeat' first | assumption | apply accessWrite_kept

theorem execClearAliasWrite_kept {z t : State} (path : Path) (addr : BitVec 16) (data : Word) (s : State)
    (hz : Kept z s) (h : execClearAliasWrite path addr data s = .next t) : Kept z t := by
  unfold execClearAliasWrite at h
  injection h with h
  subst h
  with_reducible repeat' first | assumption | apply accessWrite_kept

theorem execToggleAliasWrite_kept {z t : State} (path : Path) (addr : BitVec 16) (data : Word) (s : State)
    (hz : Kept z s) (h : execToggleAliasWrite path addr data s = .next t) : Kept z t := by
  unfold execToggleAliasWrite at h
  injection h with h
  subst h
  with_reducible repeat' first | assumption | apply accessWrite_kept

theorem execAccumulatorLoRead_kept {z t : State} (path : Path) (addr : BitVec 16) (s : State)
    (hz : Kept z s) (h : execAccumulatorLoRead path addr s = .next t) : Kept z t := by
  unfold execAccumulatorLoRead at h
  injection h with h
  subst h
  with_reducible repeat' first | assumption | apply accessRead_kept

theorem execAccumulatorLoWrite_kept {z t : State} (path : Path) (addr : BitVec 16) (data : Word) (s : State)
    (hz : Kept z s) (h : execAccumulatorLoWrite path addr data s = .next t) : Kept z t := by
  unfold execAccumulatorLoWrite at h
  injection h with h
  subst h
  with_reducible repeat' first | assumption | apply accessWrite_kept

theorem execAccumulatorHiWrite_kept {z t : State} (path : Path) (addr : BitVec 16) (data : Word) (s : State)
    (hz : Kept z s) (h : execAccumulatorHiWrite path addr data s = .next t) : Kept z t := by
  unfold execAccumulatorHiWrite at h
  injection h with h
  subst h
  with_reducible repeat' first | assumption | apply accessWrite_kept

theorem execQWrLo_kept {z t : State} (path : Path) (q : Fin 66) (data : Word) (s : State)
    (hz : Kept z s) (h : execQWrLo path q data s = .next t) : Kept z t := by
  unfold execQWrLo at h
  injection h with h
  subst h
  with_reducible repeat' first | assumption | apply accessWrite_kept

theorem execQWrHi_kept {z t : State} (path : Path) (q : Fin 66) (data : Word) (s : State)
    (hz : Kept z s) (h : execQWrHi path q data s = .next t) : Kept z t := by
  unfold execQWrHi at h
  injection h with h
  subst h
  with_reducible repeat' first | assumption | apply accessWrite_kept

theorem execQWrHim_kept {z t : State} (path : Path) (q : Fin 66) (data : Word) (s : State)
    (hz : Kept z s) (h : execQWrHim path q data s = .next t) : Kept z t := by
  unfold execQWrHim at h
  injection h with h
  subst h
  with_reducible repeat' first | assumption | apply accessWrite_kept

theorem execQRdLo_kept {z t : State} (path : Path) (q : Fin 66) (s : State)
    (hz : Kept z s) (h : execQRdLo path q s = .next t) : Kept z t := by
  unfold execQRdLo at h
  injection h with h
  subst h
  with_reducible repeat' first | assumption | apply accessRead_kept

theorem execQueueFlush_kept {z t : State} (path : Path) (q : Fin 66) (s : State)
    (hz : Kept z s) (h : execQueueFlush path q s = .next t) : Kept z t := by
  unfold execQueueFlush at h
  injection h with h
  subst h
  with_reducible repeat' first | assumption | apply accessWrite_kept

theorem endStretch_kept {z : State} (s : State) (hz : Kept z s) : Kept z (endStretch s) := by
  unfold endStretch
  with_reducible repeat' first | assumption | simp only [kept_mk, kept_mk_cal] | split

theorem pushCompletes_kept {z : State} (s : State) (q : Nat) (hz : Kept z s) : Kept z (pushCompletes s q) := by
  unfold pushCompletes
  dsimp only
  with_reducible repeat' first
    | assumption | apply completeHost_kept | apply resumeRequest_kept | apply endStretch_kept | split | intro _

theorem execQueuePushComplete_kept {z t : State} (q : Fin 68) (s : State)
    (hz : Kept z s) (h : execQueuePushComplete q s = .next t) : Kept z t := by
  unfold execQueuePushComplete at h
  injection h with h
  subst h
  with_reducible repeat' first | assumption | apply pushCompletes_kept | split

theorem execWlockTimeout_kept {z t : State} (q : Fin 66) (s : State)
    (hz : Kept z s) (h : execWlockTimeout q s = .next t) : Kept z t := by
  unfold execWlockTimeout at h
  injection h with h
  subst h
  with_reducible repeat' first | assumption | simp only [kept_mk, kept_mk_cal] | apply State.setQueue_kept | split

theorem collectAdmin_kept {z : State} (s : State) (hz : Kept z s) : Kept z (collectAdmin s) := by
  unfold collectAdmin
  with_reducible repeat' first
    | assumption | simp only [kept_mk, kept_mk_cal] | apply State.setQueue_kept | apply State.setStream_kept | split

theorem execQueueWordFall_kept {z t : State} (q : Fin 68) (fall : QueueFall) (s : State)
    (hz : Kept z s) (h : execQueueWordFall q fall s = .next t) : Kept z t := by
  unfold execQueueWordFall at h
  injection h with h
  subst h
  with_reducible repeat' first | assumption | apply fallQueue_kept | apply collectAdmin_kept | split

/-! ### MailboxCommands -/

theorem dropWords_kept {z : State} (s : State) (st : Stream) (k : Nat) (hz : Kept z s) : Kept z (dropWords s st k) := by
  unfold dropWords
  with_reducible repeat' first | assumption | apply State.setStream_kept

theorem frameTimeout_kept {z : State} (s : State) (st : Stream) (hz : Kept z s) : Kept z (frameTimeout s st) := by
  unfold frameTimeout
  dsimp only
  with_reducible repeat' first | assumption | apply respond_kept | apply mark_kept | apply dropWords_kept | split | intro _

theorem execCommandFrameTimeout_kept {z t : State} (st : Stream) (s : State)
    (hz : Kept z s) (h : execCommandFrameTimeout st s = .next t) : Kept z t := by
  unfold execCommandFrameTimeout at h
  injection h with h
  subst h
  with_reducible repeat' first | assumption | apply frameTimeout_kept

theorem discardUnnamed_kept {z : State} (s : State) (st : Stream) (k : Nat) (hz : Kept z s) : Kept z (discardUnnamed s st k) := by
  unfold discardUnnamed
  with_reducible repeat' first | assumption | simp only [kept_mk, kept_mk_cal] | apply postEvent_kept | apply dropWords_kept | split

theorem discardPoisoned_kept {z : State} (s : State) (st : Stream) (hz : Kept z s) : Kept z (discardPoisoned s st) := by
  unfold discardPoisoned
  with_reducible repeat' first
    | assumption | simp only [kept_mk, kept_mk_cal] | apply respond_kept | apply mark_kept | apply dropWords_kept
    | apply discardUnnamed_kept | split

theorem execCmdDiscarded_kept {z t : State} (st : Stream) (s : State)
    (hz : Kept z s) (h : execCmdDiscarded st s = .next t) : Kept z t := by
  unfold execCmdDiscarded at h
  injection h with h
  subst h
  with_reducible repeat' first | assumption | apply discardPoisoned_kept

theorem waitingTimeout_kept {z : State} (s : State) (st : Stream) (tag : BitVec 8) (d : Nat) (hz : Kept z s) :
    OptKept z id (waitingTimeout s st tag d) := by
  unfold waitingTimeout
  split
  · split
    · exact optKept_some (respond_kept _ _ _ _ _ _ _ (takeCommand_kept _ _ _ hz))
    · exact optKept_none
  · dsimp only
    split
    · refine optKept_some (respond_kept _ _ _ _ _ _ _ ?_)
      simp only [kept_mk_cal]
      exact hz
    · refine optKept_some (respond_kept _ _ _ _ _ _ _ ?_)
      simp only [kept_mk]
      exact hz
    · intro t ht
      obtain ⟨a, _, rfl⟩ := Option.map_eq_some_iff.1 ht
      exact respond_kept _ _ _ _ _ _ _ (State.setSeqr_kept _ _ hz)

theorem dropData_kept {z : State} (s : State) (st : Stream) (tag : BitVec 8) (hz : Kept z s) : Kept z (dropData s st tag) := by
  unfold dropData
  with_reducible repeat' first
    | assumption | simp only [kept_mk, kept_mk_cal] | refine foldl_kept (fun _ _ _ => ?_) ?_
    | refine foldl_snd_kept (fun _ _ _ => ?_) ?_ | apply State.setEndpoint_kept | apply freeStaging_kept | split

theorem dropTest_kept {z : State} (s : State) (st : Stream) (tag : BitVec 8) (hz : Kept z s) : Kept z (dropTest s st tag) := by
  unfold dropTest
  with_reducible repeat' first | assumption | simp only [kept_mk, kept_mk_cal] | split

theorem lateTest_kept {z : State} (s : State) (st : Stream) (tag : BitVec 8) (d : Nat)
    (hz : Kept z s) : Kept z (lateTest s st tag d) := by
  unfold lateTest
  with_reducible repeat' first | assumption | simp only [kept_mk, kept_mk_cal] | split

theorem acceptedTimeout_kept {z : State} (s : State) (st : Stream) (a : Accepted) (d : Nat)
    (hz : Kept z s) : Kept z (acceptedTimeout s st a d) := by
  unfold acceptedTimeout
  with_reducible repeat' first
    | assumption | simp only [kept_mk, kept_mk_cal] | apply completeCode_kept | apply tellStop_kept | apply dropData_kept
    | apply dropTest_kept | apply lateTest_kept | split

theorem framesTimeout_kept {z : State} (s : State) (st : Stream) (tag : BitVec 8) (d : Nat) (hz : Kept z s) :
    OptKept z id (framesTimeout s st tag d) := by
  unfold framesTimeout
  dsimp only
  split
  · exact optKept_some (respond_kept _ _ _ _ _ _ _ (dropWords_kept _ _ _ hz))
  · exact optKept_none

theorem deadlineOver_kept {z : State} (s : State) (st : Stream) (tag : BitVec 8) (elapsed : Nat)
    (hz : Kept z s) : Kept z (deadlineOver s st tag elapsed) := by
  unfold deadlineOver
  dsimp only
  split
  · exact hz
  · split
    · exact kept_of_opt (by assumption) (optKept_or (framesTimeout_kept _ _ _ _ hz) (waitingTimeout_kept _ _ _ _ hz))
    · split
      · exact acceptedTimeout_kept _ _ _ _ hz
      · exact hz

theorem execCommandDeadline_kept {z t : State} (st : Stream) (tag : BitVec 8) (elapsed : Nat) (s : State)
    (hz : Kept z s) (h : execCommandDeadline st tag elapsed s = .next t) : Kept z t := by
  unfold execCommandDeadline at h
  injection h with h
  subst h
  with_reducible repeat' first | assumption | apply deadlineOver_kept

theorem execResponseBacklogWrite_kept {z t : State} (st : Stream) (s : State)
    (hz : Kept z s) (h : execResponseBacklogWrite st s = .next t) : Kept z t := by
  unfold execResponseBacklogWrite at h
  injection h with h
  subst h
  with_reducible repeat' first
    | assumption | simp only [kept_mk, kept_mk_cal] | apply pumpResponse_kept | apply writeAdminFrame_kept | split

theorem execEventBacklogWrite_kept {z t : State} (n : Fin 8) (s : State)
    (hz : Kept z s) (h : execEventBacklogWrite n s = .next t) : Kept z t := by
  unfold execEventBacklogWrite at h
  injection h with h
  subst h
  with_reducible repeat' first | assumption | apply writeBacklog_kept

/-! ### Replay -/

theorem readLogPages_kept {z : State} (s : State) (num : Nat) (hz : Kept z s) : Kept z (readLogPages s num) := by
  unfold readLogPages
  with_reducible repeat' first | assumption | refine State.each_kept (fun _ _ _ => ?_) ?_ | apply readPage_kept

theorem logSlot_kept {z : State} (s : State) (hz : Kept z s) : OptKept z (fun r => r.2.2) (logSlot s) := by
  have fresh : OptKept z (fun r => r.2.2) (s.logLanes.findSome? fun x => (drawHank s x (.log s.rpl.log)).map fun r =>
      (x, r.1 * 4096, { r.2 with rpl := { r.2.rpl with openHank := some (x, r.1) } })) := by
    refine optKept_findSome fun x => optKept_map (drawHank_kept _ _ _ hz) fun a h => ?_
    simp only [kept_mk]
    exact h
  unfold logSlot
  dsimp only
  split
  · exact fresh
  · split
    · exact optKept_some hz
    · exact fresh

theorem programLog_kept {z : State} (s : State) (hz : Kept z s) : OptKept z id (programLog s) := by
  unfold programLog
  refine optKept_map (logSlot_kept s hz) fun a h => ?_
  simp only [id, kept_mk]
  exact State.setLane_kept _ _ h

theorem programAll_kept {z : State} (s : State) (all : Bool) (k0 : Nat) (hz : Kept z s) : Kept z (programAll s all k0) := by
  induction k0 generalizing s all with
  | zero => exact hz
  | succ k ih =>
    unfold programAll
    with_reducible repeat' first
      | assumption | simp only [kept_mk, kept_mk_cal] | apply logSlot_kept | apply programLog_kept
      | refine kept_of_opt (by assumption) ?_ | refine kept_of_opt3 (by assumption) ?_ | with_reducible apply ih | split

theorem stageFrom_kept {z : State} (s : State) (n : Nat) (hz : Kept z s) : Kept z (stageFrom s n) := by
  unfold stageFrom
  with_reducible repeat' first | assumption | simp only [kept_mk, kept_mk_cal] | apply deliverMany_kept

theorem stageEntries_kept {z : State} (s : State) (k0 : Nat) (hz : Kept z s) : Kept z (stageEntries s k0) := by
  induction k0 generalizing s with
  | zero => exact hz
  | succ k ih =>
    unfold stageEntries
    with_reducible repeat' first
      | assumption | simp only [kept_mk, kept_mk_cal] | apply stageFrom_kept | with_reducible apply ih | split

theorem refillQueues_kept {z : State} (s : State) (k0 : Nat) (hz : Kept z s) : Kept z (refillQueues s k0) := by
  induction k0 generalizing s with
  | zero => exact hz
  | succ k ih =>
    unfold refillQueues
    with_reducible repeat' first
      | assumption | simp only [kept_mk, kept_mk_cal] | apply pushRecord_kept | with_reducible apply ih | split

theorem drainQueues_kept {z : State} (s : State) (k0 : Nat) (hz : Kept z s) : Kept z (drainQueues s k0) := by
  induction k0 generalizing s with
  | zero => exact hz
  | succ k ih =>
    unfold drainQueues
    with_reducible repeat' first
      | assumption | refine State.each_kept (fun _ _ _ => ?_) ?_ | apply settleQueue_kept | apply stageEntries_kept
      | apply refillQueues_kept | with_reducible apply ih | split

theorem postRecorded_kept {z : State} (s : State) (mask on : Nat) (hz : Kept z s) : Kept z (postRecorded s mask on) := by
  unfold postRecorded
  with_reducible repeat' first | assumption | refine State.each_kept (fun _ _ _ => ?_) ?_ | apply postEvent_kept

theorem startRecording_kept {z : State} (s : State) (cfg : Word) (mask num : Nat)
    (hz : Kept z s) : Kept z (startRecording s cfg mask num) := by
  unfold startRecording
  with_reducible repeat' first | assumption | simp only [kept_mk, kept_mk_cal] | apply State.wr_kept | apply postRecorded_kept

theorem stopRecording_kept {z : State} (s : State) (hz : Kept z s) : Kept z (stopRecording s) := by
  unfold stopRecording
  with_reducible repeat' first
    | assumption | simp only [kept_mk, kept_mk_cal] | apply State.setLane_kept | apply postRecorded_kept | split

theorem writeGap_kept {z : State} (s : State) (hz : Kept z s) : Kept z (writeGap s) := by
  unfold writeGap
  with_reducible repeat' first
    | assumption | simp only [kept_mk, kept_mk_cal] | refine State.each_kept (fun _ _ _ => ?_) ?_ | apply State.setCap_kept
    | apply logPart_kept | split

theorem finishRecording_kept {z : State} (s : State) (hz : Kept z s) : Kept z (finishRecording s) := by
  unfold finishRecording
  with_reducible repeat' first
    | assumption | simp only [kept_mk, kept_mk_cal] | apply programAll_kept | apply drainQueues_kept | apply stopRecording_kept
    | apply writeGap_kept

theorem programStep_kept {z : State} (s : State) (hz : Kept z s) : Kept z (programStep s) := by
  unfold programStep
  with_reducible repeat' first
    | assumption | apply programAll_kept | apply stageEntries_kept | apply refillQueues_kept | apply stopRecording_kept | split

/-! ### RecordCommands -/

theorem deleteLog_kept {z : State} (s : State) (num : Nat) (hz : Kept z s) : Kept z (deleteLog s num) := by
  unfold deleteLog
  with_reducible repeat' first
    | assumption | simp only [kept_mk, kept_mk_cal] | refine State.each_kept (fun _ _ _ => ?_) ?_ | apply State.setLane_kept
    | apply freeHank_kept | split

theorem meanRplRecord_kept {z : State} (c : Cmd) (s : State) (r : Bool) (hz : Kept z s) : Kept z ((meanRplRecord c).run s r) := by
  unfold meanRplRecord
  dsimp only
  with_reducible repeat' first
    | assumption | apply respondUnseen_kept | apply done_kept | apply startRecording_kept | apply deleteLog_kept | split

theorem cmdRplRecord_kept {z : State} (c : Cmd) (s : State) (hz : Kept z s) : Kept z (cmdRplRecord c s) :=
  mailbox_kept _ _ _ _ (fun _ h => h) (fun _ h => h) (fun s r h => by with_reducible apply meanRplRecord_kept; exact h) hz

theorem execRplRecord_kept {z t : State} (c : Cmd) (s : State) (hz : Kept z s) (h : execRplRecord c s = .next t) : Kept z t := by
  unfold execRplRecord at h
  injection h with h
  subst h
  with_reducible repeat' first | assumption | apply cmdRplRecord_kept

theorem execRplRecordDelete_kept {z t : State} (c : Cmd) (s : State)
    (hz : Kept z s) (h : execRplRecordDelete c s = .next t) : Kept z t := by
  unfold execRplRecordDelete at h
  injection h with h
  subst h
  with_reducible repeat' first | assumption | apply cmdRplRecord_kept

theorem meanRplStatus_kept {z : State} (c : Cmd) (s : State) (r : Bool) (hz : Kept z s) : Kept z ((meanRplStatus c).run s r) := by
  unfold meanRplStatus
  dsimp only
  with_reducible repeat' first | assumption | apply done_kept

theorem cmdRplStatus_kept {z : State} (c : Cmd) (s : State) (hz : Kept z s) : Kept z (cmdRplStatus c s) :=
  mailbox_kept _ _ _ _ (fun _ h => h) (fun _ h => h) (fun s r h => by with_reducible apply meanRplStatus_kept; exact h) hz

theorem execRplStatus_kept {z t : State} (c : Cmd) (s : State) (hz : Kept z s) (h : execRplStatus c s = .next t) : Kept z t := by
  unfold execRplStatus at h
  injection h with h
  subst h
  with_reducible repeat' first | assumption | apply cmdRplStatus_kept

theorem stopMboron_kept {z : State} (s : State) (hz : Kept z s) : Kept z (stopMboron s) := by
  unfold stopMboron
  with_reducible repeat' first | assumption | simp only [kept_mk, kept_mk_cal] | apply finishRecording_kept | split

theorem meanRplStop_kept {z : State} (c : Cmd) (s : State) (r : Bool) (hz : Kept z s) : Kept z ((meanRplStop c).run s r) := by
  unfold meanRplStop
  dsimp only
  with_reducible repeat' first | assumption | apply done_kept | apply stopMboron_kept

theorem cmdRplStop_kept {z : State} (c : Cmd) (s : State) (hz : Kept z s) : Kept z (cmdRplStop c s) :=
  mailbox_kept _ _ _ _ (fun _ h => h) (fun _ h => h) (fun s r h => by with_reducible apply meanRplStop_kept; exact h) hz

theorem execRplStop_kept {z t : State} (c : Cmd) (s : State) (hz : Kept z s) (h : execRplStop c s = .next t) : Kept z t := by
  unfold execRplStop at h
  injection h with h
  subst h
  with_reducible repeat' first | assumption | apply cmdRplStop_kept

theorem execReplayLogProgram_kept {z t : State} (s : State) (hz : Kept z s) (h : execReplayLogProgram s = .next t) : Kept z t := by
  unfold execReplayLogProgram at h
  injection h with h
  subst h
  with_reducible repeat' first | assumption | apply programStep_kept

theorem execRecorderGap_kept {z t : State} (s : State) (hz : Kept z s) (h : execRecorderGap s = .next t) : Kept z t := by
  unfold execRecorderGap at h
  injection h with h
  subst h
  with_reducible repeat' first | assumption | apply writeGap_kept | split

/-! ### ReplayRun -/

theorem setReplayRx_kept {z : State} (s : State) (st : Stream) (ws : List QWord)
    (hz : Kept z s) : Kept z (setReplayRx s st ws) := by
  unfold setReplayRx
  with_reducible repeat' first | assumption | simp only [kept_mk, kept_mk_cal]

theorem handWord_kept {z : State} (s : State) (e : LogEntry) (hz : Kept z s) : Kept z (handWord s e) := by
  unfold handWord
  with_reducible repeat' first | assumption | apply mark_kept | apply setReplayRx_kept | split

theorem replayOpsLow_kept {z : State} : ∀ p ∈ replayOpsLow, ∀ (c : Cmd) (s : State), Kept z s → Kept z (p.2 c s) := by
  simp only [replayOpsLow, List.cons_append, List.nil_append, List.forall_mem_cons, List.not_mem_nil, false_implies,
    implies_true, and_true]
  refine ⟨fun c s h => cmdBenchOpen_kept c s h,
    fun c s h => cmdBenchClose_kept c s h,
    fun c s h => cmdBenchReset_kept c s h,
    fun c s h => cmdBenchStatus_kept c s h,
    fun c s h => cmdCapsQuery_kept c s h,
    fun c s h => cmdAccountsQuery_kept c s h,
    fun c s h => cmdBenchControl_kept c s h,
    fun c s h => cmdPodAssign_kept c s h,
    fun c s h => cmdPlyMembership_kept c s h,
    fun c s h => cmdFeSetPod_kept c s h,
    fun c s h => cmdFeSetMode_kept c s h,
    fun c s h => cmdFeQuery_kept c s h,
    fun c s h => cmdFeHealth_kept c none s h,
    fun c s h => cmdFeDeskew_kept c s h,
    fun c s h => cmdTrgSetLevel_kept c s h,
    fun c s h => cmdTrgSetResource_kept c s h,
    fun c s h => cmdTrgQuery_kept c s h,
    fun c s h => cmdTrgForce_kept c s h,
    fun c s h => cmdRelayEnable_kept c s h,
    fun c s h => cmdCapArm_kept c s h,
    fun c s h => cmdCapStop_kept c s h,
    fun c s h => cmdCapConfig_kept c s h,
    fun c s h => cmdSknList_kept c s h,
    fun c s h => cmdSknRead_kept c s h,
    fun c s h => cmdSknDelete_kept c s h,
    fun c s h => cmdBobbinLend_kept c s h,
    fun c s h => cmdCmpConfig_kept c s h,
    fun c s h => cmdCmpExport_kept c s h,
    fun c s h => cmdCmpVerify_kept c s h,
    fun c s h => cmdCmpFlush_kept c s h,
    fun c s h => cmdCmpQuery_kept c s h,
    fun c s h => cmdSlQuery_kept c s h,
    fun c s h => cmdSlStream_kept c s h,
    fun c s h => cmdSlRead_kept c s h,
    fun c s h => cmdSlFormat_kept c s h,
    fun c s h => cmdSlScrub_kept c s h,
    fun c s h => cmdSlBbtRead_kept c s h⟩

theorem replayOpsHigh_kept {z : State} : ∀ p ∈ replayOpsHigh, ∀ (c : Cmd) (s : State), Kept z s → Kept z (p.2 c s) := by
  simp only [replayOpsHigh, List.cons_append, List.nil_append, List.forall_mem_cons, List.not_mem_nil, false_implies,
    implies_true, and_true]
  refine ⟨fun c s h => cmdSearchJob_kept c s h,
    fun c s h => cmdDecodeJob_kept c s h,
    fun c s h => cmdJobCancel_kept c s h,
    fun c s h => cmdEngQuery_kept c s h,
    fun c s h => cmdPlyConfig_kept c s h,
    fun c s h => cmdRegulatorSet_kept c s h,
    fun c s h => cmdIuConfig_kept c s h,
    fun c s h => cmdIuMeasure_kept c s h,
    fun c s h => cmdIuCalibrate_kept c s h,
    fun c s h => cmdIuQuery_kept c s h,
    fun c s h => cmdIuSetAge_kept c s h,
    fun c s h => cmdTwConfig_kept c s h,
    fun c s h => cmdTwAlertRead_kept c s h,
    fun c s h => cmdTwQuery_kept c s h,
    fun c s h => cmdCalSet_kept c s h,
    fun c s h => cmdCalGet_kept c s h,
    fun c s h => cmdFltList_kept c s h,
    fun c s h => cmdRefInservice_kept c s h,
    fun c s h => cmdRefTest_kept c s h,
    fun c s h => cmdRefReturn_kept c s h,
    fun c s h => cmdRplRecord_kept c s h,
    fun c s h => cmdRplStatus_kept c s h,
    fun c s h => cmdPowerEnter_kept c s h,
    fun c s h => cmdPowerQuery_kept c s h,
    fun c s h => cmdDstSetRules_kept c s h,
    fun c s h => cmdDstSetInputs_kept c s h,
    fun c s h => cmdDstReadLog_kept c s h,
    fun c s h => cmdDstCounters_kept c s h,
    fun c s h => cmdAdminOpen_kept c s h,
    fun c s h => cmdAdminClose_kept c s h,
    fun c s h => cmdSetCredential_kept c s h,
    fun c s h => cmdOpenBenchEnter_kept c s h,
    fun c s h => cmdOpenBenchLeave_kept c s h,
    fun c s h => cmdRegLogRead_kept c s h,
    fun c s h => cmdRegRead_kept c s h,
    fun c s h => cmdRegWrite_kept c s h,
    fun c s h => cmdFwLoadBegin_kept c s h,
    fun c s h => cmdFwLoadData_kept c s h,
    fun c s h => cmdPartReset_kept c s h⟩

theorem replayXfer_kept {z : State} (s : State) (c : Cmd) (hz : Kept z s) : Kept z (replayXfer s c) := by
  unfold replayXfer
  with_reducible repeat' first | assumption | simp only [kept_mk, kept_mk_cal] | apply cmdTwXfer_kept

theorem replayCommit_kept {z : State} (s : State) (c : Cmd) (hz : Kept z s) : Kept z (replayCommit s c) := by
  unfold replayCommit
  with_reducible repeat' first | assumption | apply State.draw_kept | apply cmdFwLoadCommit_kept

theorem runReplayed_kept {z : State} (s : State) (op : BitVec 16) (c : Cmd) (hz : Kept z s) : Kept z (runReplayed s op c) := by
  unfold runReplayed
  split
  · exact replayXfer_kept _ _ hz
  · split
    · exact replayCommit_kept _ _ hz
    · split
      · rename_i p hp
        have hm := List.mem_of_find?_eq_some hp
        rcases List.mem_append.1 hm with h | h
        · exact replayOpsLow_kept p h c s hz
        · exact replayOpsHigh_kept p h c s hz
      · exact mailbox_kept _ _ _ _ (fun _ h => h) (fun _ h => h) (fun _ _ h => h) hz

theorem takeEntry_kept {z : State} (s : State) (e : LogEntry) (hz : Kept z s) : Kept z (takeEntry s e) := by
  unfold takeEntry
  with_reducible repeat' first
    | assumption | simp only [kept_mk, kept_mk_cal] | apply setReplayRx_kept | apply runReplayed_kept | split

theorem umpEntry_kept {z : State} (s : State) (e : LogEntry) (hz : Kept z s) : Kept z (umpEntry s e) := by
  unfold umpEntry
  with_reducible repeat' first
    | assumption | simp only [kept_mk, kept_mk_cal] | apply State.setEngine_kept | apply diverge_kept | apply choose_kept
    | apply giveEngine_kept | apply iuBegin_kept | split

theorem replayTestMarker_kept {z : State} (s : State) (ch : Nat) (hz : Kept z s) : Kept z (replayTestMarker s ch) := by
  unfold replayTestMarker
  with_reducible repeat' first | assumption | apply State.draw_kept | apply markTest_kept

theorem injectLet_kept {z : State} (s : State) (res : Word) (code : Nat) (hz : Kept z s) : Kept z (injectLet s res code) := by
  unfold injectLet
  with_reducible repeat' first
    | assumption | simp only [kept_mk, kept_mk_cal] | apply wakeJobs_kept | apply postStuck_kept | apply postSelfcheck_kept | split

theorem injectRetire_kept {z : State} (s : State) (res : Word) (code : Nat) (requested : Bool)
    (hz : Kept z s) : Kept z (injectRetire s res code requested) := by
  unfold injectRetire
  with_reducible repeat' first
    | assumption | simp only [kept_mk, kept_mk_cal] | refine State.each_kept (fun _ _ _ => ?_) ?_ | apply postEvent_kept
    | apply refreshFaulted_kept | apply retireEffect_kept | apply postSelfcheck_kept | split

theorem injectRejoin_kept {z : State} (s : State) (res : Word) (hz : Kept z s) : Kept z (injectRejoin s res) := by
  unfold injectRejoin
  with_reducible repeat' first
    | assumption | simp only [kept_mk, kept_mk_cal] | refine State.each_kept (fun _ _ _ => ?_) ?_ | apply postEvent_kept
    | apply rejoinEffect_kept | split

theorem injectVerdict_kept {z : State} (s : State) (e : LogEntry) (hz : Kept z s) : Kept z (injectVerdict s e) := by
  unfold injectVerdict
  with_reducible repeat' first
    | assumption | simp only [kept_mk, kept_mk_cal] | apply postFault_kept | apply answerTest_kept | apply replayTestMarker_kept
    | apply injectLet_kept | apply injectRetire_kept | apply injectRejoin_kept | split

theorem refEntry_kept {z : State} (s : State) (e : LogEntry) (hz : Kept z s) : Kept z (refEntry s e) := by
  unfold refEntry
  with_reducible repeat' first
    | assumption | simp only [kept_mk, kept_mk_cal] | apply State.bumpSat_kept | apply diverge_kept | apply wakeJobs_kept
    | apply injectVerdict_kept | split

theorem presentSample_kept {z : State} (s : State) (n t : Nat) (ws : List Word)
    (hz : Kept z s) : Kept z (presentSample s n t ws) := by
  unfold presentSample
  with_reducible repeat' first
    | assumption | simp only [kept_mk, kept_mk_cal] | apply State.setCap_kept | apply runDue_kept | apply takeSample_kept | split

theorem heldSamples_kept {z : State} (s : State) (n t : Nat) (k0 : Nat) (hz : Kept z s) : Kept z (heldSamples s n t k0) := by
  induction k0 generalizing s n t with
  | zero => exact hz
  | succ k ih =>
    unfold heldSamples
    with_reducible repeat' first
      | assumption | simp only [kept_mk, kept_mk_cal] | apply presentSample_kept | with_reducible apply ih | split

theorem holdAll_kept {z : State} (s : State) (t : Nat) (hz : Kept z s) : Kept z (holdAll s t) := by
  unfold holdAll
  with_reducible repeat' first | assumption | refine State.each_kept (fun _ _ _ => ?_) ?_ | apply heldSamples_kept

theorem sampleEntry_kept {z : State} (s : State) (e : LogEntry) (hz : Kept z s) : Kept z (sampleEntry s e) := by
  unfold sampleEntry
  with_reducible repeat' first | assumption | simp only [kept_mk, kept_mk_cal] | apply presentSample_kept | split

theorem substitute_kept {z : State} (s : State) (n : Nat) (recs : List (List Word))
    (hz : Kept z s) : Kept z (substitute s n recs) := by
  unfold substitute
  with_reducible repeat' first
    | assumption | simp only [kept_mk, kept_mk_cal] | apply State.bumpSat_kept | apply State.bumpWrap_kept
    | apply deliverRecords_kept | split

theorem recordEntry_kept {z : State} (s : State) (e : LogEntry) (hz : Kept z s) : Kept z (recordEntry s e) := by
  unfold recordEntry
  with_reducible repeat' first | assumption | simp only [kept_mk, kept_mk_cal] | apply complete_kept | apply substitute_kept | split

theorem restoreWord_kept {z : State} (s : State) (a : Nat) (w : Word) (hz : Kept z s) : Kept z (restoreWord s a w) := by
  unfold restoreWord
  with_reducible repeat' first | assumption | apply State.setRegWord_kept

theorem restoreAct_kept {z : State} (s : State) (a : Nat) (w : Word) (hz : Kept z s) : Kept z (restoreAct s a w) := by
  unfold restoreAct
  with_reducible repeat' first | assumption | apply State.setActWord_kept

theorem regEntry_kept {z : State} (s : State) (e : LogEntry) (hz : Kept z s) : Kept z (regEntry s e) := by
  unfold regEntry
  with_reducible repeat' first
    | assumption | simp only [kept_mk, kept_mk_cal] | apply accessWrite_kept | apply restoreWord_kept | apply restoreAct_kept
    | split

theorem markEntry_kept {z : State} (s : State) (e : LogEntry) (hz : Kept z s) : Kept z (markEntry s e) := by
  unfold markEntry
  with_reducible repeat' first | assumption | simp only [kept_mk, kept_mk_cal] | apply diverge_kept | split

theorem applyEntry_kept {z : State} (s : State) (e : LogEntry) (hz : Kept z s) : Kept z (applyEntry s e) := by
  unfold applyEntry
  with_reducible repeat' first
    | assumption | simp only [kept_mk, kept_mk_cal] | apply State.setSess_kept | apply distaffArm_kept | apply handWord_kept
    | apply takeEntry_kept | apply umpEntry_kept | apply refEntry_kept | apply sampleEntry_kept | apply recordEntry_kept
    | apply regEntry_kept | apply markEntry_kept | split

theorem injectTick_kept {z : State} (s : State) (t : Nat) (k0 : Nat) (hz : Kept z s) : Kept z (injectTick s t k0) := by
  induction k0 generalizing s t with
  | zero => exact hz
  | succ k ih =>
    unfold injectTick
    with_reducible repeat' first
      | assumption | simp only [kept_mk, kept_mk_cal] | apply applyEntry_kept | with_reducible apply ih | split

theorem compareItems_kept {z : State} (s : State) (hz : Kept z s) : Kept z (compareItems s) := by
  unfold compareItems
  with_reducible repeat' first
    | assumption | simp only [kept_mk, kept_mk_cal] | refine State.each_kept (fun _ _ _ => ?_) ?_ | apply compareItem_kept

theorem injectNext_kept {z : State} (s : State) (hz : Kept z s) : Kept z (injectNext s) := by
  unfold injectNext
  with_reducible repeat' first
    | assumption | simp only [kept_mk, kept_mk_cal] | refine State.each_kept (fun _ _ _ => ?_) ?_ | apply State.addAcc_kept
    | apply diverge_kept | apply wakeJobs_kept | apply holdAll_kept | apply injectTick_kept | apply compareItems_kept | split

theorem missCheck_kept {z : State} (s : State) (e : LogEntry) (hz : Kept z s) : Kept z (missCheck s e) := by
  unfold missCheck
  with_reducible repeat' first | assumption | simp only [kept_mk, kept_mk_cal] | apply diverge_kept

theorem missOne_kept {z : State} (s : State) (source : Nat) (hz : Kept z s) : Kept z (missOne s source) := by
  unfold missOne
  with_reducible repeat' first | assumption | simp only [kept_mk, kept_mk_cal] | apply missCheck_kept | split

theorem startReplay_kept {z : State} (s : State) (st : Stream) (tag : BitVec 8) (num benches until_ : Nat) (cfg : Word)
    (hz : Kept z s) : Kept z (startReplay s st tag num benches until_ cfg) := by
  unfold startReplay
  with_reducible repeat' first | assumption | simp only [kept_mk, kept_mk_cal] | apply State.wr_kept | apply readLogPages_kept

theorem closeReplayed_kept {z : State} (s : State) (n : Nat) (hz : Kept z s) : Kept z (closeReplayed s n) := by
  unfold closeReplayed
  with_reducible repeat' first
    | assumption | simp only [kept_mk, kept_mk_cal] | apply State.setSeqr_kept | apply closeHank_kept | apply startReset_kept
    | apply resetWindow_kept | apply releaseSession_kept | split

theorem restoreRetired_kept {z : State} (s : State) (hz : Kept z s) : Kept z (restoreRetired s) := by
  unfold restoreRetired
  with_reducible repeat' first
    | assumption | simp only [kept_mk, kept_mk_cal] | refine State.each_kept (fun _ _ _ => ?_) ?_ | apply State.setCap_kept
    | apply State.setQueue_kept | apply rejoinQueue_kept | apply refreshFaulted_kept | split

theorem restoreRegs_kept {z : State} (s : State) (hz : Kept z s) : Kept z (restoreRegs s) := by
  unfold restoreRegs
  with_reducible repeat' first
    | assumption | refine State.each_kept (fun _ _ _ => ?_) ?_ | apply restoreWord_kept | apply restoreAct_kept

theorem finishReplay_kept {z : State} (s : State) (hz : Kept z s) : Kept z (finishReplay s) := by
  unfold finishReplay
  with_reducible repeat' first
    | assumption | simp only [kept_mk, kept_mk_cal] | refine State.each_kept (fun _ _ _ => ?_) ?_ | apply completeCode_kept
    | apply dropJob_kept | apply iuPump_kept | apply closeReplayed_kept | apply restoreRetired_kept | apply restoreRegs_kept | split

theorem endReplay_kept {z : State} (s : State) (hz : Kept z s) : Kept z (endReplay s) := by
  unfold endReplay
  with_reducible repeat' first
    | assumption | refine State.each_kept (fun _ _ _ => ?_) ?_ | apply missCheck_kept | apply finishReplay_kept | split

/-! ### ReplayCommands -/

theorem meanRplRun_kept {z : State} (c : Cmd) (s : State) (r : Bool) (hz : Kept z s) : Kept z ((meanRplRun c).run s r) := by
  unfold meanRplRun
  dsimp only
  with_reducible repeat' first | assumption | apply accept_kept | apply startReplay_kept

theorem cmdRplRun_kept {z : State} (c : Cmd) (s : State) (hz : Kept z s) : Kept z (cmdRplRun c s) :=
  mailbox_kept _ _ _ _ (fun _ h => h) (fun _ h => h) (fun s r h => by with_reducible apply meanRplRun_kept; exact h) hz

theorem execRplRun_kept {z t : State} (c : Cmd) (s : State) (hz : Kept z s) (h : execRplRun c s = .next t) : Kept z t := by
  unfold execRplRun at h
  injection h with h
  subst h
  with_reducible repeat' first | assumption | apply cmdRplRun_kept

theorem execReplayInject_kept {z t : State} (s : State) (hz : Kept z s) (h : execReplayInject s = .next t) : Kept z t := by
  unfold execReplayInject at h
  injection h with h
  subst h
  with_reducible repeat' first | assumption | apply injectNext_kept | split

theorem execReplayMissing_kept {z t : State} (source : Byte) (s : State)
    (hz : Kept z s) (h : execReplayMissing source s = .next t) : Kept z t := by
  unfold execReplayMissing at h
  injection h with h
  subst h
  with_reducible repeat' first | assumption | apply missOne_kept

theorem execReplayEnd_kept {z t : State} (s : State) (hz : Kept z s) (h : execReplayEnd s = .next t) : Kept z t := by
  unfold execReplayEnd at h
  injection h with h
  subst h
  with_reducible repeat' first | assumption | apply endReplay_kept | split

/-! ### StartupCommands -/

theorem resetHeld_kept {z : State} (s : State) (cause : BitVec 8) (hz : Kept z s) : Kept z (resetHeld s cause) := by
  unfold resetHeld
  with_reducible repeat' first | assumption | simp only [kept_mk, kept_mk_cal] | apply fastReset_kept | split

theorem execColdReset_kept {z t : State} (s : State) (hz : Kept z s) (h : execColdReset s = .next t) : Kept z t := by
  unfold execColdReset at h
  injection h with h
  subst h
  with_reducible repeat' first | assumption | simp only [kept_mk, kept_mk_cal] | apply coldResetState_kept

theorem execSupplyMonitorReset_kept {z t : State} (_rail : Rail) (s : State)
    (hz : Kept z s) (h : execSupplyMonitorReset _rail s = .next t) : Kept z t := by
  unfold execSupplyMonitorReset at h
  injection h with h
  subst h
  with_reducible repeat' first | assumption | simp only [kept_mk, kept_mk_cal] | apply fastReset_kept

theorem railsRisen_kept {z : State} (s : State) (hz : Kept z s) : Kept z (railsRisen s) := by
  unfold railsRisen
  with_reducible repeat' first | assumption | simp only [kept_mk, kept_mk_cal]

theorem execSupplyRise_kept {z t : State} (rail : RisingRail) (s : State)
    (hz : Kept z s) (h : execSupplyRise rail s = .next t) : Kept z t := by
  unfold execSupplyRise at h
  injection h with h
  subst h
  with_reducible repeat' first
    | assumption | simp only [kept_mk, kept_mk_cal] | apply railsRisen_kept | apply coldResetState_kept | split

theorem execJunctionHot_kept {z t : State} (tj : BitVec 8) (s : State)
    (hz : Kept z s) (h : execJunctionHot tj s = .next t) : Kept z t := by
  unfold execJunctionHot at h
  injection h with h
  subst h
  with_reducible repeat' first | assumption | simp only [kept_mk, kept_mk_cal] | split

theorem execJunctionTrip_kept {z t : State} (s : State) (hz : Kept z s) (h : execJunctionTrip s = .next t) : Kept z t := by
  unfold execJunctionTrip at h
  injection h with h
  subst h
  with_reducible repeat' first | assumption | simp only [kept_mk, kept_mk_cal] | apply resetHeld_kept

theorem execJunctionTripRelease_kept {z t : State} (s : State)
    (hz : Kept z s) (h : execJunctionTripRelease s = .next t) : Kept z t := by
  unfold execJunctionTripRelease at h
  injection h with h
  subst h
  with_reducible repeat' first | assumption | simp only [kept_mk, kept_mk_cal]

theorem execNresetLow_kept {z t : State} (s : State) (hz : Kept z s) (h : execNresetLow s = .next t) : Kept z t := by
  unfold execNresetLow at h
  injection h with h
  subst h
  with_reducible repeat' first | assumption | simp only [kept_mk, kept_mk_cal] | apply resetHeld_kept

theorem execNresetRelease_kept {z t : State} (s : State) (hz : Kept z s) (h : execNresetRelease s = .next t) : Kept z t := by
  unfold execNresetRelease at h
  injection h with h
  subst h
  with_reducible repeat' first | assumption | simp only [kept_mk, kept_mk_cal]

theorem execSurvoWatchdog_kept {z t : State} (s : State) (hz : Kept z s) (h : execSurvoWatchdog s = .next t) : Kept z t := by
  unfold execSurvoWatchdog at h
  injection h with h
  subst h
  with_reducible repeat' first | assumption | apply fastReset_kept | split

theorem execFastDomainResetRelease_kept {z t : State} (straps : Straps) (s : State)
    (hz : Kept z s) (h : execFastDomainResetRelease straps s = .next t) : Kept z t := by
  unfold execFastDomainResetRelease at h
  injection h with h
  subst h
  with_reducible repeat' first | assumption | simp only [kept_mk, kept_mk_cal] | apply fastReset_kept | split

theorem execBootRomRun_kept {z t : State} (a b : Option ImageView) (s : State)
    (hz : Kept z s) (h : execBootRomRun a b s = .next t) : Kept z t := by
  unfold execBootRomRun at h
  injection h with h
  subst h
  with_reducible repeat' first | assumption | apply tryPods_kept | apply runBootRom_kept

theorem execBbtLoaded_kept {z t : State} (a b : LaneProbe) (s : State)
    (hz : Kept z s) (h : execBbtLoaded a b s = .next t) : Kept z t := by
  unfold execBbtLoaded at h
  injection h with h
  subst h
  with_reducible repeat' first | assumption | apply loadTables_kept

theorem execQuietPeriodEnd_kept {z t : State} (s : State) (hz : Kept z s) (h : execQuietPeriodEnd s = .next t) : Kept z t := by
  unfold execQuietPeriodEnd at h
  injection h with h
  subst h
  with_reducible repeat' first | assumption | simp only [kept_mk, kept_mk_cal] | apply setBoot_kept | apply tryPods_kept | split

theorem execPodDiscovery_kept {z t : State} (reads : List PodRead) (s : State)
    (hz : Kept z s) (h : execPodDiscovery reads s = .next t) : Kept z t := by
  unfold execPodDiscovery at h
  injection h with h
  subst h
  with_reducible repeat' first | assumption | apply discoverPods_kept

theorem execReady_kept {z t : State} (s : State) (hz : Kept z s) (h : execReady s = .next t) : Kept z t := by
  unfold execReady at h
  injection h with h
  subst h
  with_reducible repeat' first | assumption | apply becomeReady_kept

theorem execUsbPullupEnable_kept {z t : State} (s : State)
    (hz : Kept z s) (h : execUsbPullupEnable s = .next t) : Kept z t := by
  unfold execUsbPullupEnable at h
  injection h with h
  subst h
  with_reducible repeat' first | assumption | apply attach_kept | split

theorem execVbusChange_kept {z t : State} (high : Bool) (s : State)
    (hz : Kept z s) (h : execVbusChange high s = .next t) : Kept z t := by
  unfold execVbusChange at h
  injection h with h
  subst h
  with_reducible repeat' first | assumption | apply vbusTo_kept

theorem execRecWrite_kept {z t : State} (offset : Nat) (data : List Byte) (s : State)
    (hz : Kept z s) (h : execRecWrite offset data s = .next t) : Kept z t := by
  unfold execRecWrite at h
  injection h with h
  subst h
  with_reducible repeat' first | assumption | apply recoveryWrite_kept | split

theorem execRecBoot_kept {z t : State} (s : State) (hz : Kept z s) (h : execRecBoot s = .next t) : Kept z t := by
  unfold execRecBoot at h
  injection h with h
  subst h
  with_reducible repeat' first | assumption | apply recoveryBoot_kept | split

theorem execRecStatus_kept {z t : State} (s : State) (hz : Kept z s) (h : execRecStatus s = .next t) : Kept z t := by
  unfold execRecStatus at h
  injection h with h
  subst h
  with_reducible repeat' first | assumption | apply recoveryStatus_kept | split

/-! ### UsbCommands -/

theorem busResetSeen_kept {z : State} (s : State) (hz : Kept z s) : Kept z (busResetSeen s) := by
  unfold busResetSeen
  with_reducible repeat' first | assumption | apply State.bumpSat_kept | apply linkLost_kept | apply wakeFor_kept | split

theorem railsFallen_kept {z : State} (s : State) (hz : Kept z s) : Kept z (railsFallen s) := by
  unfold railsFallen
  with_reducible repeat' first | assumption | simp only [kept_mk, kept_mk_cal] | apply dropPullup_kept

theorem execUsbDetach_kept {z t : State} (cause : LinkLoss) (s : State)
    (hz : Kept z s) (h : execUsbDetach cause s = .next t) : Kept z t := by
  unfold execUsbDetach at h
  injection h with h
  subst h
  with_reducible repeat' first
    | assumption | simp only [kept_mk, kept_mk_cal] | apply linkLost_kept | apply busResetSeen_kept | apply railsFallen_kept | split

theorem execUsbEnumeration_kept {z t : State} (superSpeed : Bool) (req : CtlReq) (s : State)
    (hz : Kept z s) (h : execUsbEnumeration superSpeed req s = .next t) : Kept z t := by
  unfold execUsbEnumeration at h
  injection h with h
  subst h
  with_reducible repeat' first | assumption | apply controlRequest_kept

theorem execHsChirpTimeout_kept {z t : State} (s : State) (hz : Kept z s) (h : execHsChirpTimeout s = .next t) : Kept z t := by
  unfold execHsChirpTimeout at h
  injection h with h
  subst h
  with_reducible repeat' first | assumption | simp only [kept_mk, kept_mk_cal] | apply dropPullup_kept | split

theorem execSuperspeedFallback_kept {z t : State} (s : State)
    (hz : Kept z s) (h : execSuperspeedFallback s = .next t) : Kept z t := by
  unfold execSuperspeedFallback at h
  injection h with h
  subst h
  with_reducible repeat' first | assumption | simp only [kept_mk, kept_mk_cal] | split

theorem execUsbSuspend_kept {z t : State} (s : State) (hz : Kept z s) (h : execUsbSuspend s = .next t) : Kept z t := by
  unfold execUsbSuspend at h
  injection h with h
  subst h
  with_reducible repeat' first | assumption | apply suspendLink_kept

theorem execUsbResume_kept {z t : State} (busReset : Bool) (s : State)
    (hz : Kept z s) (h : execUsbResume busReset s = .next t) : Kept z t := by
  unfold execUsbResume at h
  injection h with h
  subst h
  with_reducible repeat' first | assumption | apply resumeLink_kept | apply wakeFor_kept | apply busResetSeen_kept | split

theorem execRemoteWakeup_kept {z t : State} (s : State) (hz : Kept z s) (h : execRemoteWakeup s = .next t) : Kept z t := by
  unfold execRemoteWakeup at h
  injection h with h
  subst h
  with_reducible repeat' first | assumption | apply signalWakeup_kept

theorem execBulkOutFrame_kept {z t : State} (ep : BitVec 8) (words : List Word) (s : State)
    (hz : Kept z s) (h : execBulkOutFrame ep words s = .next t) : Kept z t := by
  unfold execBulkOutFrame at h
  injection h with h
  subst h
  with_reducible repeat' first | assumption | apply bulkOut_kept | split

theorem execBulkOutPartialFrame_kept {z t : State} (ep : BitVec 8) (s : State)
    (hz : Kept z s) (h : execBulkOutPartialFrame ep s = .next t) : Kept z t := by
  unfold execBulkOutPartialFrame at h
  injection h with h
  subst h
  with_reducible repeat' first | assumption | apply partialFrame_kept | split

theorem execBulkInContainer_kept {z t : State} (ep : BitVec 8) (s : State)
    (hz : Kept z s) (h : execBulkInContainer ep s = .next t) : Kept z t := by
  unfold execBulkInContainer at h
  injection h with h
  subst h
  with_reducible repeat' first | assumption | apply bulkIn_kept | split

theorem execClearFeatureEndpointHalt_kept {z t : State} (halt : HaltClear) (s : State)
    (hz : Kept z s) (h : execClearFeatureEndpointHalt halt s = .next t) : Kept z t := by
  unfold execClearFeatureEndpointHalt at h
  injection h with h
  subst h
  with_reducible repeat' first | assumption | apply clearHalt_kept | split

theorem windowReads_kept {z : State} (s : State) (addr : Nat) (k0 : Nat) (hz : Kept z s) : Kept z (windowReads s addr k0).2.2 := by
  induction k0 generalizing s addr with
  | zero => exact hz
  | succ k ih =>
    unfold windowReads
    dsimp only
    with_reducible repeat' first | assumption | apply busRead_kept | with_reducible apply ih | split | intro _

theorem execUsbRegRead_kept {z t : State} (wValue wIndex wLength : BitVec 16) (s : State)
    (hz : Kept z s) (h : execUsbRegRead wValue wIndex wLength s = .next t) : Kept z t := by
  unfold execUsbRegRead at h
  injection h with h
  subst h
  with_reducible repeat' first
    | assumption | apply setStall_kept | apply busError_kept | apply windowDone_kept | apply windowReads_kept | split

theorem execUsbRegWrite_kept {z t : State} (wValue wIndex wLength : BitVec 16) (data : List Word) (s : State)
    (hz : Kept z s) (h : execUsbRegWrite wValue wIndex wLength data s = .next t) : Kept z t := by
  unfold execUsbRegWrite at h
  injection h with h
  subst h
  with_reducible repeat' first
    | assumption | apply setStall_kept | apply busError_kept | apply windowDone_kept | apply windowWrite_kept | split

/-! ### Tick -/

theorem idleTick_kept {z : State} (s : State) (hz : Kept z s) : Kept z (idleTick s) := by
  unfold idleTick
  with_reducible repeat' first
    | assumption | simp only [kept_mk, kept_mk_cal] | apply partResetDue_kept | apply romDue_kept | apply commitStep_kept | split

end Sys2Proof.Machine
end

