-- ==== Sys2Proof/Laws/Mailbox.lean ====
section
/-! SUPPORT. What the shared path of every mailbox command does: the effect of a command that passes every check, and the answer to
one that fails (R318). -/

namespace Sys2Proof.Machine

/-- A command that passes every check is taken and has its effect. -/
theorem mailbox_of_checksPass (s : State) (i : OpInfo) (c : Cmd) (m : Meaning) (h : checksPass s i c m = true) :
    mailbox s i c m = m.run (takeCommand s i.op c) false := by
  simp only [checksPass, Bool.and_eq_true, Bool.not_eq_eq_eq_not, Bool.not_true, Option.isNone_iff_eq_none, Bool.or_eq_true,
    decide_eq_true_eq] at h
  obtain ⟨⟨⟨⟨⟨⟨⟨⟨⟨⟨⟨⟨⟨⟨h1, h2⟩, h3⟩, h4⟩, h5⟩, h6⟩, h7⟩, h8⟩, h9⟩, h10⟩, h11⟩, h12⟩, h13⟩, h14⟩, h15⟩ := h
  simp [mailbox, h1, h2, h3, h4, h5, h6, h7, h8, h9, h11, h12, h13, h14, h15, orElse]
  intro hc ho
  rcases h10 with h | h
  · simp [h] at hc
  · exact absurd h ho

end Sys2Proof.Machine
end

