-- ==== Sys2Proof/Laws/PerInstr.lean ====
section
/-! SUPPORT. Facts about the commands as syntax, one lemma for each constructor of `Instr`: a well-formed mailbox command has no
more payload words than LEN can say (R266). -/

namespace Sys2Proof.Laws

/-- The mailbox command that a row carries (R263); the other rows are events and register accesses. -/
def Form.cmdOf (i : Instr) : Option Cmd :=
  match i with
  | .coldReset => none
  | .supplyMonitorReset _ => none
  | .junctionHot _ => none
  | .junctionTrip => none
  | .nresetLow => none
  | .nresetRelease => none
  | .survoWatchdog => none
  | .fastDomainResetRelease _ => none
  | .bootRomRun _ _ => none
  | .recWrite _ _ => none
  | .recBoot => none
  | .recStatus => none
  | .bbtLoaded _ _ => none
  | .quietPeriodEnd => none
  | .podDiscovery _ => none
  | .ready => none
  | .usbPullupEnable => none
  | .vbusChange _ => none
  | .usbDetach _ => none
  | .hsChirpTimeout => none
  | .superspeedFallback => none
  | .usbSuspend => none
  | .usbResume _ => none
  | .remoteWakeup => none
  | .bulkOutFrame _ _ => none
  | .bulkOutPartialFrame _ => none
  | .bulkInContainer _ => none
  | .clearFeatureEndpointHalt _ => none
  | .usbRegRead _ _ _ => none
  | .usbRegWrite _ _ _ _ => none
  | .twBootStatusRead _ => none
  | .twPreReadyWrite => none
  | .twPointerWrite _ _ _ => none
  | .twWordWrite _ => none
  | .twWordRead => none
  | .twStretchTimeout => none
  | .twAddressWake => none
  | .twArbitrationLoss _ => none
  | .twControllerTimeout => none
  | .twStuck => none
  | .alertSend _ => none
  | .alertWaitExpiry => none
  | .backoffExpiry _ => none
  | .podPresencePoll _ _ => none
  | .overdriveOnset _ _ => none
  | .stuckWindowExpiry _ _ _ => none
  | .clkIdleTimeout _ => none
  | .sampleVector _ _ _ => none
  | .overrunResume _ => none
  | .skeinBoundary _ => none
  | .segmentedRearm _ => none
  | .skeinEnd _ => none
  | .parityScrub _ => none
  | .registerWrite _ _ _ => none
  | .crossDomainAccess _ _ _ => none
  | .setAliasWrite _ _ _ => none
  | .clearAliasWrite _ _ _ => none
  | .toggleAliasWrite _ _ _ => none
  | .accumulatorLoRead _ _ => none
  | .accumulatorLoWrite _ _ _ => none
  | .accumulatorHiWrite _ _ _ => none
  | .qWrLo _ _ _ => none
  | .qWrHi _ _ _ => none
  | .qWrHim _ _ _ => none
  | .queuePushComplete _ => none
  | .wlockTimeout _ => none
  | .qRdLo _ _ => none
  | .queueFlush _ _ => none
  | .commandFrameTimeout _ => none
  | .cmdDiscarded _ => none
  | .commandDeadline _ _ _ => none
  | .responseBacklogWrite _ => none
  | .benchOpen c => some c
  | .benchClose c => some c
  | .benchReset c => some c
  | .benchResetComplete _ => none
  | .benchStatus c => some c
  | .capsQuery c => some c
  | .accountsQuery c => some c
  | .benchControlEnable c => some c
  | .benchControlReset c => some c
  | .benchControlClose c => some c
  | .podAssign c => some c
  | .plyMembership c => some c
  | .feSetPod c => some c
  | .feSetMode c => some c
  | .feQuery c => some c
  | .feHealth c => some c
  | .feHealthTest c _ => some c
  | .feDeskew c => some c
  | .trgSetLevel c => some c
  | .trgSetResource c => some c
  | .trgQuery c => some c
  | .trgForce c => some c
  | .relayEnable c => some c
  | .capArm c => some c
  | .capStop c => some c
  | .capConfig c => some c
  | .sknList c => some c
  | .sknRead c => some c
  | .sknDelete c => some c
  | .bobbinLend c => some c
  | .cmpConfig c => some c
  | .cmpExport c => some c
  | .cmpVerify c => some c
  | .cmpFlush c => some c
  | .cmpQuery c => some c
  | .cmpSnFlushWrite _ _ _ => none
  | .autoflushExpiry _ => none
  | .blockEnd _ _ => none
  | .cmpStreamStop _ _ => none
  | .cmpStreamResume _ => none
  | .slQuery c => some c
  | .slStream c => some c
  | .slRead c => some c
  | .slFormat c => some c
  | .slScrub c => some c
  | .slBbtRead c => some c
  | .pageProgramDone _ => none
  | .programStatusFail _ => none
  | .eraseStatusFail _ _ => none
  | .uncorrectableRead _ _ _ => none
  | .nandBusyTimeout _ _ _ => none
  | .retentionScrub _ _ => none
  | .wearLevelRelocation _ => none
  | .readDisturbRelocation _ _ => none
  | .relocationComplete _ => none
  | .searchJob c => some c
  | .decodeJob c => some c
  | .jobCancel c => some c
  | .engQuery c => some c
  | .plyConfig c => some c
  | .regulatorSet c => some c
  | .umpireChoice _ => none
  | .rallyExpiry _ _ => none
  | .jobBlockedTimeout _ => none
  | .jobStepEnd _ => none
  | .regulatorRefill => none
  | .iuConfig c => some c
  | .iuMeasure c => some c
  | .iuCalibrate c => some c
  | .iuQuery c => some c
  | .iuSetAge c => some c
  | .iuCtrlGo _ => none
  | .iuCtrlCalGo _ => none
  | .iuStartEdge _ _ _ _ => none
  | .iuStopEdge _ _ _ _ => none
  | .iuMeasurementEnd => none
  | .iuCalibrationEnd _ => none
  | .iuTempUpdate _ => none
  | .twConfig c => some c
  | .twAlertRead c => some c
  | .twXfer c _ => some c
  | .twQuery c => some c
  | .twAlertRdLoRead _ => none
  | .calSet c => some c
  | .calGet c => some c
  | .calCommit _ _ => none
  | .calendarReadLatch _ _ => none
  | .calendarDateChange => none
  | .fltList c => some c
  | .refInservice c => some c
  | .refTest c => some c
  | .refReturn c => some c
  | .refTestCtlGo _ => none
  | .refereeTestStart _ => none
  | .refereeVerdict _ _ => none
  | .sramEcc _ _ => none
  | .engHang _ => none
  | .resourceRejoin _ => none
  | .rplRecord c => some c
  | .rplRecordDelete c => some c
  | .rplRun c => some c
  | .rplStatus c => some c
  | .rplStop c => some c
  | .replayLogProgram => none
  | .recorderGap => none
  | .replayInject => none
  | .replayMissing _ => none
  | .replayEnd => none
  | .powerEnter c => some c
  | .pwrEnterWrite _ _ => none
  | .powerEntryStart => none
  | .powerQuery c => some c
  | .dstSetRules c => some c
  | .dstSetInputs c => some c
  | .dstReadLog c => some c
  | .dstReadLogConsume c => some c
  | .dstCounters c => some c
  | .dstLogRptrWrite _ _ => none
  | .distaffEdgeLatch _ _ => none
  | .distaffTick _ => none
  | .wakeTimerMatch => none
  | .wakeComplete => none
  | .adminOpen c => some c
  | .adminClose c => some c
  | .adminSessionTimeout => none
  | .setCredential c => some c
  | .setCredentialClear c => some c
  | .openBenchEnter c => some c
  | .openBenchLeave c => some c
  | .regLogRead c => some c
  | .regRead c => some c
  | .regWrite c => some c
  | .fwLoadBegin c => some c
  | .fwLoadData c => some c
  | .fwLoadCommit c _ _ => some c
  | .partReset c => some c
  | .supplyRise _ => none
  | .junctionTripRelease => none
  | .queueWordFall _ _ => none
  | .twBusStop _ => none
  | .usbEnumeration _ _ => none
  | .overdriveEnd _ _ => none
  | .eventBacklogWrite _ => none
  | .badOpcodeCommand _ c => some c

/-- The LEN of a well-formed mailbox command fits its 8 bits. -/
def Form.Statement (i : Instr) : Prop := WellFormed i = true → ∀ c ∈ Form.cmdOf i, c.payload.length ≤ 255

/-- A row without a command has nothing to say. -/
theorem Form.of_none {i : Instr} (h : Form.cmdOf i = none) : Form.Statement i := by
  intro _ c hc
  rw [h] at hc
  cases hc

/-- A row whose check includes that of its command. -/
theorem Form.of_some {i : Instr} {c : Cmd} (h : Form.cmdOf i = some c) (w : WellFormed i = true → c.wf = true) : Form.Statement i := by
  intro hw d hd
  rw [h] at hd
  cases hd
  exact of_decide_eq_true (w hw)

theorem Form.coldReset : Form.Statement (.coldReset) := Form.of_none rfl
theorem Form.supplyMonitorReset (rail : Rail) : Form.Statement (.supplyMonitorReset rail) := Form.of_none rfl
theorem Form.junctionHot (tj : BitVec 8) : Form.Statement (.junctionHot tj) := Form.of_none rfl
theorem Form.junctionTrip : Form.Statement (.junctionTrip) := Form.of_none rfl
theorem Form.nresetLow : Form.Statement (.nresetLow) := Form.of_none rfl
theorem Form.nresetRelease : Form.Statement (.nresetRelease) := Form.of_none rfl
theorem Form.survoWatchdog : Form.Statement (.survoWatchdog) := Form.of_none rfl
theorem Form.fastDomainResetRelease (straps : Straps) : Form.Statement (.fastDomainResetRelease straps) := Form.of_none rfl
theorem Form.bootRomRun (a : Option ImageView) (b : Option ImageView) : Form.Statement (.bootRomRun a b) := Form.of_none rfl
theorem Form.recWrite (offset : Nat) (data : List Byte) : Form.Statement (.recWrite offset data) := Form.of_none rfl
theorem Form.recBoot : Form.Statement (.recBoot) := Form.of_none rfl
theorem Form.recStatus : Form.Statement (.recStatus) := Form.of_none rfl
theorem Form.bbtLoaded (a : LaneProbe) (b : LaneProbe) : Form.Statement (.bbtLoaded a b) := Form.of_none rfl
theorem Form.quietPeriodEnd : Form.Statement (.quietPeriodEnd) := Form.of_none rfl
theorem Form.podDiscovery (reads : List PodRead) : Form.Statement (.podDiscovery reads) := Form.of_none rfl
theorem Form.ready : Form.Statement (.ready) := Form.of_none rfl
theorem Form.usbPullupEnable : Form.Statement (.usbPullupEnable) := Form.of_none rfl
theorem Form.vbusChange (high : Bool) : Form.Statement (.vbusChange high) := Form.of_none rfl
theorem Form.usbDetach (cause : LinkLoss) : Form.Statement (.usbDetach cause) := Form.of_none rfl
theorem Form.hsChirpTimeout : Form.Statement (.hsChirpTimeout) := Form.of_none rfl
theorem Form.superspeedFallback : Form.Statement (.superspeedFallback) := Form.of_none rfl
theorem Form.usbSuspend : Form.Statement (.usbSuspend) := Form.of_none rfl
theorem Form.usbResume (busReset : Bool) : Form.Statement (.usbResume busReset) := Form.of_none rfl
theorem Form.remoteWakeup : Form.Statement (.remoteWakeup) := Form.of_none rfl
theorem Form.bulkOutFrame (ep : BitVec 8) (words : List Word) : Form.Statement (.bulkOutFrame ep words) := Form.of_none rfl
theorem Form.bulkOutPartialFrame (ep : BitVec 8) : Form.Statement (.bulkOutPartialFrame ep) := Form.of_none rfl
theorem Form.bulkInContainer (ep : BitVec 8) : Form.Statement (.bulkInContainer ep) := Form.of_none rfl
theorem Form.clearFeatureEndpointHalt (halt : HaltClear) : Form.Statement (.clearFeatureEndpointHalt halt) := Form.of_none rfl
theorem Form.usbRegRead (wValue : BitVec 16) (wIndex : BitVec 16) (wLength : BitVec 16) : Form.Statement (.usbRegRead wValue wIndex wLength) := Form.of_none rfl
theorem Form.usbRegWrite (wValue : BitVec 16) (wIndex : BitVec 16) (wLength : BitVec 16) (data : List Word) : Form.Statement (.usbRegWrite wValue wIndex wLength data) := Form.of_none rfl
theorem Form.twBootStatusRead (count : Nat) : Form.Statement (.twBootStatusRead count) := Form.of_none rfl
theorem Form.twPreReadyWrite : Form.Statement (.twPreReadyWrite) := Form.of_none rfl
theorem Form.twPointerWrite (p2 : Byte) (p1 : Byte) (p0 : Byte) : Form.Statement (.twPointerWrite p2 p1 p0) := Form.of_none rfl
theorem Form.twWordWrite (data : Word) : Form.Statement (.twWordWrite data) := Form.of_none rfl
theorem Form.twWordRead : Form.Statement (.twWordRead) := Form.of_none rfl
theorem Form.twStretchTimeout : Form.Statement (.twStretchTimeout) := Form.of_none rfl
theorem Form.twAddressWake : Form.Statement (.twAddressWake) := Form.of_none rfl
theorem Form.twArbitrationLoss (winner : BitVec 8) : Form.Statement (.twArbitrationLoss winner) := Form.of_none rfl
theorem Form.twControllerTimeout : Form.Statement (.twControllerTimeout) := Form.of_none rfl
theorem Form.twStuck : Form.Statement (.twStuck) := Form.of_none rfl
theorem Form.alertSend (out : XferOut) : Form.Statement (.alertSend out) := Form.of_none rfl
theorem Form.alertWaitExpiry : Form.Statement (.alertWaitExpiry) := Form.of_none rfl
theorem Form.backoffExpiry (out : XferOut) : Form.Statement (.backoffExpiry out) := Form.of_none rfl
theorem Form.podPresencePoll (p : Fin 8) (read : PodRead) : Form.Statement (.podPresencePoll p read) := Form.of_none rfl
theorem Form.overdriveOnset (p : Fin 8) (d : Fin 32) : Form.Statement (.overdriveOnset p d) := Form.of_none rfl
theorem Form.stuckWindowExpiry (n : Fin 8) (p : Fin 8) (d : Fin 32) : Form.Statement (.stuckWindowExpiry n p d) := Form.of_none rfl
theorem Form.clkIdleTimeout (n : Fin 8) : Form.Statement (.clkIdleTimeout n) := Form.of_none rfl
theorem Form.sampleVector (n : Fin 8) (window : Nat) (pods : List PodInput) : Form.Statement (.sampleVector n window pods) := Form.of_none rfl
theorem Form.overrunResume (n : Fin 8) : Form.Statement (.overrunResume n) := Form.of_none rfl
theorem Form.skeinBoundary (n : Fin 8) : Form.Statement (.skeinBoundary n) := Form.of_none rfl
theorem Form.segmentedRearm (n : Fin 8) : Form.Statement (.segmentedRearm n) := Form.of_none rfl
theorem Form.skeinEnd (n : Fin 8) : Form.Statement (.skeinEnd n) := Form.of_none rfl
theorem Form.parityScrub (upsets : List Upset) : Form.Statement (.parityScrub upsets) := Form.of_none rfl
theorem Form.registerWrite (path : Path) (addr : BitVec 16) (data : Word) : Form.Statement (.registerWrite path addr data) := Form.of_none rfl
theorem Form.crossDomainAccess (path : Path) (addr : BitVec 20) (data : Option Word) : Form.Statement (.crossDomainAccess path addr data) := Form.of_none rfl
theorem Form.setAliasWrite (path : Path) (addr : BitVec 16) (data : Word) : Form.Statement (.setAliasWrite path addr data) := Form.of_none rfl
theorem Form.clearAliasWrite (path : Path) (addr : BitVec 16) (data : Word) : Form.Statement (.clearAliasWrite path addr data) := Form.of_none rfl
theorem Form.toggleAliasWrite (path : Path) (addr : BitVec 16) (data : Word) : Form.Statement (.toggleAliasWrite path addr data) := Form.of_none rfl
theorem Form.accumulatorLoRead (path : Path) (addr : BitVec 16) : Form.Statement (.accumulatorLoRead path addr) := Form.of_none rfl
theorem Form.accumulatorLoWrite (path : Path) (addr : BitVec 16) (data : Word) : Form.Statement (.accumulatorLoWrite path addr data) := Form.of_none rfl
theorem Form.accumulatorHiWrite (path : Path) (addr : BitVec 16) (data : Word) : Form.Statement (.accumulatorHiWrite path addr data) := Form.of_none rfl
theorem Form.qWrLo (path : Path) (q : Fin 66) (data : Word) : Form.Statement (.qWrLo path q data) := Form.of_none rfl
theorem Form.qWrHi (path : Path) (q : Fin 66) (data : Word) : Form.Statement (.qWrHi path q data) := Form.of_none rfl
theorem Form.qWrHim (path : Path) (q : Fin 66) (data : Word) : Form.Statement (.qWrHim path q data) := Form.of_none rfl
theorem Form.queuePushComplete (q : Fin 68) : Form.Statement (.queuePushComplete q) := Form.of_none rfl
theorem Form.wlockTimeout (q : Fin 66) : Form.Statement (.wlockTimeout q) := Form.of_none rfl
theorem Form.qRdLo (path : Path) (q : Fin 66) : Form.Statement (.qRdLo path q) := Form.of_none rfl
theorem Form.queueFlush (path : Path) (q : Fin 66) : Form.Statement (.queueFlush path q) := Form.of_none rfl
theorem Form.commandFrameTimeout (st : Stream) : Form.Statement (.commandFrameTimeout st) := Form.of_none rfl
theorem Form.cmdDiscarded (st : Stream) : Form.Statement (.cmdDiscarded st) := Form.of_none rfl
theorem Form.commandDeadline (st : Stream) (tag : BitVec 8) (elapsed : Nat) : Form.Statement (.commandDeadline st tag elapsed) := Form.of_none rfl
theorem Form.responseBacklogWrite (st : Stream) : Form.Statement (.responseBacklogWrite st) := Form.of_none rfl
theorem Form.benchOpen (c : Cmd) : Form.Statement (.benchOpen c) := Form.of_some rfl id
theorem Form.benchClose (c : Cmd) : Form.Statement (.benchClose c) := Form.of_some rfl id
theorem Form.benchReset (c : Cmd) : Form.Statement (.benchReset c) := Form.of_some rfl id
theorem Form.benchResetComplete (n : Fin 8) : Form.Statement (.benchResetComplete n) := Form.of_none rfl
theorem Form.benchStatus (c : Cmd) : Form.Statement (.benchStatus c) := Form.of_some rfl id
theorem Form.capsQuery (c : Cmd) : Form.Statement (.capsQuery c) := Form.of_some rfl id
theorem Form.accountsQuery (c : Cmd) : Form.Statement (.accountsQuery c) := Form.of_some rfl id
theorem Form.benchControlEnable (c : Cmd) : Form.Statement (.benchControlEnable c) := Form.of_some rfl id
theorem Form.benchControlReset (c : Cmd) : Form.Statement (.benchControlReset c) := Form.of_some rfl id
theorem Form.benchControlClose (c : Cmd) : Form.Statement (.benchControlClose c) := Form.of_some rfl id
theorem Form.podAssign (c : Cmd) : Form.Statement (.podAssign c) := Form.of_some rfl id
theorem Form.plyMembership (c : Cmd) : Form.Statement (.plyMembership c) := Form.of_some rfl id
theorem Form.feSetPod (c : Cmd) : Form.Statement (.feSetPod c) := Form.of_some rfl id
theorem Form.feSetMode (c : Cmd) : Form.Statement (.feSetMode c) := Form.of_some rfl id
theorem Form.feQuery (c : Cmd) : Form.Statement (.feQuery c) := Form.of_some rfl id
theorem Form.feHealth (c : Cmd) : Form.Statement (.feHealth c) := Form.of_some rfl id
theorem Form.feHealthTest (c : Cmd) (fails : Word) : Form.Statement (.feHealthTest c fails) := Form.of_some rfl id
theorem Form.feDeskew (c : Cmd) : Form.Statement (.feDeskew c) := Form.of_some rfl id
theorem Form.trgSetLevel (c : Cmd) : Form.Statement (.trgSetLevel c) := Form.of_some rfl id
theorem Form.trgSetResource (c : Cmd) : Form.Statement (.trgSetResource c) := Form.of_some rfl id
theorem Form.trgQuery (c : Cmd) : Form.Statement (.trgQuery c) := Form.of_some rfl id
theorem Form.trgForce (c : Cmd) : Form.Statement (.trgForce c) := Form.of_some rfl id
theorem Form.relayEnable (c : Cmd) : Form.Statement (.relayEnable c) := Form.of_some rfl id
theorem Form.capArm (c : Cmd) : Form.Statement (.capArm c) := Form.of_some rfl id
theorem Form.capStop (c : Cmd) : Form.Statement (.capStop c) := Form.of_some rfl id
theorem Form.capConfig (c : Cmd) : Form.Statement (.capConfig c) := Form.of_some rfl id
theorem Form.sknList (c : Cmd) : Form.Statement (.sknList c) := Form.of_some rfl id
theorem Form.sknRead (c : Cmd) : Form.Statement (.sknRead c) := Form.of_some rfl id
theorem Form.sknDelete (c : Cmd) : Form.Statement (.sknDelete c) := Form.of_some rfl id
theorem Form.bobbinLend (c : Cmd) : Form.Statement (.bobbinLend c) := Form.of_some rfl id
theorem Form.cmpConfig (c : Cmd) : Form.Statement (.cmpConfig c) := Form.of_some rfl id
theorem Form.cmpExport (c : Cmd) : Form.Statement (.cmpExport c) := Form.of_some rfl id
theorem Form.cmpVerify (c : Cmd) : Form.Statement (.cmpVerify c) := Form.of_some rfl id
theorem Form.cmpFlush (c : Cmd) : Form.Statement (.cmpFlush c) := Form.of_some rfl id
theorem Form.cmpQuery (c : Cmd) : Form.Statement (.cmpQuery c) := Form.of_some rfl id
theorem Form.cmpSnFlushWrite (path : Path) (n : Fin 8) (data : Word) : Form.Statement (.cmpSnFlushWrite path n data) := Form.of_none rfl
theorem Form.autoflushExpiry (n : Fin 8) : Form.Statement (.autoflushExpiry n) := Form.of_none rfl
theorem Form.blockEnd (e : Fin 4) (checkOk : Bool) : Form.Statement (.blockEnd e checkOk) := Form.of_none rfl
theorem Form.cmpStreamStop (n : Fin 8) (cause : StopCause) : Form.Statement (.cmpStreamStop n cause) := Form.of_none rfl
theorem Form.cmpStreamResume (n : Fin 8) : Form.Statement (.cmpStreamResume n) := Form.of_none rfl
theorem Form.slQuery (c : Cmd) : Form.Statement (.slQuery c) := Form.of_some rfl id
theorem Form.slStream (c : Cmd) : Form.Statement (.slStream c) := Form.of_some rfl id
theorem Form.slRead (c : Cmd) : Form.Statement (.slRead c) := Form.of_some rfl id
theorem Form.slFormat (c : Cmd) : Form.Statement (.slFormat c) := Form.of_some rfl id
theorem Form.slScrub (c : Cmd) : Form.Statement (.slScrub c) := Form.of_some rfl id
theorem Form.slBbtRead (c : Cmd) : Form.Statement (.slBbtRead c) := Form.of_some rfl id
theorem Form.pageProgramDone (lane : Fin 2) : Form.Statement (.pageProgramDone lane) := Form.of_none rfl
theorem Form.programStatusFail (fail : FailedProgram) : Form.Statement (.programStatusFail fail) := Form.of_none rfl
theorem Form.eraseStatusFail (lane : Fin 2) (block : Nat) : Form.Statement (.eraseStatusFail lane block) := Form.of_none rfl
theorem Form.uncorrectableRead (lane : Fin 2) (block : Nat) (read : Reread) : Form.Statement (.uncorrectableRead lane block read) := Form.of_none rfl
theorem Form.nandBusyTimeout (lane : Fin 2) (op : NandOp) (block : Nat) : Form.Statement (.nandBusyTimeout lane op block) := Form.of_none rfl
theorem Form.retentionScrub (lane : Fin 2) (pages : List PageRead) : Form.Statement (.retentionScrub lane pages) := Form.of_none rfl
theorem Form.wearLevelRelocation (lane : Fin 2) : Form.Statement (.wearLevelRelocation lane) := Form.of_none rfl
theorem Form.readDisturbRelocation (lane : Fin 2) (block : Nat) : Form.Statement (.readDisturbRelocation lane block) := Form.of_none rfl
theorem Form.relocationComplete (lane : Fin 2) : Form.Statement (.relocationComplete lane) := Form.of_none rfl
theorem Form.searchJob (c : Cmd) : Form.Statement (.searchJob c) := Form.of_some rfl id
theorem Form.decodeJob (c : Cmd) : Form.Statement (.decodeJob c) := Form.of_some rfl id
theorem Form.jobCancel (c : Cmd) : Form.Statement (.jobCancel c) := Form.of_some rfl id
theorem Form.engQuery (c : Cmd) : Form.Statement (.engQuery c) := Form.of_some rfl id
theorem Form.plyConfig (c : Cmd) : Form.Statement (.plyConfig c) := Form.of_some rfl id
theorem Form.regulatorSet (c : Cmd) : Form.Statement (.regulatorSet c) := Form.of_some rfl id
theorem Form.umpireChoice (e : Fin 9) : Form.Statement (.umpireChoice e) := Form.of_none rfl
theorem Form.rallyExpiry (e : Fin 9) (contextOk : Bool) : Form.Statement (.rallyExpiry e contextOk) := Form.of_none rfl
theorem Form.jobBlockedTimeout (e : Fin 9) : Form.Statement (.jobBlockedTimeout e) := Form.of_none rfl
theorem Form.jobStepEnd (e : Fin 9) : Form.Statement (.jobStepEnd e) := Form.of_none rfl
theorem Form.regulatorRefill : Form.Statement (.regulatorRefill) := Form.of_none rfl
theorem Form.iuConfig (c : Cmd) : Form.Statement (.iuConfig c) := Form.of_some rfl id
theorem Form.iuMeasure (c : Cmd) : Form.Statement (.iuMeasure c) := Form.of_some rfl id
theorem Form.iuCalibrate (c : Cmd) : Form.Statement (.iuCalibrate c) := Form.of_some rfl id
theorem Form.iuQuery (c : Cmd) : Form.Statement (.iuQuery c) := Form.of_some rfl id
theorem Form.iuSetAge (c : Cmd) : Form.Statement (.iuSetAge c) := Form.of_some rfl id
theorem Form.iuCtrlGo (path : Path) : Form.Statement (.iuCtrlGo path) := Form.of_none rfl
theorem Form.iuCtrlCalGo (path : Path) : Form.Statement (.iuCtrlCalGo path) := Form.of_none rfl
theorem Form.iuStartEdge (src : Fin 5) (falling : Bool) (coarse : Nat) (code : BitVec 10) : Form.Statement (.iuStartEdge src falling coarse code) := Form.of_none rfl
theorem Form.iuStopEdge (src : Fin 5) (falling : Bool) (coarse : Nat) (code : BitVec 10) : Form.Statement (.iuStopEdge src falling coarse code) := Form.of_none rfl
theorem Form.iuMeasurementEnd : Form.Statement (.iuMeasurementEnd) := Form.of_none rfl
theorem Form.iuCalibrationEnd (hits : List Nat) : Form.Statement (.iuCalibrationEnd hits) := Form.of_none rfl
theorem Form.iuTempUpdate (temp : BitVec 8) : Form.Statement (.iuTempUpdate temp) := Form.of_none rfl
theorem Form.twConfig (c : Cmd) : Form.Statement (.twConfig c) := Form.of_some rfl id
theorem Form.twAlertRead (c : Cmd) : Form.Statement (.twAlertRead c) := Form.of_some rfl id
theorem Form.twXfer (c : Cmd) (outs : List XferOut) : Form.Statement (.twXfer c outs) := Form.of_some rfl fun h => by simp only [WellFormed, Bool.and_eq_true] at h; exact h.1.1
theorem Form.twQuery (c : Cmd) : Form.Statement (.twQuery c) := Form.of_some rfl id
theorem Form.twAlertRdLoRead (path : Path) : Form.Statement (.twAlertRdLoRead path) := Form.of_none rfl
theorem Form.calSet (c : Cmd) : Form.Statement (.calSet c) := Form.of_some rfl id
theorem Form.calGet (c : Cmd) : Form.Statement (.calGet c) := Form.of_some rfl id
theorem Form.calCommit (path : Path) (data : Word) : Form.Statement (.calCommit path data) := Form.of_none rfl
theorem Form.calendarReadLatch (path : Path) (lin : Bool) : Form.Statement (.calendarReadLatch path lin) := Form.of_none rfl
theorem Form.calendarDateChange : Form.Statement (.calendarDateChange) := Form.of_none rfl
theorem Form.fltList (c : Cmd) : Form.Statement (.fltList c) := Form.of_some rfl id
theorem Form.refInservice (c : Cmd) : Form.Statement (.refInservice c) := Form.of_some rfl id
theorem Form.refTest (c : Cmd) : Form.Statement (.refTest c) := Form.of_some rfl id
theorem Form.refReturn (c : Cmd) : Form.Statement (.refReturn c) := Form.of_some rfl id
theorem Form.refTestCtlGo (path : Path) : Form.Statement (.refTestCtlGo path) := Form.of_none rfl
theorem Form.refereeTestStart (type : Fin 8) : Form.Statement (.refereeTestStart type) := Form.of_none rfl
theorem Form.refereeVerdict (type : Fin 8) (pass : Bool) : Form.Statement (.refereeVerdict type pass) := Form.of_none rfl
theorem Form.sramEcc (bank : Fin 96) (double : Bool) : Form.Statement (.sramEcc bank double) := Form.of_none rfl
theorem Form.engHang (e : Fin 9) : Form.Statement (.engHang e) := Form.of_none rfl
theorem Form.resourceRejoin (res : Word) : Form.Statement (.resourceRejoin res) := Form.of_none rfl
theorem Form.rplRecord (c : Cmd) : Form.Statement (.rplRecord c) := Form.of_some rfl id
theorem Form.rplRecordDelete (c : Cmd) : Form.Statement (.rplRecordDelete c) := Form.of_some rfl id
theorem Form.rplRun (c : Cmd) : Form.Statement (.rplRun c) := Form.of_some rfl id
theorem Form.rplStatus (c : Cmd) : Form.Statement (.rplStatus c) := Form.of_some rfl id
theorem Form.rplStop (c : Cmd) : Form.Statement (.rplStop c) := Form.of_some rfl id
theorem Form.replayLogProgram : Form.Statement (.replayLogProgram) := Form.of_none rfl
theorem Form.recorderGap : Form.Statement (.recorderGap) := Form.of_none rfl
theorem Form.replayInject : Form.Statement (.replayInject) := Form.of_none rfl
theorem Form.replayMissing (source : Byte) : Form.Statement (.replayMissing source) := Form.of_none rfl
theorem Form.replayEnd : Form.Statement (.replayEnd) := Form.of_none rfl
theorem Form.powerEnter (c : Cmd) : Form.Statement (.powerEnter c) := Form.of_some rfl id
theorem Form.pwrEnterWrite (path : Path) (data : Word) : Form.Statement (.pwrEnterWrite path data) := Form.of_none rfl
theorem Form.powerEntryStart : Form.Statement (.powerEntryStart) := Form.of_none rfl
theorem Form.powerQuery (c : Cmd) : Form.Statement (.powerQuery c) := Form.of_some rfl id
theorem Form.dstSetRules (c : Cmd) : Form.Statement (.dstSetRules c) := Form.of_some rfl id
theorem Form.dstSetInputs (c : Cmd) : Form.Statement (.dstSetInputs c) := Form.of_some rfl id
theorem Form.dstReadLog (c : Cmd) : Form.Statement (.dstReadLog c) := Form.of_some rfl id
theorem Form.dstReadLogConsume (c : Cmd) : Form.Statement (.dstReadLogConsume c) := Form.of_some rfl id
theorem Form.dstCounters (c : Cmd) : Form.Statement (.dstCounters c) := Form.of_some rfl id
theorem Form.dstLogRptrWrite (path : Path) (data : Word) : Form.Statement (.dstLogRptrWrite path data) := Form.of_none rfl
theorem Form.distaffEdgeLatch (w : Fin 16) (falling : Bool) : Form.Statement (.distaffEdgeLatch w falling) := Form.of_none rfl
theorem Form.distaffTick (mv : List Int) : Form.Statement (.distaffTick mv) := Form.of_none rfl
theorem Form.wakeTimerMatch : Form.Statement (.wakeTimerMatch) := Form.of_none rfl
theorem Form.wakeComplete : Form.Statement (.wakeComplete) := Form.of_none rfl
theorem Form.adminOpen (c : Cmd) : Form.Statement (.adminOpen c) := Form.of_some rfl id
theorem Form.adminClose (c : Cmd) : Form.Statement (.adminClose c) := Form.of_some rfl id
theorem Form.adminSessionTimeout : Form.Statement (.adminSessionTimeout) := Form.of_none rfl
theorem Form.setCredential (c : Cmd) : Form.Statement (.setCredential c) := Form.of_some rfl id
theorem Form.setCredentialClear (c : Cmd) : Form.Statement (.setCredentialClear c) := Form.of_some rfl id
theorem Form.openBenchEnter (c : Cmd) : Form.Statement (.openBenchEnter c) := Form.of_some rfl id
theorem Form.openBenchLeave (c : Cmd) : Form.Statement (.openBenchLeave c) := Form.of_some rfl id
theorem Form.regLogRead (c : Cmd) : Form.Statement (.regLogRead c) := Form.of_some rfl id
theorem Form.regRead (c : Cmd) : Form.Statement (.regRead c) := Form.of_some rfl id
theorem Form.regWrite (c : Cmd) : Form.Statement (.regWrite c) := Form.of_some rfl id
theorem Form.fwLoadBegin (c : Cmd) : Form.Statement (.fwLoadBegin c) := Form.of_some rfl id
theorem Form.fwLoadData (c : Cmd) : Form.Statement (.fwLoadData c) := Form.of_some rfl id
theorem Form.fwLoadCommit (c : Cmd) (programOk : Bool) (verifyOk : Bool) : Form.Statement (.fwLoadCommit c programOk verifyOk) := Form.of_some rfl id
theorem Form.partReset (c : Cmd) : Form.Statement (.partReset c) := Form.of_some rfl id
theorem Form.supplyRise (rail : RisingRail) : Form.Statement (.supplyRise rail) := Form.of_none rfl
theorem Form.junctionTripRelease : Form.Statement (.junctionTripRelease) := Form.of_none rfl
theorem Form.queueWordFall (q : Fin 68) (fall : QueueFall) : Form.Statement (.queueWordFall q fall) := Form.of_none rfl
theorem Form.twBusStop (partialBytes : List Byte) : Form.Statement (.twBusStop partialBytes) := Form.of_none rfl
theorem Form.usbEnumeration (superSpeed : Bool) (req : CtlReq) : Form.Statement (.usbEnumeration superSpeed req) := Form.of_none rfl
theorem Form.overdriveEnd (p : Fin 8) (d : Fin 32) : Form.Statement (.overdriveEnd p d) := Form.of_none rfl
theorem Form.eventBacklogWrite (n : Fin 8) : Form.Statement (.eventBacklogWrite n) := Form.of_none rfl
theorem Form.badOpcodeCommand (opcode : BitVec 16) (c : Cmd) : Form.Statement (.badOpcodeCommand opcode c) := Form.of_some rfl id

end Sys2Proof.Laws
end

