-- ==== Sys2Proof/Tests/Slice0.lean ====
section
/-! SUPPORT. Tests: terms that each check of `WellFormed` refuses, the spec's worked examples, and for every statement with hypotheses a
state and operands that meet them, clause by clause. -/

namespace Sys2Proof.Tests

open Sys2Proof.Machine

/-! ### States and commands -/

/-- An A9 that has reached READY, with every bench CLOSED. -/
def readyState : State := { State.reset with boot := { State.reset.boot with phase := .ready } }

/-- The same with a state of the benches' sessions. -/
def withBench (b : BenchState) : State := (readyState.setSess 0 { state := b }).wrBoth .bnOwn 0 0 1

/-- Bench 0 IDLE with pod 0. -/
def idleState : State := withBench .idle

/-- Bench 0 ARMED with pod 0. -/
def armedState : State := withBench .armed

/-- A command of bench 0's student. -/
def stu (payload : List Word) : Cmd := ⟨.bench 0, .usb, 1, false, false, 0, 0, 0, payload, true⟩

/-- A command of the administrator over USB. -/
def adm (payload : List Word) : Cmd := ⟨.adminUsb, .usb, 1, false, false, 0, 15, 0, payload, true⟩

/-- A skein of one sample. -/
def oneSkein : Skein := { items := [.sample 1 [1, 0, 0, 0, 0, 0, 0, 0] false] }

/-- Bench 0 IDLE with one skein in its bobbin. -/
def keptState : State := idleState.setCap 0 { kept := [oneSkein], nextNum := 1 }

/-- A lane in service. -/
def readyLane : Lane := { state := .ready, geom := ⟨4, 0, 64, 2, 1, 64, false⟩, ceUsed := 1 }

/-- READY with lane SLA in service. -/
def laneState : State := readyState.setLane 0 readyLane

/-- A job of bench 0 on engine `e`. -/
def oneJob (e : Nat) (k : JobKind) : Job := ⟨0, 0, .bench 0, 1, k, .running e, none, none, [], 0, [], 0, 0, none⟩

/-- Engine `e` runs a job of bench 0. -/
def jobState (e : Nat) (k : JobKind) : State :=
  { idleState with umpire := { idleState.umpire with jobs := [oneJob e k] } }.setEngine e { job := some 0 }

/-- The state that takes commands from the USB host. -/
def usbState : State := { idleState with usb := { idleState.usb with link := .highSpeed, enumerated := true, pullup := true } }

/-! ### Witnesses: the statements' hypotheses can be met -/

theorem witness_SessionGroupComplete :
    checksPass readyState infoBenchOpen (stu [7]) (meanBenchOpen (stu [7])) = true ∧
    checksPass idleState infoBenchClose (stu []) (meanBenchClose (stu [])) = true ∧
    checksPass idleState infoBenchReset (stu []) (meanBenchReset (stu [])) = true ∧
    checksPass idleState infoBenchStatus (stu [0]) (meanBenchStatus (stu [0])) = true ∧
    checksPass idleState infoCapsQuery (stu []) (meanCapsQuery (stu [])) = true ∧
    checksPass idleState infoAccountsQuery (stu [0]) (meanAccountsQuery (stu [0])) = true := by decide

theorem witness_BenchAssignmentCompletes :
    (checksPass readyState infoBenchControl (adm [0x100]) (meanBenchControl (adm [0x100])) = true ∧ pf (adm [0x100]) 2 5 4 = 0) ∧
    (checksPass idleState infoBenchControl (adm [0x10]) (meanBenchControl (adm [0x10])) = true ∧ pf (adm [0x10]) 2 5 4 = 1) ∧
    (checksPass idleState infoBenchControl (adm [0x20]) (meanBenchControl (adm [0x20])) = true ∧ pf (adm [0x20]) 2 5 4 = 2) ∧
    checksPass readyState infoPlyMembership (adm [0, 0]) (meanPlyMembership (adm [0, 0])) = true := by decide

/-- The steps of POD_ASSIGN from `s`: after the values that remove pods, and after those that add them. -/
def podSteps (s : State) (c : Cmd) : State × State :=
  let t := takeCommand s 0x0111 c
  let t := { t with fw := { t.fw with assign := some c } }
  let u := t.each t.benchList fun s n => writePods s n (s.podsOf n &&& podByte c n)
  (u, u.each u.benchList fun s n => writePods s n (podByte c n))

/-- Its three outcomes: in effect at once; a bench that holds the removal back; a bench that holds the addition back. -/
theorem witness_podAssign :
    (let c := adm [1, 0]
     let r := podSteps readyState c
     checksPass readyState infoPodAssign c (meanPodAssign c) = true ∧
       (r.1.benchList.all fun n => decide (r.1.podsOf n &&& podByte c n = r.1.podsOf n)) = true ∧
       (r.2.benchList.all fun n => decide (r.2.podsOf n = podByte c n)) = true) ∧
    (let s := idleState.wr .bnStage 0 0 1
     let c := adm [0x100, 0]
     let r := podSteps s c
     checksPass s infoPodAssign c (meanPodAssign c) = true ∧ r.1.podsOf 0 &&& podByte c 0 ≠ r.1.podsOf 0 ∧ 0 ∈ r.1.benchList) ∧
    (let s := readyState.wr .bnStage 0 0 1
     let c := adm [3, 0]
     let r := podSteps s c
     checksPass s infoPodAssign c (meanPodAssign c) = true ∧
       (r.1.benchList.all fun n => decide (r.1.podsOf n &&& podByte c n = r.1.podsOf n)) = true ∧ r.2.podsOf 0 ≠ podByte c 0) := by
  decide

theorem witness_AdministrationCompletes :
    checksPass readyState infoAdminOpen (adm [0, 0, 0, 0]) (meanAdminOpen (adm [0, 0, 0, 0])) = true ∧
    checksPass { readyState with fw := { readyState.fw with admin := some .usb } } infoAdminClose (adm [])
      (meanAdminClose (adm [])) = true ∧
    readyState.survoRuns = true ∧
    checksPass readyState infoOpenBenchEnter (adm []) (meanOpenBenchEnter (adm [])) = true ∧
    checksPass readyState infoOpenBenchLeave (adm []) (meanOpenBenchLeave (adm [])) = true ∧
    checksPass laneState infoSetCredential (adm [1, 2, 3, 4, 0]) (meanSetCredential (adm [1, 2, 3, 4, 0])) = true ∧
    checksPass laneState infoSetCredential (adm [0, 0, 0, 0, 1]) (meanSetCredential (adm [0, 0, 0, 0, 1])) = true := by decide

/-- SET_CREDENTIAL on a member without lanes, with SLA out of service, with a copy that takes it, and with none. -/
theorem witness_setCredential :
    let c := adm [0, 0, 0, 0, 1]
    (let s := { readyState with part := { readyState.part with member := .a1 } }
     checksPass s infoSetCredential c (meanSetCredential c) = true ∧ (takeCommand s 0x0E03 c).member.lanes = 0) ∧
    (checksPass readyState infoSetCredential c (meanSetCredential c) = true ∧ (takeCommand readyState 0x0E03 c).laneServes 0 = false ∧
      0 < (takeCommand readyState 0x0E03 c).member.lanes) ∧
    (let t := takeCommand laneState 0x0E03 c
     t.laneServes 0 = true ∧ 0 < t.member.lanes ∧ (writeRecord t fun x => { x with hash := none }).1 = true) ∧
    (let s := readyState.setLane 0 { readyLane with sysFail := 3 }
     let t := takeCommand s 0x0E03 c
     checksPass s infoSetCredential c (meanSetCredential c) = true ∧ t.laneServes 0 = true ∧
       (writeRecord t fun x => { x with hash := none }).1 = false) := by decide

theorem witness_RegisterMailboxComplete :
    checksPass readyState infoRegLogRead (adm [0x10000]) (meanRegLogRead (adm [0x10000])) = true ∧
    checksPass readyState infoRegRead (adm [0x01000020]) (meanRegRead (adm [0x01000020])) = true ∧
    (readMany (takeCommand readyState 0x0E13 (adm [0x01000020])) (regReadAddrs (adm [0x01000020]))).2.1 = false ∧
    checksPass readyState infoRegWrite (adm [0x30, 0]) (meanRegWrite (adm [0x30, 0])) = true ∧
    (busWrite (takeCommand readyState 0x0E14 (adm [0x30, 0])) .survo (pf (adm [0x30, 0]) 2 19 0) (pw (adm [0x30, 0]) 3)).1 = 0 := by
  decide

/-- READY with a staged image. -/
def stagedState : State := { readyState with fw := { readyState.fw with staging := some ⟨true, 132, []⟩ } }

theorem witness_FirmwareCommandsComplete :
    checksPass readyState infoFwLoadBegin (adm [1, 132]) (meanFwLoadBegin (adm [1, 132])) = true ∧
    checksPass stagedState infoFwLoadData (adm [0, 1]) (meanFwLoadData (adm [0, 1])) = true ∧
    checksPass stagedState infoFwLoadCommit (adm [0]) (meanFwLoadCommit (adm [0]) true true) = true ∧
    (let j : CommitJob := { stream := .adminUsb, tag := 1, crc := 0, programOk := true, verifyOk := true }
     let s (w : Bool) : State := { stagedState with fw := { stagedState.fw with commit := some { j with writing := w } } }
     (s false).fw.commit = some j ∧ (s true).fw.commit = some { j with writing := true } ∧ (s true).fw.staging = some ⟨true, 132, []⟩ ∧
       (s true).survoRuns = true) ∧
    checksPass readyState infoPartReset (adm [0x0A9E]) (meanPartReset (adm [0x0A9E])) = true := by decide

theorem witness_BadOpcodeAnswered :
    (capabilityList readyState.member).contains (0x0107 : BitVec 16).toNat = false ∧ readyState.survoRuns = true ∧
    readyState.isReady = true ∧ isReplayTake readyState 0x0107 (stu []) = false ∧ streamBlocked readyState 0x0107 (stu []) = false ∧
    (readyState.stream (stu []).stream).early = 0 ∧ streamResetting readyState (stu []) = false ∧ checkFrame (stu []) = none := by decide

theorem witness_FrontEndCommandsComplete :
    checksPass idleState infoFeSetPod (stu [0, 100]) (meanFeSetPod (stu [0, 100])) = true ∧
    checksPass idleState infoFeSetMode (stu [0]) (meanFeSetMode (stu [0])) = true ∧
    checksPass idleState infoFeQuery (stu [0]) (meanFeQuery (stu [0])) = true ∧
    checksPass idleState infoFeHealth (stu [0]) (meanFeHealth (stu [0]) none) = true ∧ bitB (pw (stu [0]) 2) 8 = false ∧
    checksPass idleState infoFeHealth (stu [0x100]) (meanFeHealth (stu [0x100]) (some 0)) = true ∧ bitB (pw (stu [0x100]) 2) 8 = true ∧
    checksPass idleState infoFeDeskew (stu [0, 0, 0, 0, 0]) (meanFeDeskew (stu [0, 0, 0, 0, 0])) = true := by decide

/-- Bench 0 CAPTURING in state mode on its own clock, with the stuck-at window set. -/
def stateModeState : State := ((withBench .capturing).wrBoth .feMode 0 0 0x10).wr .feCtrl 0 0 1

theorem witness_FrontEndEventsComplete :
    let s := { stateModeState with boot := { stateModeState.boot with quietOver := true } }
    s.live = true ∧ bitB (s.pod 0).ovd 31 = false ∧ (0 : Nat) < s.member.pods ∧
    (setOverdrive s 0 ((s.pod 0).ovd ||| W (2 ^ 31))).ownerOf 0 = some 0 ∧
    (setOverdrive s 0 ((s.pod 0).ovd ||| W (2 ^ 31))).isReady = true ∧
    s.capturing 0 = true ∧ fld (s.rd .feCtrl 0) 7 0 ≠ 0 ∧ s.samples 0 0 31 = true ∧ bitB (s.pod 0).stuck 31 = false ∧
    ¬ ((s.cap 0).lastTick / 8 = s.power.baseTick / 8 ∧ bitB (wordAt (s.cap 0).changed 0) 31 = true) ∧
    (let u := s.setCap 0 { s.cap 0 with changed := [0x80000000] }
     u.capturing 0 = true ∧ (u.cap 0).lastTick / 8 = u.power.baseTick / 8 ∧ bitB (wordAt (u.cap 0).changed 0) 31 = true) ∧
    s.stateMode 0 = true ∧ s.isReady = true ∧ s.mayControl = true ∧ (s.pod 7).present = false ∧ (7 : Nat) < s.member.pods ∧
    ((s.setPod 0 { present := true }).pod 0).present = true ∧ (s.setPod 0 { present := true }).mayControl = true := by decide

theorem witness_TriggerCommandsComplete :
    checksPass idleState (infoTrgSetLevel (stu [0x10, 1, 0, 0])) (stu [0x10, 1, 0, 0]) (meanTrgSetLevel (stu [0x10, 1, 0, 0])) = true ∧
    checksPass idleState (infoTrgSetResource (stu [0x300, 0, 0, 0, 0])) (stu [0x300, 0, 0, 0, 0])
      (meanTrgSetResource (stu [0x300, 0, 0, 0, 0])) = true ∧
    checksPass idleState infoTrgQuery (stu [0]) (meanTrgQuery (stu [0])) = true ∧
    checksPass armedState infoTrgForce (stu []) (meanTrgForce (stu [])) = true ∧
    checksPass readyState infoRelayEnable (adm [0, 3]) (meanRelayEnable (adm [0, 3])) = true := by decide

theorem witness_CaptureCommandsComplete :
    checksPass idleState infoCapArm (stu []) (meanCapArm (stu [])) = true ∧
    checksPass armedState infoCapStop (stu []) (meanCapStop (stu [])) = true ∧
    checksPass idleState infoCapConfig (stu [0, 0, 0]) (meanCapConfig (stu [0, 0, 0])) = true ∧
    checksPass idleState infoSknList (stu [0, 0]) (meanSknList (stu [0, 0])) = true ∧
    checksPass keptState infoSknRead (stu [0, 0, 0, 64]) (meanSknRead (stu [0, 0, 0, 64])) = true ∧
    (takeCommand keptState 0x0405 (stu [0, 0, 0, 64])).bobbinSkein 0 0 = some oneSkein ∧
    checksPass keptState infoSknDelete (stu [1]) (meanSknDelete (stu [1])) = true ∧
    checksPass readyState infoBobbinLend (adm [0]) (meanBobbinLend (adm [0])) = true := by decide

theorem witness_CaptureEventsComplete :
    armedState.live = true ∧ armedState.replaysBench 0 = false ∧ armedState.capturing 0 = true ∧
    (let s := armedState.setCap 0 { ovr := true }
     (s.cap 0).ovr = true ∧ s.bobbinBytes 0 ≤ 4 * s.bobbinFree 0 ∧ s.live = true) ∧
    ((armedState.setCap 0 { boundary := some (9, true) }).cap 0).boundary = some (9, true) ∧
    (((armedState.setCap 0 { cur := some { oneSkein with due := some 12 } }).cap 0).cur.bind Skein.due) = some 12 := by decide

/-- A catalogue entry of bench 0. -/
def oneEntry : CatEntry := ⟨0, 0, 5, [], 0, false, [], [], []⟩

/-- The lanes serve and the catalogue holds one skein of bench 0. -/
def storedState : State := { idleState.setLane 0 readyLane with storage := { idleState.storage with catalogue := [oneEntry] } }

theorem witness_CompressionCommandsComplete :
    checksPass idleState infoCmpConfig (stu [0]) (meanCmpConfig (stu [0])) = true ∧
    checksPass keptState infoCmpExport (stu [0, 0, 1024]) (meanCmpExport (stu [0, 0, 1024])) = true ∧
    checksPass storedState infoCmpVerify (stu [5]) (meanCmpVerify (stu [5])) = true ∧
    checksPass armedState infoCmpFlush (stu []) (meanCmpFlush (stu [])) = true ∧
    checksPass idleState infoCmpQuery (stu [0]) (meanCmpQuery (stu [0])) = true := by decide

theorem witness_CompressionEventsComplete :
    (armedState.setCap 0 { cur := some { oneSkein with cmpCfg := 0x10000 } }).live = true ∧
    (armedState.setCap 0 { cur := some { oneSkein with cmpCfg := 0x10000 } }).autoflush 0 ≠ 0 ∧
    (jobState 3 .stream).makesBlocks 3 = true ∧ (jobState 3 .stream).live = true ∧
    idleState.causeGone 0 .storageFull = false ∧ idleState.causeGone 0 .laneRetired = false ∧ idleState.survoRuns = true := by decide

theorem witness_StorageCommandsComplete :
    checksPass idleState infoSlQuery (stu [0, 0]) (meanSlQuery (stu [0, 0])) = true ∧
    checksPass idleState infoSlStream (stu [0]) (meanSlStream (stu [0])) = true ∧
    checksPass storedState infoSlRead (stu [0, 5]) (meanSlRead (stu [0, 5])) = true ∧
    slReadEntry (takeCommand storedState 0x0603 (stu [0, 5])) (stu [0, 5]) = some oneEntry ∧
    (accept (takeCommand storedState 0x0603 (stu [0, 5])) 0x0603 (stu [0, 5]) false).entryRetired oneEntry = none ∧
    ((storedState.setLane 0 { readyLane with state := .retired, pages := [(0, ⟨1, 0, 4, 0, 0, [], false, []⟩)] }).entryRetired
      { oneEntry with parts := [(0, 0, 4)] }).isSome = true ∧
    ((storedState.entry? 0 0 5).bind storedState.entryRetired = none ∧ storedState.mayStart 0 1 = true ∧
      ((storedState.wrBoth .plyRate 0 1 5).setLevel 0 1 (-1)).mayStart 0 1 = false) ∧
    checksPass laneState infoSlBbtRead (adm [0, 0]) (meanSlBbtRead (adm [0, 0])) = true := by decide

theorem witness_StorageLongCommandsComplete :
    checksPass laneState infoSlFormat (adm [1]) (meanSlFormat (adm [1])) = true ∧
    (accept (takeCommand laneState 0x0604 (adm [1])) 0x0604 (adm [1]) false).retiredIn 1 = none ∧
    checksPass laneState infoSlScrub (adm [1]) (meanSlScrub (adm [1])) = true ∧
    (accept (takeCommand laneState 0x0605 (adm [1])) 0x0605 (adm [1]) false).retiredIn 1 = none ∧ pf (adm [1]) 2 1 0 ≠ 0 ∧
    checksPass laneState infoSlScrub (adm [0]) (meanSlScrub (adm [0])) = true ∧ pf (adm [0]) 2 1 0 = 0 ∧
    (let s := { readyState with ref := { readyState.ref with retired := [(resLane 0, 0x0601)] } }
     checksPass s infoSlFormat (adm [1]) (meanSlFormat (adm [1])) = true ∧
       ((accept (takeCommand s 0x0604 (adm [1])) 0x0604 (adm [1]) false).retiredIn 1).isSome = true ∧
       checksPass s infoSlScrub (adm [1]) (meanSlScrub (adm [1])) = true) := by decide

/-- A page of a stream of bench 0. -/
def onePage (type : Nat) : NandPage := ⟨type, 0, 0, 0, 0, [], false, []⟩

/-- Lane SLA has a program of a page under way. -/
def programState (type : Nat) : State := readyState.setLane 0 { readyLane with issued := [⟨0, onePage type, false⟩] }

theorem witness_NandEventsComplete :
    ((programState 2).lane 0).issued = ⟨0, onePage 2, false⟩ :: [] ∧ (onePage 2).type ≠ 1 ∧ (programState 2).live = true ∧
    ((programState 1).lane 0).issued = ⟨0, onePage 1, false⟩ :: [] ∧ (onePage 1).type = 1 ∧
    (onePage 1).session = ((programState 1).sess 0).session ∧ ((programState 1).lane 0).issued ≠ [] ∧
    (let l := { readyLane with hanks := [(1, { owner := .bench 0, erases := 1 })] }
     (l.hank (l.hankOf 4)).owner ≠ .free ∧ (l.pages.any fun e => decide (e.1 / 4096 = l.hankOf 4)) = false ∧ l.isBad 4 = false) ∧
    (let l := { readyLane with pages := [(0, onePage 1)] }
     (l.pages.get blankPage (l.keyOf 0 0)).type ≠ 0 ∧ (l.pages.get blankPage (l.keyOf 0 0)).lost = false ∧ 0 ∈ l.goodBlocks (l.hankOf 0) ∧
       0 < l.geom.pagesPerBlock) ∧ pageBad [⟨9, 72⟩, ⟨9, 73⟩] = true ∧ pageBad [⟨9, 72⟩, ⟨8, 73⟩] = false ∧
    laneState.laneServes 0 = true := by decide

theorem witness_LaneUpkeepCompletes :
    (let s := { laneState with storage := { laneState.storage with scrubDue := 1 } }
     s.live = true ∧ s.laneServes 0 = true ∧ s.survoRuns = true ∧ s.storage.suspended = false ∧ s.scrubPaused = false ∧
       s.storage.scrubDue.testBit 0 = true) ∧
    ({ laneState with storage := { laneState.storage with scrubBy := some (.adminUsb, 1, 1, 0) } } : State).scrubAsked 0 = true ∧
    laneState.laneQuiet 0 = true ∧
    fld ((laneState.wr .slWlCfg 0 0 0).rd .slWlCfg) 31 16 * 1000 ≤ (laneState.lane 0).reads.get (fun _ => 0) 0 ∧
    ((readyState.setLane 0 { readyLane with moving := some (4, 5) }).lane 0).moving.isSome = true ∧ (laneState.lane 0).moving = none := by
  decide

theorem witness_EngineCommandsComplete :
    (let c := stu [0x10, 0, 0, 0, 0, 0, 0, 0]
     checksPass idleState (infoSearchJob c) c (meanSearchJob c) = true ∧ bitB (pw c 2) 0 = false) ∧
    (let c := stu [0x11, 0, 0, 0, 0, 0, 0, 0]
     checksPass storedState (infoSearchJob c) c (meanSearchJob c) = true ∧ bitB (pw c 2) 0 = true) ∧
    (let c := stu [8, 0, 0, 0, 0]
     checksPass idleState (infoDecodeJob c) c (meanDecodeJob c) = true ∧ bitB (pw c 2) 0 = false) ∧
    (let c := stu [9, 0, 0, 0, 0]
     checksPass storedState (infoDecodeJob c) c (meanDecodeJob c) = true ∧ bitB (pw c 2) 0 = true) ∧
    checksPass (jobState 4 (.search [])) infoJobCancel (stu [1]) (meanJobCancel (stu [1])) = true ∧
    cancelled (takeCommand (jobState 4 (.search [])) 0x0703 (stu [1])) (stu [1]) = some (oneJob 4 (.search [])) ∧
    checksPass idleState infoEngQuery (stu [0]) (meanEngQuery (stu [0])) = true ∧
    checksPass readyState infoPlyConfig (adm [0, 5, 0]) (meanPlyConfig (adm [0, 5, 0])) = true ∧
    checksPass readyState infoRegulatorSet (adm [0, 0, 4096]) (meanRegulatorSet (adm [0, 0, 4096])) = true := by decide

theorem witness_storedSelection :
    let t := accept (takeCommand storedState 0x0701 (stu [0x11, 0, 0, 0, 0, 0, 0, 0])) 0x0701 (stu [0x11, 0, 0, 0, 0, 0, 0, 0]) false
    (t.selectedEntries 0 0 0 0).findSome? t.entryRetired = none := by decide

theorem witness_UmpireEventsComplete :
    idleState.umpireRuns 8 = true ∧ (idleState.engine 8).job = none ∧
    (let s := jobState 4 (.search [])
     s.umpireRuns 4 = true ∧ (s.engine 4).job.isSome = true ∧ s.interleaved 4 = false ∧ (s.engine 4).chosen = none ∧
       s.inRally 4 = true ∧ s.live = true) ∧
    (let s := (jobState 4 (.search [])).setEngine 4 { job := some 0, chosen := some none }
     s.inRally 4 = true ∧ (s.engine 4).chosen = some none) ∧ ((4 : Fin 9).val ≠ 8) ∧
    (let s := jobState 0 .stream
     s.inRally 0 = true ∧ s.blocked 0 = true) := by decide

theorem witness_IntervalCommandsComplete :
    checksPass idleState infoIuConfig (stu [0x20, 0, 0]) (meanIuConfig (stu [0x20, 0, 0])) = true ∧
    checksPass idleState infoIuMeasure (stu [1]) (meanIuMeasure (stu [1])) = true ∧
    checksPass readyState infoIuCalibrate (adm [0]) (meanIuCalibrate (adm [0])) = true ∧
    checksPass idleState infoIuQuery (stu [0]) (meanIuQuery (stu [0])) = true ∧
    checksPass readyState infoIuSetAge (adm [0]) (meanIuSetAge (adm [0])) = true := by decide

theorem witness_IntervalEventsComplete :
    readyState.pathLive .survo = true ∧
    (let s := { readyState with iu := { readyState.iu with state := .waitStart } }
     s.live = true ∧ (0 : Nat) = s.iuStartSrc ∧ false = bitB (s.eff .iuCfg) 3 ∧ (0 : Nat) ≤ s.iuTimeout ∧ s.iuSees 0 = true ∧
       s.jobOn 8 = none) ∧
    (let s := { readyState.wrBoth .iuCfg 0 0 0x20 with iu := { readyState.iu with state := .collecting } }
     (fld (s.eff .iuCfg) 8 4).testBit 1 = true ∧ s.iuStopSense false = true ∧ s.iuSees 1 = true ∧ 5 ≤ s.iuTimeout ∧
       s.iu.stops.length < s.iuWanted ∧ s.iuTooSoon ⟨1, false, s.iu.nextInterp 1, 0, 5⟩ = false) ∧
    (let s := jobState 8 (.measure 1 0)
     s.live = true ∧ s.jobOn 8 = some (oneJob 8 (.measure 1 0)) ∧ ({ s with iu := { s.iu with state := .waitStart } } : State).iu.state = .waitStart) ∧
    ({ readyState with iu := { readyState.iu with state := .calibrating } } : State).live = true := by decide

theorem witness_TwoWireCommandsComplete :
    checksPass readyState infoTwConfig (adm [0x30, 500, 3, 10]) (meanTwConfig (adm [0x30, 500, 3, 10])) = true ∧
    checksPass idleState infoTwAlertRead (stu [0x100]) (meanTwAlertRead (stu [0x100])) = true ∧
    checksPass readyState (infoTwXfer (adm [0x120, 0x55])) (adm [0x120, 0x55]) (meanTwXfer (adm [0x120, 0x55]) []) = true ∧
    checksPass idleState infoTwQuery (stu [0]) (meanTwQuery (stu [0])) = true := by decide

theorem witness_TwoWireTargetCompletes :
    (let s := { readyState with boot := { readyState.boot with phase := .bbt } }
     s.live = true ∧ s.isReady = false ∧ s.twBootServes = true) ∧
    (readyState.twServes = true ∧ readyState.tw.stretched = none ∧ (15 : BitVec 8).toNat < 16 ∧ readyState.tw.nacking = false) ∧
    (let s := { readyState with tw := { readyState.tw with pointer := 0x20 } }
     ((accessRead s .twoWire 0x20).path .twoWire).error = false) ∧
    (let w := accessWrite { readyState with tw := { readyState.tw with pointer := 0x6008 } } .twoWire 0x6008 1
     (w.path .twoWire).error = false ∧ w.tw.stretched = none) ∧
    (let q := ({ waiting := [(.path .twoWire, mkQWord 7 .data)] } : Queue)
     let s := { readyState.setQueue 63 q with tw := { readyState.tw with stretched := some (0x6000 + 63 * 0x40 + 0x0C, 9) } }
     s.live = true ∧ s.tw.stretched = some (0x6000 + 63 * 0x40 + 0x0C, 9) ∧ twWaits s 63 = some (mkQWord 7 .data)) ∧
    ({ readyState with power := { readyState.power with state := .doze } } : State).power.state = .doze := by decide

/-- READY, the quiet period over, and an alert being sent. -/
def alertState (c : CState) : State :=
  { readyState with
    boot := { readyState.boot with quietOver := true }
    tw := { readyState.tw with cstate := c, sending := some ⟨0, 1, 15, 0, 0x0703, 2⟩, alerts := [⟨0, 1, 15, 0, 0x0703, 2⟩] } }

theorem witness_TwoWireControllerCompletes :
    (alertState .sending).alertSending = some (⟨0, 1, 15, 0, 0x0703, 2⟩, false) ∧ (alertState .sending).mayControl = true ∧
    (alertState .sending).isReady = true ∧ (alertState .last).alertSending = some (⟨0, 1, 15, 0, 0x0703, 2⟩, true) ∧
    readyState.live = true ∧ readyState.tw.retired = false ∧ (alertState .wait).tw.cstate = .wait ∧ (alertState .wait).live = true ∧
    (alertState .backoff).tw.cstate = .backoff ∧ readyState.pathLive .twoWire = true ∧
    (let s := { readyState with boot := { readyState.boot with phase := .pods } }
     s.alertSending = none ∧ s.live = true ∧ s.boot.phase = .pods ∧ s.boot.podsDone = false) := by decide

theorem witness_CalendarCommandsComplete :
    checksPass readyState infoCalSet (adm [0x00010100, 0, 0]) (meanCalSet (adm [0x00010100, 0, 0])) = true ∧
    checksPass idleState infoCalGet (stu [0]) (meanCalGet (stu [0])) = true ∧ readyState.pathLive .survo = true ∧
    readyState.survoRuns = true ∧
    ({ readyState with cal := { readyState.cal with dateChanged := true } } : State).cal.dateChanged = true := by decide

theorem witness_FaultCommandsComplete :
    checksPass idleState infoFltList (stu [0x10000]) (meanFltList (stu [0x10000])) = true ∧
    checksPass idleState infoRefInservice (stu [0]) (meanRefInservice (stu [0])) = true ∧
    checksPass readyState infoRefTest (adm [0x10000000]) (meanRefTest (adm [0x10000000])) = true ∧
    checksPass { readyState with ref := { readyState.ref with retired := [(0x10000000, 0x0101)] } } infoRefReturn (adm [0x10000000])
      (meanRefReturn (adm [0x10000000])) = true ∧ readyState.pathLive .survo = true := by decide

/-- A test of a resource. -/
def oneTest (res : Word) (retest : Bool) : RefTest := ⟨res, 0x0301, 0, false, retest, none, none⟩

theorem witness_RefereeEventsComplete :
    readyState.live = true ∧
    (let s := { readyState with ref := { readyState.ref with waiting := [oneTest 0x80000000 false] } }
     (s.ref.waiting.find? fun t => decide (resType t.res = (7 : Fin 8).val + 1)) = some (oneTest 0x80000000 false) ∧
       s.testReady (oneTest 0x80000000 false) = true) ∧
    (let s := { readyState with ref := { readyState.ref with running := [oneTest 0x10000000 true] } }
     (s.ref.running.find? fun t => decide (resType t.res = (0 : Fin 8).val + 1)) = some (oneTest 0x10000000 true)) ∧
    (oneTest 0x10000000 true).retest = true ∧ (oneTest 0x10000000 false).retest = false ∧
    readyState.resExists (resSram 95) = true ∧
    (jobState 8 (.measure 1 0)).umpireRuns 8 = true ∧ (jobState 8 (.measure 1 0)).jobOn 8 = some (oneJob 8 (.measure 1 0)) ∧
    (let s := { readyState with ref := { readyState.ref with rejoining := [0x10000000] } }
     s.ref.rejoining.contains 0x10000000 = true ∧ (s.resOwner 0x10000000).all (fun n => !s.capturing n) = true) := by decide

theorem witness_ReplayCommandsComplete :
    (checksPass laneState infoRplRecord (adm [0x101, 0]) (meanRplRecord (adm [0x101, 0])) = true ∧ bitB (pw (adm [0x101, 0]) 2) 31 = false) ∧
    (let s := { readyState with rpl := { readyState.rpl with logs := [⟨3, 1⟩] } }
     checksPass s infoRplRecord (adm [0x80000000, 3]) (meanRplRecord (adm [0x80000000, 3])) = true ∧
       bitB (pw (adm [0x80000000, 3]) 2) 31 = true) ∧
    checksPass idleState infoRplStatus (stu [0]) (meanRplStatus (stu [0])) = true ∧
    checksPass { readyState with rpl := { readyState.rpl with state := .recording } } infoRplStop (adm []) (meanRplStop (adm [])) = true := by
  decide

theorem witness_ReplayEventsComplete :
    (let s := { laneState.wr .rplCfg 0 0 0x100 with rpl := { laneState.rpl with state := .recording } }
     s.rpl.state = .recording ∧ s.live = true ∧ s.logLanes ≠ [] ∧ s.rpl.buffer.length < 256) ∧
    ({ readyState with rpl := { readyState.rpl with state := .recording } } : State).logLanes = [] ∧
    (let s := { readyState with rpl := { readyState.rpl with state := .replaying, checks := [⟨1, 12, 0, 0⟩], ended := true } }
     s.rpl.state = .replaying ∧ s.survoRuns = true ∧ (s.rpl.checks.find? fun e => e.source == (0 : Byte).toNat) = some ⟨1, 12, 0, 0⟩ ∧
       s.rpl.ended = true) ∧
    (let s := { readyState with rpl := { readyState.rpl with state := .stopping } }
     s.survoRuns = true ∧ s.rpl.state = .stopping) := by decide

theorem witness_PowerCommandsComplete :
    (let c := adm [1, 0]
     checksPass readyState infoPowerEnter c (meanPowerEnter c) = true ∧ entryTarget (pf c 2 1 0) = some .sleep ∧
       (requestEntry (setPowerCtrl (takeCommand readyState 0x0D01 c) c) .sleep).1 = true) ∧
    checksPass idleState infoPowerQuery (stu []) (meanPowerQuery (stu [])) = true ∧
    checksPass readyState (infoDstSetRules (adm [0x1F, 0])) (adm [0x1F, 0]) (meanDstSetRules (adm [0x1F, 0])) = true ∧
    checksPass readyState infoDstSetInputs (adm [0, 0, 0, 0, 0, 0, 0, 0, 0, 0]) (meanDstSetInputs (adm [0, 0, 0, 0, 0, 0, 0, 0, 0, 0])) =
      true ∧
    checksPass readyState infoDstCounters (adm [1, 5, 0, 0, 0]) (meanDstCounters (adm [1, 5, 0, 0, 0])) = true ∧
    (checksPass idleState infoDstReadLog (stu [0]) (meanDstReadLog (stu [0])) = true ∧ bitB (pw (stu [0]) 2) 16 = false) ∧
    (checksPass readyState infoDstReadLog (adm [0x10000]) (meanDstReadLog (adm [0x10000])) = true ∧
      bitB (pw (adm [0x10000]) 2) 16 = true) := by decide

theorem witness_PowerEventsComplete :
    readyState.pathLive .survo = true ∧
    (let s := { readyState with power := { readyState.power with entry := some .doze } }
     s.power.entry = some .doze ∧ s.live = true ∧ s.ref.running = [] ∧ s.ref.waiting = [] ∧
       (∀ q : Nat, q < 67 → (isCmdQueue q = true ∨ q = 66) → (s.queue q).count = 0) ∧
       isCmdQueue 0 = true ∧ 0 < ((s.setQueue 0 { stages := [(15, mkQWord 0 .mark)] }).queue 0).count) ∧
    readyState.power.state ≠ .off ∧
    (let s := readyState.wr .pwrCtrl 0 0 2
     bitB (s.rd .pwrCtrl) 1 = true ∧ s.power.atick % 2 ^ 32 = (s.rd .pwrWakeAt).toNat) ∧
    (let s := { readyState with power := { readyState.power with state := .sleep, waking := some .doze } }
     s.power.fastReset = false ∧ s.power.waking = some .doze) ∧
    ({ readyState with power := { readyState.power with state := .sleep, waking := some .awake } } : State).power.waking = some .awake := by
  decide

theorem witness_ResetEventsComplete :
    ({ State.reset with power := { State.reset.power with state := .off } } : State).power.state = .off ∧ readyState.power.state ≠ .off ∧
    readyState.survoRuns = true ∧
    (let s := { State.reset with power := { State.reset.power with fastReset := true } }
     s.power.fastReset = true ∧ s.power.nresetLow = false ∧ s.power.trip = false ∧ s.power.state ≠ .off) := by decide

/-- The recovery phase, attached to a host. -/
def recoveryState : State :=
  { State.reset with
    boot := { State.reset.boot with phase := .recovery }
    usb := { State.reset.usb with pullup := true } }

theorem witness_StartupCompletes :
    State.reset.live = true ∧ State.reset.boot.phase = .none ∧
    ({ State.reset with boot := { State.reset.boot with phase := .fwStart } } : State).boot.phase = .fwStart ∧
    (let s := { State.reset with boot := { State.reset.boot with phase := .pods } }
     s.boot.phase = .pods ∧ s.boot.podsDone = false) ∧
    ({ State.reset with boot := { State.reset.boot with phase := .pods, podsDone := true } } : State).boot.podsDone = true ∧
    (let s := { readyState with power := { readyState.power with vbus := true, usbRails := true } }
     s.pullupDue = true ∧ s.mayAttach = true) ∧ readyState.mayAttach = false ∧
    (let v : ImageView := ⟨true, true, 0x4F525653, 0x00030002, 4, true, true⟩
     imageError v = none ∧ imageError { v with length := 229248 } = none ∧ imageError { v with length := 229249 } = some 0x12 ∧
       State.reset.member.lanes ≠ 0 ∧ State.reset.boot.straps.bootsel = false) ∧
    recoveryState.live = true ∧ recoveryState.usb.pullup = true ∧ recoveryState.boot.phase = .recovery ∧
    ([1, 2] : List Byte).length ≤ 4096 := by decide

theorem witness_UsbLinkCompletes :
    usbState.live = true ∧ usbState.usb.link ≠ .detached ∧ usbState.usb.link = .highSpeed ∧
    (let s := { usbState with usb := { usbState.usb with link := .suspended, remoteWakeup := true },
                              power := { usbState.power with lastWake := .timer } }
     s.usb.link = .suspended ∧ s.live = true ∧ s.usb.remoteWakeup = true ∧ s.power.lastWake ≠ .usb ∧ s.power.lastWake ≠ .powerOn) ∧
    (let s := { usbState with usb := { usbState.usb with link := .suspended }, power := { usbState.power with state := .doze } }
     s.usb.link = .suspended ∧ s.live = false) ∧
    usbState.usb.pullup = true ∧
    (let s := { usbState with usb := { usbState.usb with link := .detached } }
     s.usb.link = .detached ∧ s.hostPresent = true) := by
  decide

/-- A response frame in the RSP queue of bench 0. -/
def rspState : State :=
  usbState.setQueue 1 { stages := stacked (mkQWord 0 .mark :: List.replicate 7 (mkQWord 0 .data)) }

theorem witness_UsbTransfersComplete :
    usbState.usbUp = true ∧ usbState.boot.phase ≠ .recovery ∧ usbState.outQueue 9 = some 66 ∧
    (usbState.queue 66).waiting.any (fun w => decide (w.1 = .bulkOut)) = false ∧ usbState.outQueue (129 - 128) = some 0 ∧
    rspState.nextKind 1 = some 1 ∧ rspState.rspReady 1 = true ∧
    (let s := usbState.setQueue 2 { stages := [(0, mkQWord 0 .mark)] }
     s.nextKind 1 = some 2 ∧ s.evtReady 1 = true) ∧
    (let d : DataItem := ⟨1, [1], true, none, 0, none, false⟩
     let s := usbState.setEndpoint 1 { data := [d] }
     s.nextKind 1 = none ∧ (s.endpoint 1).data = d :: [] ∧ s.mayStart 0 2 = true) ∧
    (let s := usbState.setEndpoint 1 { rest := some ⟨1, 1, false, false, [1]⟩ }
     (s.endpoint 1).rest = some ⟨1, 1, false, false, [1]⟩) ∧ (usbState.endpoint 1).rest = none ∧ (usbState.endpoint 1).data.head? = none ∧
    (let d : DataItem := ⟨1, [1], true, none, 0, none, true⟩
     let s := rspState.setEndpoint 1 { data := [d] }
     (s.endpoint 1).data = d :: [] ∧ d.rest = true ∧ s.mayStart 0 2 = true) ∧
    usbState.requestWaits = false ∧ requestOk 0 64 = true ∧ requestOk 0 0 = false := by decide

theorem witness_RegisterAccessesComplete :
    readyState.pathLive .survo = true ∧ usbState.pathLive .usb = true ∧ readyState.pathLive .twoWire = true ∧ isAon 0x1FFC = true ∧
    isAon 0x41000 = true := by decide

theorem witness_QueueEventsComplete :
    readyState.live = true ∧ (65 : Fin 68).val < 66 ∧ (67 : Fin 68).val = 67 ∧ (66 : Fin 68).val = 66 ∧
    readyState.survoRuns = true ∧ (readyState.stream .adminUsb).held = [] ∧
    ((readyState.setStream .adminUsb { held := [mkQWord 0 .mark] }).stream .adminUsb).held ≠ [] := by decide

/-- Words of a command of two frames, of which the first has come. -/
def partCommand : List QWord :=
  mkQWord (dword 0x01010101 0xF0) .mark :: List.replicate 7 (mkQWord 0 .data)

theorem witness_StreamEventsComplete :
    (let s := readyState.setStream (.bench 0) { rx := partCommand }
     s.streamFree (.bench 0) = true ∧ 8 ≤ (s.stream (.bench 0)).rx.length ∧
       (s.stream (.bench 0)).rx.length < cmdSpan (s.stream (.bench 0)).rx ∧
       ((s.stream (.bench 0)).rx.head?.any fun w => decide (w.tag = .mark)) = true ∧
       (framesTimeout s (.bench 0) (s.headCmd (.bench 0)).2.tag 5).isSome = true) ∧
    (readyState.setStream (.bench 0) { rx := [mkQWord 1 .data] }).streamFree (.bench 0) = true ∧ (mkQWord 1 .data).tag ≠ .mark := by decide

/-- Discards: a whole poisoned command, a poisoned one cut short, and clean ones cut short within and after their first frame. -/
theorem witness_cmdDiscarded :
    let mark := mkQWord (dword 0x01050101 0) .mark
    let long := mkQWord (dword 0x01010101 0xF0) .mark
    let bad := { mkQWord 1 .data with tag := .poison }
    (let rx := mark :: bad :: List.replicate 6 (mkQWord 0 .data)
     (commandWords rx).length = cmdSpan rx ∧ bad ∈ commandWords rx ∧ (readyState.setStream (.bench 0) { rx := rx }).streamFree (.bench 0) = true) ∧
    (let rx := mark :: bad :: mark :: []
     (commandWords rx).length < cmdSpan rx ∧ (commandWords rx).length < rx.length ∧ bad ∈ commandWords rx) ∧
    (let rx := mark :: mark :: []
     (commandWords rx).length < cmdSpan rx ∧ (commandWords rx).length < rx.length ∧ (commandWords rx).length < 8 ∧
       ((commandWords rx).all fun x => decide (x.tag ≠ .poison)) = true) ∧
    (let rx := long :: List.replicate 7 (mkQWord 0 .data) ++ [mark, mark]
     8 ≤ (commandWords rx).length ∧ (commandWords rx).length < cmdSpan rx ∧ (commandWords rx).length < rx.length ∧
       ((commandWords rx).all fun x => decide (x.tag ≠ .poison)) = true) := by decide

theorem witness_deadlines :
    readyState.survoRuns = true ∧ (.bench 0 : Stream) ≠ .adminTw ∧
    (let s := readyState.setStream (.bench 0) { outstanding := [⟨0x0701, 1, 0, false⟩] }
     (framesTimeout s (.bench 0) 1 5).isNone = true ∧ (waitingTimeout s (.bench 0) 1 5).isNone = true ∧
       ((s.stream (.bench 0)).outstanding.find? fun a => a.tag == 1) = some ⟨0x0701, 1, 0, false⟩) ∧
    (let s := readyState.setSeqr 0 { force := some (stu []) }
     ((framesTimeout s (.bench 0) 1 5).or (waitingTimeout s (.bench 0) 1 5)).isSome = true ∧ s.survoRuns = true) ∧
    (idleState.sess 0).detached = false ∧ (idleState.sess 0).transport = .usb ∧
    (let s := readyState.setSess 0 { state := .idle, transport := .twoWire }
     (s.sess 0).transport = .twoWire ∧ (s.stream (.bench 0)).held.isEmpty = true ∧ (s.queue 1).roomFor 8 = true) := by decide

theorem witness_BenchResetCompletes :
    let s := readyState.setSess 0 { state := .resetting, reset := some ⟨false, none, 0, none⟩ }
    (s.sess 0).reset = some ⟨false, none, 0, none⟩ ∧ s.bstate 0 = .resetting ∧ s.live = true ∧ s.programming 0 = false := by decide

theorem witness_StepRunsFrontCommand :
    ({ State.reset with pending := [.coldReset, .quietPeriodEnd] } : State).pending = .coldReset :: [.quietPeriodEnd] ∧
    State.reset.pending = [] := by decide

theorem witness_StepKeeps : Canonical State.reset ∧ State.reset.cal.InRange ∧ step State.reset = .next (idleTick State.reset) := by
  refine ⟨?_, ?_, rfl⟩
  · unfold Canonical; decide
  · unfold Calendar.InRange; decide

theorem witness_ExecKeepsQueue :
    exec .junctionTripRelease State.reset = .next { State.reset with power := { State.reset.power with trip := false } } := rfl

theorem witness_CalendarAcrossResets :
    exec .coldReset State.reset = .next { coldResetState State.reset with power := { (coldResetState State.reset).power with state := .off } } ∧
    exec .survoWatchdog readyState = .next (fastReset readyState 5) ∧
    ({ State.reset with power := { State.reset.power with state := .off } } : State).power.state = .off := ⟨rfl, rfl, rfl⟩

theorem witness_RegistersAcrossResets :
    exec (.supplyMonitorReset .vtw) readyState =
      .next { fastReset readyState 2 with power := { (fastReset readyState 2).power with state := .off } } ∧
    (0x0FFC < 0x1000 ∨ 0x2000 ≤ 0x0FFC) ∧ (0x1000 : Nat) ≤ 0x1FFC ∧ 0x1FFC < 0x2000 := ⟨rfl, by decide, by decide, by decide⟩

theorem witness_TriggerConditions :
    (let s := readyState.wrBoth .trgWcCfg 0 7 0x17
     bitB (readyState.eff .trgWcCfg 0 7) 4 = false ∧ bitB (s.eff .trgWcCfg 0 7) 4 = true ∧
       ((s.wrBoth .trgWcA 0 7 1).wrBoth .trgWcB 0 7 0).eff .trgWcB 0 7 < ((s.wrBoth .trgWcA 0 7 1).wrBoth .trgWcB 0 7 0).eff .trgWcA 0 7) ∧
    (let s := readyState.wrBoth .trgEdge 0 3 0x3FF
     fld (s.eff .trgEdge 0 3) 7 0 = 32 * 7 + 31 ∧ fld (s.eff .trgEdge 0 3) 9 8 = 3) ∧
    fld ((readyState.wrBoth .trgEdge 0 0 0).eff .trgEdge 0 0) 9 8 = 0 ∧ fld ((readyState.wrBoth .trgEdge 0 0 0x100).eff .trgEdge 0 0) 9 8 = 1 ∧
    fld ((readyState.wrBoth .trgEdge 0 0 0x200).eff .trgEdge 0 0) 9 8 = 2 := by decide

theorem witness_ErrorsJoinTests :
    ({ readyState with ref := { readyState.ref with waiting := [oneTest 0x10000000 false] } } : State).underTest 0x10000000 = true ∧
    ({ readyState with ref := { readyState.ref with retired := [(0x10000000, 0x0101)] } } : State).isRetired 0x10000000 = true := by decide

theorem witness_VerdictsBooked :
    resType (oneTest 0x10000000 false).res ≠ 5 ∧ (bookVerdict readyState (oneTest 0x10000000 false) true).1 = false ∧
    (bookVerdict readyState (oneTest 0x10000000 false) false).1 = true ∧
    (bookVerdict { readyState with ref := { readyState.ref with lets := [(0x10000000, [0, 0])] } } (oneTest 0x10000000 false) true).1 = true :=
  by decide

theorem witness_FullAlertSet :
    let s := { readyState with tw := { readyState.tw with alerts := List.replicate 16 ⟨3, 0, 0, 0, 0, 0⟩ } }
    16 ≤ s.tw.alerts.length := by decide

theorem witness_EmptyQueueReads :
    readyState.queueResetting 65 = false ∧ (readyState.queue 65).retired = false ∧ (readyState.queue 65).testing = false ∧
    (readyState.queue 65).stages = [] ∧ readyState.qHold 65 = false ∧ (readyState.wr .glbAqCtl 1 0 1).qHold 65 = true ∧
    (rspState.queue 1).bottom ≠ none := by decide

theorem witness_QueuesAreFifo :
    (readyState.queue 63).retired = false ∧ ((readyState.queue 63).met (.path .usb)).canPush (.path .usb) = true ∧
    (rspState.queue 1).stages = (0, mkQWord 0 .mark) :: (rspState.queue 1).stages.tail ∧ rspState.queueResetting 1 = false ∧
    (rspState.queue 1).retired = false ∧ (rspState.queue 1).testing = false ∧
    ((rspState.queue 1).stages.all fun a => decide (a.1 < 16)) = true ∧ (rspState.queue 1).stages.map Prod.fst = List.range 8 ∧
    wordParity (mkQWord 0 .mark).data (mkQWord 0 .mark).tag = (mkQWord 0 .mark).par := by decide

theorem witness_EventSequence : (exemptEvent 0x8101 && readyState.replaysBench 7) = false := by decide

theorem witness_CalendarCommit :
    ({ readyState with cal := { readyState.cal with commit := true } } : State).cal.commit = true ∧ readyState.cal.InRange ∧
    validCal 0x001E0200 0 = false ∧ validCal 0x001D0200 0x00173B3B = true ∧
    validCal 0x001D0264 0 = false := by
  refine ⟨rfl, ?_, ?_, ?_, ?_⟩
  · unfold Calendar.InRange; decide
  all_goals decide

theorem witness_CalendarCountsOn :
    State.reset.cal.InRange ∧ State.reset.cal.linear + 1 < 73049 * 86400 * 2 ^ 15 ∧
    ({ year := 199, month := 12, day := 31, hour := 23, minute := 59, second := 59, sub := 32767 } : Calendar).InRange := by
  refine ⟨?_, ?_, ?_⟩
  · unfold Calendar.InRange; decide
  · decide
  · unfold Calendar.InRange; decide

theorem witness_PlainRegisterWrite :
    readyState.pathLive .survo = true ∧ readyState.busCause .survo (0x1288 : BitVec 16).toNat false (some 1) = 0 ∧
    readyState.regFor (0x1288 : BitVec 16).toNat = some ⟨.dstLogRptr, 0, 0⟩ ∧ RegName.dstLogRptr.row.bits .k = 0 ∧
    RegName.dstLogRptr.row.bits .h = 0 ∧ RegName.dstLogRptr.row.bits .a = 0 ∧
    RegName.dstLogRptr.row.bits .c ||| RegName.dstLogRptr.row.bits .g ≠ 0 ∧
    readyState.regFor (Reg.addr ⟨.feMode, 7, 0⟩) = some ⟨.feMode, 7, 0⟩ ∧ RegName.feMode.row.bits .k = 0 ∧
    RegName.feMode.row.bits .h = 0 ∧ RegName.feMode.row.bits .a = 0 ∧ RegName.feMode.row.bits .g ≠ 0 ∧
    readyState.umpire.jobs = [] ∧ readyState.fw.assign = none := by decide

/-! ### Witnesses of the checks in order -/

/-- A meaning that every check of its own lets pass. -/
def passing : Meaning where
  run s _ := s

/-- The clauses before check 6 meet their conditions: not READY, out of sequence, and a refusal by the opcode's own permission rule. -/
theorem witness_CommandChecksInOrder_front :
    (let s := { readyState with boot := { readyState.boot with phase := .fwStart } }
     s.survoRuns = true ∧ s.isReady = false ∧ isReplayTake s infoBenchStatus.op (stu [0]) = false ∧
       streamBlocked s infoBenchStatus.op (stu [0]) = false) ∧
    (let c := { stu [0] with seqOk := false }
     idleState.survoRuns = true ∧ idleState.isReady = true ∧ (idleState.stream c.stream).early = 0 ∧
       streamResetting idleState c = false ∧ checkForm idleState infoBenchStatus c false = some (.badArg, 1)) ∧
    checkForm idleState infoBenchStatus (stu [0]) false = none ∧
    ({ passing with perm := fun _ => some (.noPermission, 1) } : Meaning).perm idleState = some (.noPermission, 1) := by decide

/-- The later clauses meet theirs: a TAG in use, a bench in the wrong state, a condition, an operand, eight outstanding commands and a
resource; and a command that every check lets pass. -/
theorem witness_CommandChecksInOrder_back :
    (let a : Accepted := ⟨0, 1, 0, false⟩
     let s := idleState.setStream (.bench 0) { idleState.stream (.bench 0) with outstanding := [a] }
     checkForm s infoBenchStatus (stu [0]) false = none ∧ (s.busyTags (.bench 0)).contains (stu [0]).tag = true) ∧
    (let t := takeCommand readyState infoBenchClose.op (stu [])
     checkForm readyState infoBenchClose (stu []) false = none ∧ checkTag readyState (stu []) = none ∧
       (checkState t infoBenchClose (stu []) false).isSome = true) ∧
    ({ passing with cond := fun _ => some (.badState, 1) } : Meaning).cond idleState = some (.badState, 1) ∧
    ({ passing with args := fun _ => some (.badArg, 2) } : Meaning).args idleState = some (.badArg, 2) ∧
    (let a (t : Nat) : Accepted := ⟨0, BitVec.ofNat 8 (t + 2), 0, false⟩
     let s := keptState.setStream (.bench 0) { keptState.stream (.bench 0) with outstanding := (List.range 8).map a }
     infoSknRead.long = true ∧ checkForm s infoSknRead (stu [0, 0, 0, 64]) false = none ∧ checkTag s (stu [0, 0, 0, 64]) = none ∧
       8 ≤ ((takeCommand s infoSknRead.op (stu [0, 0, 0, 64])).stream (.bench 0)).outstanding.length) ∧
    ({ passing with space := fun _ => some (.noSpace, 1) } : Meaning).space idleState = some (.noSpace, 1) ∧
    checksPass idleState infoBenchStatus (stu [0]) passing = true := by decide

theorem witness_FilteredLevels :
    (15 : Nat) < 16 ∧
    (distaffValues readyState 0x8000).2.distaff.filtered.getLsbD 15 = true ∧
    (distaffValues readyState 0x8000).2.distaff.filtered.getLsbD 0 = false := by decide

theorem witness_AnswersChangeNothingElse :
    RegName.feMode ∉ [RegName.qCnt, .glbAqCnt, .bnEvtLost, .rplLost, .rplEntriesLo, .rplEntriesHi, .rplDivCnt] ∧
    regAt (Reg.addr ⟨.feMode, 7, 0⟩) = some ⟨.feMode, 7, 0⟩ ∧ Stream.bench 1 ≠ (stu []).stream := by decide

/-! ### Ill-formed terms: one for each check of `WellFormed` -/

/-- A lane probe with three chip enables where a lane has four. -/
def shortProbe : LaneProbe := ⟨[[], [], []], none, none, []⟩
/-- A lane probe with a fourth copy of a parameter page. -/
def crowdedProbe : LaneProbe := ⟨[List.replicate 4 ⟨true, ⟨4, 0, 64, 2, 1, 64, false⟩, 0, none⟩, [], [], []], none, none, []⟩
/-- A lane probe of an empty lane. -/
def emptyProbe : LaneProbe := ⟨[[], [], [], []], none, none, []⟩
/-- A command of more payload words than LEN can say. -/
def longCmd : Cmd := stu (List.replicate 256 0)

theorem smoke_lanes :
    WellFormed (.bbtLoaded shortProbe emptyProbe) = false ∧ WellFormed (.bbtLoaded emptyProbe shortProbe) = false ∧
    WellFormed (.bbtLoaded crowdedProbe emptyProbe) = false ∧ WellFormed (.bbtLoaded emptyProbe emptyProbe) = true := by decide

theorem smoke_pods :
    WellFormed (.podDiscovery (List.replicate 9 (.absent 0))) = false ∧ WellFormed (.podDiscovery [.bytes 0 [0]]) = false ∧
    WellFormed (.podPresencePoll 7 (.bytes 0 [])) = false ∧
    WellFormed (.podDiscovery [.absent 0, .lost, .bytes 3 (List.replicate 32 0)]) = true := by decide

theorem smoke_usb :
    WellFormed (.recWrite 0 []) = false ∧ WellFormed (.recWrite 0 [0]) = true ∧
    WellFormed (.bulkOutFrame 1 (List.replicate 15 0)) = false ∧ WellFormed (.bulkOutFrame 1 (List.replicate 16 0)) = true ∧
    WellFormed (.usbRegWrite 0 0 8 [0]) = false ∧ WellFormed (.usbRegWrite 0 0 8 [0, 0]) = true := by decide

theorem smoke_two_wire :
    WellFormed (.twBootStatusRead 0) = false ∧ WellFormed (.twBootStatusRead 1) = true ∧
    WellFormed (.alertSend (.done (List.replicate 33 0))) = false ∧ WellFormed (.backoffExpiry (.nack 33)) = false ∧
    WellFormed (.twXfer (stu []) (List.replicate 6 .lost)) = false ∧ WellFormed (.twXfer (stu []) [.nack 33]) = false ∧
    WellFormed (.twXfer (stu []) (List.replicate 5 .timeout)) = true ∧
    WellFormed (.twBusStop (List.replicate 5 0)) = false ∧ WellFormed (.twBusStop (List.replicate 4 0)) = true := by decide

/-- A pod whose 32 data balls and clock ball stand at 0 V. -/
def quietPod : PodInput := ⟨List.replicate 32 ⟨0, []⟩, ⟨0, []⟩, false⟩

theorem smoke_samples :
    WellFormed (.sampleVector 0 0 [quietPod]) = false ∧
    WellFormed (.sampleVector 0 0 (List.replicate 8 { quietPod with data := [] })) = false ∧
    WellFormed (.sampleVector 0 0 (List.replicate 8 { quietPod with clk := ⟨0, [(5, 900), (5, 0)]⟩ })) = false ∧
    WellFormed (.sampleVector 0 0 (List.replicate 8 { quietPod with clk := ⟨0, [(5, 900), (6, 0)]⟩ })) = true := by decide

theorem smoke_codewords :
    WellFormed (.uncorrectableRead 0 4 ⟨0, List.replicate 17 ⟨9, 73⟩⟩) = false ∧
    WellFormed (.retentionScrub 0 [⟨1, 0, List.replicate 17 ⟨9, 0⟩⟩]) = false ∧
    WellFormed (.retentionScrub 0 [⟨1, 0, List.replicate 16 ⟨9, 0⟩⟩]) = true := by decide

theorem smoke_upsets :
    WellFormed (.parityScrub [⟨2, false, 0⟩]) = false ∧ WellFormed (.parityScrub [⟨4, false, 0⟩]) = true := by decide

theorem smoke_interval :
    WellFormed (.iuStartEdge 0 false (2 ^ 40) 0) = false ∧ WellFormed (.iuStopEdge 0 false (2 ^ 40) 0) = false ∧
    WellFormed (.iuStartEdge 0 false (2 ^ 40 - 1) 0) = true := by decide

theorem smoke_calibration :
    WellFormed (.iuCalibrationEnd []) = false := by decide

theorem smoke_commands :
    WellFormed (.benchStatus longCmd) = false ∧ WellFormed (.badOpcodeCommand 0 longCmd) = false ∧
    WellFormed (.twXfer longCmd []) = false ∧ WellFormed (.benchStatus (stu [])) = true := by
  decide +kernel

/-! ### The spec's worked examples

Every expected value below is the spec's own, from the worked example of the chapter named. -/

/-- R266 and R232: the first word of a frame of CAPS_QUERY (chapter 6): a MARK word whose parity bit is 0. -/
theorem test_queue_word : wordParity (BitVec.ofNat 64 (leNat [0x02, 0x03, 0x2A, 0x00, 0x21, 0x00, 0x00, 0x00])) .mark = false := by decide

/-- Chapter 7: the event word of BENCH_RESET_DONE on bench 3. -/
theorem test_event_word : eventWord 0x8101 0 0 0x17 3 2 = 0x0000231700008101 := by decide

/-- Chapter 7: the words of a DST_SET_RULES command of 17 payload words are collected from two frames. -/
theorem test_frame_count : frameCount 17 = 2 ∧ frameCount 14 = 1 ∧ frameCount 0 = 1 := by decide

/-- Chapter 8: CAPS_QUERY at Survo 3.2 on an A9: LEN 50, words 2, 11, 12 and 51. -/
theorem test_caps_words :
    (let ws := capsWords { readyState with boot := { readyState.boot with version := 0x00030002 } }
     ws.length = 50 ∧ wordAt ws 0 = 0x00030002 ∧ wordAt ws 9 = 0x00000050 ∧ wordAt ws 10 = 0x01020101 ∧ wordAt ws 49 = 0x0E230E22) ∧
    rspWord1 3 50 0 0 = 0x00000323 ∧ rspWord1 3 50 3 0 = 0x00003323 := by decide

/-- Chapter 8: the membership words that split the lab in two. -/
theorem test_ply_membership :
    (List.range 8).map (plyOfBench (adm [0x5500, 0x4450])) = [0, 0, 0, 0, 1, 1, 1, 1] ∧
    (List.range 9).map (plyOfEngine (adm [0x5500, 0x4450])) = [0, 0, 1, 1, 0, 1, 0, 1, 0] := by decide

/-- Chapter 3: the Distaff log entry 00 00 00 08 07 93 07 2C. -/
theorem test_distaff_entry :
    bytesOfDWord (distaffEntry 0x2C 0 .sleep true true 9 3 0x0708000000) = [0x00, 0x00, 0x00, 0x08, 0x07, 0x93, 0x07, 0x2C] := by decide

/-- Chapter 4: the boot-status block 06 01 05 14 03 02 09 and its CHECK 0x1E. -/
theorem test_boot_status :
    ({ phase := .ready, cause := 1, flags := 5, error := 0x14, fwMajor := 3, fwMinor := 2, memberByte := 9 } : Boot).statusBytes =
      [0x06, 0x01, 0x05, 0x14, 0x03, 0x02, 0x09, 0x1E] := by decide

/-- Chapter 16: the alert of Distaff rule 3, 4D 00 0F 07 03 00 11 57. -/
theorem test_alert_bytes : alertBytes 0x4D ⟨0, 0, 0xF, 7, 3, 0x11⟩ false = [0x4D, 0x00, 0x0F, 0x07, 0x03, 0x00, 0x11, 0x57] := by decide

/-- Chapter 20: the UMP entry 80 7C 81 4A 00 00 00 4F 02 01 03 00 19 01 00 00. -/
theorem test_log_entry :
    (let e : LogEntry := ⟨1250000000, 4, 0xF, 0x0000011900030102⟩
     bytesOfDWord e.head ++ bytesOfDWord e.body =
       [0x80, 0x7C, 0x81, 0x4A, 0x00, 0x00, 0x00, 0x4F, 0x02, 0x01, 0x03, 0x00, 0x19, 0x01, 0x00, 0x00]) := by decide

/-- Chapter 15: the STOP record 96 E1 2D 01 00 00 00 01 01 02 83 00 05 00 00 00. -/
theorem test_stop_record :
    bytesOfWords (iuRecord 19784086 1 false 1 2 131 5) =
      [0x96, 0xE1, 0x2D, 0x01, 0x00, 0x00, 0x00, 0x01, 0x01, 0x02, 0x83, 0x00, 0x05, 0x00, 0x00, 0x00] := by decide

/-- Chapter 15: −850 ppb per year over 366 days is −852, and 2032-03-01 is day 11,748. -/
theorem test_age_term : ageTerm (-850) 366 = -852 ∧ dayNumber 32 3 1 = 11748 ∧ dayNumber 31 3 1 = 11382 := by
  refine ⟨rfl, ?_, ?_⟩ <;> decide

/-- Chapter 19: the linear value at 2032-01-01 00:00:00. -/
theorem test_calendar_linear :
    ({ year := 32, month := 1, day := 1 } : Calendar).linear = 0x1E187E000000 ∧
    (({ year := 31, month := 12, day := 31, hour := 23, minute := 59, second := 59, sub := 32767 } : Calendar).advance).dateWord =
      ({ year := 32, month := 1, day := 1 } : Calendar).dateWord := by decide

/-- Chapter 12: the RLE payload of eight words of ones, LIT 1 and RUN 7, and back. -/
theorem test_rle_payload :
    rleEncode 1 (List.replicate 8 0xFFFFFFFF) = [0x00, 0xFF, 0xFF, 0xFF, 0xFF, 0x85] ∧
    rleDecode 1 7 [0x00, 0xFF, 0xFF, 0xFF, 0xFF, 0x85] [] = some (List.replicate 8 0xFFFFFFFF) := by decide

/-- Chapter 12: the CRC-32C of 32 bytes of 0xFF. -/
theorem test_crc32c : crc32c (List.replicate 32 0xFF) = 0x62A8AB43 := by decide +kernel

/-- Chapter 12: the 42 bytes of the flushed block. -/
theorem test_rle_block :
    (BlockHead.bytes ⟨1, false, false, true, false, 1, 0, 2, 32, 0x30000, 43, 3⟩ [0x00, 0xFF, 0xFF, 0xFF, 0xFF, 0x85] 0x62A8AB43) =
      [0x0C, 0xB1, 0x11, 0x01, 0x00, 0x02, 0x00, 0x00, 0x20, 0x00, 0x00, 0x00, 0x06, 0x00, 0x00, 0x00,
       0x00, 0x00, 0x03, 0x00, 0x00, 0x00, 0x00, 0x00, 0x2B, 0x00, 0x00, 0x00, 0x03, 0x00, 0x00, 0x00,
       0x00, 0xFF, 0xFF, 0xFF, 0xFF, 0x85, 0x43, 0xAB, 0xA8, 0x62] := by decide

/-- Chapter 12: PRED with PMODE 0, S 1 and KINIT 2 codes 5, 7, 6 as D4 10, and back. -/
theorem test_pred :
    predEncode false 1 2 [5, 7, 6] = [0xD4, 0x10] ∧
    (predDecode false 1 3 64 [] (unpackBits [0xD4, 0x10])).map (·.1) = some [5, 7, 6] := by decide

/-- Chapter 11: the header of skein 43. -/
theorem test_skein_header :
    (Skein.header { num := 43, start := 1256000, trig := some 1400000, trigLevel := 1, headShared := true, tailShared := true,
                    ovlp := 0x1F40, cal := 0x1DCD65004000, calValid := true, mask := [0, 0, 0xFFFFFFFF, 0, 0, 0, 0, 0],
                    cmpCfg := 1, items := [.marker 3 1300000 0 false] } 2).take 44 =
      [0xA9, 0x12, 0x6D, 0x01, 0x2B, 0x00, 0x00, 0x00, 0x40, 0x2A, 0x13, 0x00, 0x00, 0x00, 0x00, 0xC0,
       0x5C, 0x15, 0x00, 0x00, 0x00, 0x00, 0x00, 0x40, 0x00, 0x65, 0xCD, 0x1D, 0x40, 0x1F, 0x00, 0x00,
       0x00, 0x00, 0x00, 0x00, 0x00, 0x00, 0x00, 0x00, 0xFF, 0xFF, 0xFF, 0xFF] := by decide

/-- Chapter 11: a STAMP and a TRANS of the transition format. -/
theorem test_transition_records :
    stampBytes 0x1234567890 false ++ transBytes 1 0 13888 2 false =
      [0x90, 0x78, 0x56, 0x34, 0x12, 0x00, 0x00, 0x00, 0x00, 0x00, 0x00, 0x10,
       0x01, 0x00, 0x00, 0x00, 0x00, 0x00, 0x00, 0x00, 0x40, 0x36, 0x00, 0x02] := by decide

/-- Chapter 11: the STAMP of 64 shared rows at tick 1,256,000. -/
theorem test_sample_stamp :
    ((Rec.group true ((List.range 64).map fun i => (1256000 + 4 * i, [0, 0, 0xFFFFFFFE]))).bytes true false [2]).take 12 =
      [0x40, 0x2A, 0x13, 0x00, 0x00, 0x00, 0x00, 0x7F, 0xFE, 0xFF, 0xFF, 0xFF] := by decide

/-- Chapter 9: FE_VALID3 of bench 3 with P3_D21 retired, at 1.6 GS/s, 800 MS/s and 400 MS/s. -/
theorem test_valid_masks :
    (let s := { readyState with ref := { readyState.ref with retired := [(resChannel 117, 0x0101)] } }.wrBoth .bnOwn 3 0 8
     [2, 1, 0].map (fun rate => (s.wrBoth .feMode 3 0 rate).sampledMask 3 3) = [0x000000DF, 0x0000FFDF, 0xFFDFFFFF]) := by decide

/-- Chapters 0 and 21: GLB_PARAM0 of an A9, an A5 and an A1. -/
theorem test_param0 : Member.a9.param0 = 0x40880100 ∧ Member.a5.param0 = 0x20240040 ∧ Member.a1.param0 = 0x08110008 := by decide

/-- R1 (GLB_PARAM3): 2,607 registers on an A9, 1,206 on an A5 and 426 on an A1. -/
theorem test_reg_count : [Member.a9, .a5, .a1].map (fun m => fld m.param3 15 0) = [2607, 1206, 426] := by decide

/-- Chapters 6 and 20: reset values of Q_STATUS and RPL_CFG, and the boot cause of a cold reset. -/
theorem test_reset_words :
    State.reset.regWord (Reg.addr ⟨.rplCfg, 0, 0⟩) = 0x0A000300 ∧ State.reset.boot.cause = 1 ∧ State.reset.pending = [] := by decide

/-- FIPS 180-4: the SHA-256 of "abc" (R342 compares hashes). -/
theorem test_sha256 : (sha256 [0x61, 0x62, 0x63]).take 8 = [0xBA, 0x78, 0x16, 0xBF, 0x8F, 0x01, 0xCF, 0xEA] := by decide +kernel

end Sys2Proof.Tests
end

section
/-! PROOFS of the family 00_scope: what every step keeps, and what a write of a plain register changes. -/

namespace Sys2Proof.Machine

/-! ### What every command and every step keeps -/

/-- Every command keeps what `Kept` names: one lemma of Laws/Kept*.lean for each row of the opcode table. -/
theorem exec_kept {z t : State} (i : Instr) (s : State) (hz : Kept z s) (h : exec i s = .next t) : Kept z t := by
  cases i with
  | coldReset => exact execColdReset_kept s hz h
  | supplyMonitorReset rail => exact execSupplyMonitorReset_kept rail s hz h
  | junctionHot _ => exact execJunctionHot_kept _ s hz h
  | junctionTrip => exact execJunctionTrip_kept s hz h
  | nresetLow => exact execNresetLow_kept s hz h
  | nresetRelease => exact execNresetRelease_kept s hz h
  | survoWatchdog => exact execSurvoWatchdog_kept s hz h
  | fastDomainResetRelease _ => exact execFastDomainResetRelease_kept _ s hz h
  | bootRomRun _ _ => exact execBootRomRun_kept _ _ s hz h
  | recWrite _ _ => exact execRecWrite_kept _ _ s hz h
  | recBoot => exact execRecBoot_kept s hz h
  | recStatus => exact execRecStatus_kept s hz h
  | bbtLoaded _ _ => exact execBbtLoaded_kept _ _ s hz h
  | quietPeriodEnd => exact execQuietPeriodEnd_kept s hz h
  | podDiscovery _ => exact execPodDiscovery_kept _ s hz h
  | ready => exact execReady_kept s hz h
  | usbPullupEnable => exact execUsbPullupEnable_kept s hz h
  | vbusChange _ => exact execVbusChange_kept _ s hz h
  | usbDetach _ => exact execUsbDetach_kept _ s hz h
  | hsChirpTimeout => exact execHsChirpTimeout_kept s hz h
  | superspeedFallback => exact execSuperspeedFallback_kept s hz h
  | usbSuspend => exact execUsbSuspend_kept s hz h
  | usbResume _ => exact execUsbResume_kept _ s hz h
  | remoteWakeup => exact execRemoteWakeup_kept s hz h
  | bulkOutFrame _ _ => exact execBulkOutFrame_kept _ _ s hz h
  | bulkOutPartialFrame _ => exact execBulkOutPartialFrame_kept _ s hz h
  | bulkInContainer _ => exact execBulkInContainer_kept _ s hz h
  | clearFeatureEndpointHalt _ => exact execClearFeatureEndpointHalt_kept _ s hz h
  | usbRegRead _ _ _ => exact execUsbRegRead_kept _ _ _ s hz h
  | usbRegWrite _ _ _ _ => exact execUsbRegWrite_kept _ _ _ _ s hz h
  | twBootStatusRead _ => exact execTwBootStatusRead_kept _ s hz h
  | twPreReadyWrite => exact execTwPreReadyWrite_kept s hz h
  | twPointerWrite _ _ _ => exact execTwPointerWrite_kept _ _ _ s hz h
  | twWordWrite _ => exact execTwWordWrite_kept _ s hz h
  | twWordRead => exact execTwWordRead_kept s hz h
  | twStretchTimeout => exact execTwStretchTimeout_kept s hz h
  | twAddressWake => exact execTwAddressWake_kept s hz h
  | twArbitrationLoss _ => exact execTwArbitrationLoss_kept _ s hz h
  | twControllerTimeout => exact execTwControllerTimeout_kept s hz h
  | twStuck => exact execTwStuck_kept s hz h
  | alertSend _ => exact execAlertSend_kept _ s hz h
  | alertWaitExpiry => exact execAlertWaitExpiry_kept s hz h
  | backoffExpiry _ => exact execBackoffExpiry_kept _ s hz h
  | podPresencePoll _ _ => exact execPodPresencePoll_kept _ _ s hz h
  | overdriveOnset _ _ => exact execOverdriveOnset_kept _ _ s hz h
  | stuckWindowExpiry _ _ _ => exact execStuckWindowExpiry_kept _ _ _ s hz h
  | clkIdleTimeout _ => exact execClkIdleTimeout_kept _ s hz h
  | sampleVector _ _ _ => exact execSampleVector_kept _ _ _ s hz h
  | overrunResume _ => exact execOverrunResume_kept _ s hz h
  | skeinBoundary _ => exact execSkeinBoundary_kept _ s hz h
  | segmentedRearm _ => exact execSegmentedRearm_kept _ s hz h
  | skeinEnd _ => exact execSkeinEnd_kept _ s hz h
  | parityScrub _ => exact execParityScrub_kept _ s hz h
  | registerWrite _ _ _ => exact execRegisterWrite_kept _ _ _ s hz h
  | crossDomainAccess _ _ _ => exact execCrossDomainAccess_kept _ _ _ s hz h
  | setAliasWrite _ _ _ => exact execSetAliasWrite_kept _ _ _ s hz h
  | clearAliasWrite _ _ _ => exact execClearAliasWrite_kept _ _ _ s hz h
  | toggleAliasWrite _ _ _ => exact execToggleAliasWrite_kept _ _ _ s hz h
  | accumulatorLoRead _ _ => exact execAccumulatorLoRead_kept _ _ s hz h
  | accumulatorLoWrite _ _ _ => exact execAccumulatorLoWrite_kept _ _ _ s hz h
  | accumulatorHiWrite _ _ _ => exact execAccumulatorHiWrite_kept _ _ _ s hz h
  | qWrLo _ _ _ => exact execQWrLo_kept _ _ _ s hz h
  | qWrHi _ _ _ => exact execQWrHi_kept _ _ _ s hz h
  | qWrHim _ _ _ => exact execQWrHim_kept _ _ _ s hz h
  | queuePushComplete _ => exact execQueuePushComplete_kept _ s hz h
  | wlockTimeout _ => exact execWlockTimeout_kept _ s hz h
  | qRdLo _ _ => exact execQRdLo_kept _ _ s hz h
  | queueFlush _ _ => exact execQueueFlush_kept _ _ s hz h
  | commandFrameTimeout _ => exact execCommandFrameTimeout_kept _ s hz h
  | cmdDiscarded _ => exact execCmdDiscarded_kept _ s hz h
  | commandDeadline _ _ _ => exact execCommandDeadline_kept _ _ _ s hz h
  | responseBacklogWrite _ => exact execResponseBacklogWrite_kept _ s hz h
  | benchOpen _ => exact execBenchOpen_kept _ s hz h
  | benchClose _ => exact execBenchClose_kept _ s hz h
  | benchReset _ => exact execBenchReset_kept _ s hz h
  | benchResetComplete _ => exact execBenchResetComplete_kept _ s hz h
  | benchStatus _ => exact execBenchStatus_kept _ s hz h
  | capsQuery _ => exact execCapsQuery_kept _ s hz h
  | accountsQuery _ => exact execAccountsQuery_kept _ s hz h
  | benchControlEnable _ => exact execBenchControlEnable_kept _ s hz h
  | benchControlReset _ => exact execBenchControlReset_kept _ s hz h
  | benchControlClose _ => exact execBenchControlClose_kept _ s hz h
  | podAssign _ => exact execPodAssign_kept _ s hz h
  | plyMembership _ => exact execPlyMembership_kept _ s hz h
  | feSetPod _ => exact execFeSetPod_kept _ s hz h
  | feSetMode _ => exact execFeSetMode_kept _ s hz h
  | feQuery _ => exact execFeQuery_kept _ s hz h
  | feHealth _ => exact execFeHealth_kept _ s hz h
  | feHealthTest _ _ => exact execFeHealthTest_kept _ _ s hz h
  | feDeskew _ => exact execFeDeskew_kept _ s hz h
  | trgSetLevel _ => exact execTrgSetLevel_kept _ s hz h
  | trgSetResource _ => exact execTrgSetResource_kept _ s hz h
  | trgQuery _ => exact execTrgQuery_kept _ s hz h
  | trgForce _ => exact execTrgForce_kept _ s hz h
  | relayEnable _ => exact execRelayEnable_kept _ s hz h
  | capArm _ => exact execCapArm_kept _ s hz h
  | capStop _ => exact execCapStop_kept _ s hz h
  | capConfig _ => exact execCapConfig_kept _ s hz h
  | sknList _ => exact execSknList_kept _ s hz h
  | sknRead _ => exact execSknRead_kept _ s hz h
  | sknDelete _ => exact execSknDelete_kept _ s hz h
  | bobbinLend _ => exact execBobbinLend_kept _ s hz h
  | cmpConfig _ => exact execCmpConfig_kept _ s hz h
  | cmpExport _ => exact execCmpExport_kept _ s hz h
  | cmpVerify _ => exact execCmpVerify_kept _ s hz h
  | cmpFlush _ => exact execCmpFlush_kept _ s hz h
  | cmpQuery _ => exact execCmpQuery_kept _ s hz h
  | cmpSnFlushWrite _ _ _ => exact execCmpSnFlushWrite_kept _ _ _ s hz h
  | autoflushExpiry _ => exact execAutoflushExpiry_kept _ s hz h
  | blockEnd _ _ => exact execBlockEnd_kept _ _ s hz h
  | cmpStreamStop _ _ => exact execCmpStreamStop_kept _ _ s hz h
  | cmpStreamResume _ => exact execCmpStreamResume_kept _ s hz h
  | slQuery _ => exact execSlQuery_kept _ s hz h
  | slStream _ => exact execSlStream_kept _ s hz h
  | slRead _ => exact execSlRead_kept _ s hz h
  | slFormat _ => exact execSlFormat_kept _ s hz h
  | slScrub _ => exact execSlScrub_kept _ s hz h
  | slBbtRead _ => exact execSlBbtRead_kept _ s hz h
  | pageProgramDone _ => exact execPageProgramDone_kept _ s hz h
  | programStatusFail _ => exact execProgramStatusFail_kept _ s hz h
  | eraseStatusFail _ _ => exact execEraseStatusFail_kept _ _ s hz h
  | uncorrectableRead _ _ _ => exact execUncorrectableRead_kept _ _ _ s hz h
  | nandBusyTimeout _ _ _ => exact execNandBusyTimeout_kept _ _ _ s hz h
  | retentionScrub _ _ => exact execRetentionScrub_kept _ _ s hz h
  | wearLevelRelocation _ => exact execWearLevelRelocation_kept _ s hz h
  | readDisturbRelocation _ _ => exact execReadDisturbRelocation_kept _ _ s hz h
  | relocationComplete _ => exact execRelocationComplete_kept _ s hz h
  | searchJob _ => exact execSearchJob_kept _ s hz h
  | decodeJob _ => exact execDecodeJob_kept _ s hz h
  | jobCancel _ => exact execJobCancel_kept _ s hz h
  | engQuery _ => exact execEngQuery_kept _ s hz h
  | plyConfig _ => exact execPlyConfig_kept _ s hz h
  | regulatorSet _ => exact execRegulatorSet_kept _ s hz h
  | umpireChoice _ => exact execUmpireChoice_kept _ s hz h
  | rallyExpiry _ _ => exact execRallyExpiry_kept _ _ s hz h
  | jobBlockedTimeout _ => exact execJobBlockedTimeout_kept _ s hz h
  | jobStepEnd _ => exact execJobStepEnd_kept _ s hz h
  | regulatorRefill => exact execRegulatorRefill_kept s hz h
  | iuConfig _ => exact execIuConfig_kept _ s hz h
  | iuMeasure _ => exact execIuMeasure_kept _ s hz h
  | iuCalibrate _ => exact execIuCalibrate_kept _ s hz h
  | iuQuery _ => exact execIuQuery_kept _ s hz h
  | iuSetAge _ => exact execIuSetAge_kept _ s hz h
  | iuCtrlGo _ => exact execIuCtrlGo_kept _ s hz h
  | iuCtrlCalGo _ => exact execIuCtrlCalGo_kept _ s hz h
  | iuStartEdge _ _ _ _ => exact execIuStartEdge_kept _ _ _ _ s hz h
  | iuStopEdge _ _ _ _ => exact execIuStopEdge_kept _ _ _ _ s hz h
  | iuMeasurementEnd => exact execIuMeasurementEnd_kept s hz h
  | iuCalibrationEnd _ => exact execIuCalibrationEnd_kept _ s hz h
  | iuTempUpdate _ => exact execIuTempUpdate_kept _ s hz h
  | twConfig _ => exact execTwConfig_kept _ s hz h
  | twAlertRead _ => exact execTwAlertRead_kept _ s hz h
  | twXfer _ _ => exact execTwXfer_kept _ _ s hz h
  | twQuery _ => exact execTwQuery_kept _ s hz h
  | twAlertRdLoRead _ => exact execTwAlertRdLoRead_kept _ s hz h
  | calSet _ => exact execCalSet_kept _ s hz h
  | calGet _ => exact execCalGet_kept _ s hz h
  | calCommit _ _ => exact execCalCommit_kept _ _ s hz h
  | calendarReadLatch _ _ => exact execCalendarReadLatch_kept _ _ s hz h
  | calendarDateChange => exact execCalendarDateChange_kept s hz h
  | fltList _ => exact execFltList_kept _ s hz h
  | refInservice _ => exact execRefInservice_kept _ s hz h
  | refTest _ => exact execRefTest_kept _ s hz h
  | refReturn _ => exact execRefReturn_kept _ s hz h
  | refTestCtlGo _ => exact execRefTestCtlGo_kept _ s hz h
  | refereeTestStart _ => exact execRefereeTestStart_kept _ s hz h
  | refereeVerdict _ _ => exact execRefereeVerdict_kept _ _ s hz h
  | sramEcc _ _ => exact execSramEcc_kept _ _ s hz h
  | engHang _ => exact execEngHang_kept _ s hz h
  | resourceRejoin _ => exact execResourceRejoin_kept _ s hz h
  | rplRecord _ => exact execRplRecord_kept _ s hz h
  | rplRecordDelete _ => exact execRplRecordDelete_kept _ s hz h
  | rplRun _ => exact execRplRun_kept _ s hz h
  | rplStatus _ => exact execRplStatus_kept _ s hz h
  | rplStop _ => exact execRplStop_kept _ s hz h
  | replayLogProgram => exact execReplayLogProgram_kept s hz h
  | recorderGap => exact execRecorderGap_kept s hz h
  | replayInject => exact execReplayInject_kept s hz h
  | replayMissing _ => exact execReplayMissing_kept _ s hz h
  | replayEnd => exact execReplayEnd_kept s hz h
  | powerEnter _ => exact execPowerEnter_kept _ s hz h
  | pwrEnterWrite _ _ => exact execPwrEnterWrite_kept _ _ s hz h
  | powerEntryStart => exact execPowerEntryStart_kept s hz h
  | powerQuery _ => exact execPowerQuery_kept _ s hz h
  | dstSetRules _ => exact execDstSetRules_kept _ s hz h
  | dstSetInputs _ => exact execDstSetInputs_kept _ s hz h
  | dstReadLog _ => exact execDstReadLog_kept _ s hz h
  | dstReadLogConsume _ => exact execDstReadLogConsume_kept _ s hz h
  | dstCounters _ => exact execDstCounters_kept _ s hz h
  | dstLogRptrWrite _ _ => exact execDstLogRptrWrite_kept _ _ s hz h
  | distaffEdgeLatch _ _ => exact execDistaffEdgeLatch_kept _ _ s hz h
  | distaffTick _ => exact execDistaffTick_kept _ s hz h
  | wakeTimerMatch => exact execWakeTimerMatch_kept s hz h
  | wakeComplete => exact execWakeComplete_kept s hz h
  | adminOpen _ => exact execAdminOpen_kept _ s hz h
  | adminClose _ => exact execAdminClose_kept _ s hz h
  | adminSessionTimeout => exact execAdminSessionTimeout_kept s hz h
  | setCredential _ => exact execSetCredential_kept _ s hz h
  | setCredentialClear _ => exact execSetCredentialClear_kept _ s hz h
  | openBenchEnter _ => exact execOpenBenchEnter_kept _ s hz h
  | openBenchLeave _ => exact execOpenBenchLeave_kept _ s hz h
  | regLogRead _ => exact execRegLogRead_kept _ s hz h
  | regRead _ => exact execRegRead_kept _ s hz h
  | regWrite _ => exact execRegWrite_kept _ s hz h
  | fwLoadBegin _ => exact execFwLoadBegin_kept _ s hz h
  | fwLoadData _ => exact execFwLoadData_kept _ s hz h
  | fwLoadCommit _ _ _ => exact execFwLoadCommit_kept _ _ _ s hz h
  | partReset _ => exact execPartReset_kept _ s hz h
  | supplyRise _ => exact execSupplyRise_kept _ s hz h
  | junctionTripRelease => exact execJunctionTripRelease_kept s hz h
  | queueWordFall _ _ => exact execQueueWordFall_kept _ _ s hz h
  | twBusStop _ => exact execTwBusStop_kept _ s hz h
  | usbEnumeration _ _ => exact execUsbEnumeration_kept _ _ s hz h
  | overdriveEnd _ _ => exact execOverdriveEnd_kept _ _ s hz h
  | eventBacklogWrite _ => exact execEventBacklogWrite_kept _ s hz h
  | badOpcodeCommand _ _ => exact execBadOpcodeCommand_kept _ _ s hz h

/-- One step of the block changes neither the part nor the canonical form of its arrays nor the ranges of its calendar. -/
theorem step_keeps (s t : State) (h : step s = .next t) :
    t.part = s.part ∧ (Canonical s → Canonical t) ∧ (s.cal.InRange → t.cal.InRange) := by
  unfold step at h
  split at h
  · injection h with h
    subst h
    obtain ⟨hpart, -, hcan, hcal⟩ := idleTick_kept s (Kept.refl s)
    exact ⟨hpart, hcan, hcal⟩
  · obtain ⟨hpart, -, hcan, hcal⟩ := exec_kept _ _ (Kept.refl _) h
    exact ⟨hpart, hcan, hcal⟩

/-! ### The parameter registers -/

theorem shown_of_status_only (s : State) (n : RegName) (h : n.row.stored = 0) :
    s.shown n = s.statusWord ⟨n, 0, 0⟩ &&& (n.row.bits .s ||| n.row.bits .h) := by
  simp [State.shown, State.compose, h]

/-- A field lies in a mask: writing it keeps a word within the mask. -/
theorem setFld_and_of_mask (w m : Word) (hi lo v : Nat) (hw : w &&& m = w) (hm : maskW hi lo &&& m = maskW hi lo) :
    setFld w hi lo v &&& m = setFld w hi lo v := by
  have hkept : w &&& ~~~ maskW hi lo &&& m = w &&& ~~~ maskW hi lo := by
    rw [BitVec.and_assoc, BitVec.and_comm _ m, ← BitVec.and_assoc, hw]
  have hnew : W (v * 2 ^ lo) &&& maskW hi lo &&& m = W (v * 2 ^ lo) &&& maskW hi lo := by rw [BitVec.and_assoc, hm]
  rw [setFld, BitVec.and_or_distrib_right, hkept, hnew]

theorem Member.param0_in_fields (m : Member) :
    m.param0 &&& (RegName.glbParam0.row.bits .s ||| RegName.glbParam0.row.bits .h) = m.param0 := by cases m <;> rfl

theorem Member.param1_in_fields (m : Member) :
    m.param1 &&& (RegName.glbParam1.row.bits .s ||| RegName.glbParam1.row.bits .h) = m.param1 := by cases m <;> rfl

theorem Member.param2_in_fields (m : Member) :
    m.param2 &&& (RegName.glbParam2.row.bits .s ||| RegName.glbParam2.row.bits .h) = m.param2 := by cases m <;> rfl

theorem Member.param3_in_fields (m : Member) :
    m.param3 &&& (RegName.glbParam3.row.bits .s ||| RegName.glbParam3.row.bits .h) = m.param3 := by cases m <;> rfl

theorem shown_glbParam0 (s : State) : s.shown .glbParam0 = s.part.member.param0 :=
  (shown_of_status_only s _ rfl).trans s.part.member.param0_in_fields

theorem shown_glbParam1 (s : State) : s.shown .glbParam1 = s.part.member.param1 :=
  (shown_of_status_only s _ rfl).trans s.part.member.param1_in_fields

theorem shown_glbParam2 (s : State) : s.shown .glbParam2 = setFld s.part.member.param2 15 8 s.part.step.toNat :=
  (shown_of_status_only s _ rfl).trans (setFld_and_of_mask _ _ _ _ _ s.part.member.param2_in_fields (by decide))

theorem shown_glbParam3 (s : State) : s.shown .glbParam3 = s.part.member.param3 :=
  (shown_of_status_only s _ rfl).trans s.part.member.param3_in_fields

/-- Settles O44: no command and no idle tick writes the part, from whose fuses alone the four registers show their values (R10). -/
theorem stepHoldsParams : Obligations.StepHoldsParams := by
  unfold Obligations.StepHoldsParams
  refine ⟨fun s => ⟨shown_glbParam0 s, shown_glbParam1 s, shown_glbParam2 s, shown_glbParam3 s⟩, fun s t h => ?_⟩
  obtain ⟨hpart, -, -⟩ := step_keeps s t h
  simp only [shown_glbParam0, shown_glbParam1, shown_glbParam2, shown_glbParam3, hpart, and_self]

/-! ### Addresses of the register index -/

theorem RegName.addr_of_at {n : RegName} {a : Nat} {r : Reg} (h : n.at a = some r) : r.addr = a := by
  unfold RegName.at at h
  dsimp only at h
  split at h
  next => cases h
  next hbase =>
    split at h
    next hdims =>
      split at h
      next hoff =>
        cases h
        simp only [Reg.addr, hdims]
        omega
      next => cases h
    next d hdims =>
      split at h
      next hoff =>
        cases h
        have hi := Nat.div_mul_cancel (Nat.dvd_of_mod_eq_zero hoff.1)
        simp only [Reg.addr, hdims]
        omega
      next => cases h
    next d e _ hdims =>
      split at h
      next hoff =>
        cases h
        have hi := Nat.div_add_mod' (a - n.row.base) d.2
        have hj := Nat.div_mul_cancel (Nat.dvd_of_mod_eq_zero hoff.2.1)
        simp only [Reg.addr, hdims]
        omega
      next => cases h

theorem addr_of_regAt {a : Nat} {r : Reg} (h : regAt a = some r) : r.addr = a := by
  obtain ⟨n, -, hn⟩ := List.exists_of_findSome?_eq_some h
  exact RegName.addr_of_at hn

theorem viewOf_toNat (a : BitVec 16) : viewOf a.toNat = 0 := by
  unfold viewOf
  omega

/-- At a 16-bit address the register window finds the register of the index. -/
theorem State.regAt_of_regFor {s : State} {a : BitVec 16} {r : Reg} (h : s.regFor a.toNat = some r) : regAt a.toNat = some r := by
  unfold State.regFor at h
  split at h
  · cases h
  · have hmod : a.toNat % 0x10000 = a.toNat := Nat.mod_eq_of_lt a.isLt
    exact hmod ▸ (Option.filter_eq_some_iff.1 h).1

/-! ### What settling may change -/

/-- A state without what the settling of a written value may change: the values in effect with their parity, the levels of the
regulators, the two-wire unit and the lanes. -/
def State.unsettled (s : State) : State :=
  { s with act := [], badParity := [], umpire := { s.umpire with levels := [] }, tw := {}, lanes := [] }

/-- `t` differs from `z` at most in what settling may change. -/
def SettledFrom (z t : State) : Prop := t.unsettled = z.unsettled

namespace SettledFrom

variable {z s t : State}

theorem refl (s : State) : SettledFrom s s := rfl

/-- What is read of a state without regard to what settling may change is unchanged. -/
theorem read {β : Type} (f : State → β) (hf : ∀ s, f s.unsettled = f s) (h : SettledFrom z t) : f t = f z :=
  (hf t).symm.trans ((congrArg f h).trans (hf z))

theorem jobs (h : SettledFrom z t) : t.umpire.jobs = z.umpire.jobs := h.read (·.umpire.jobs) fun _ => rfl
theorem assign (h : SettledFrom z t) : t.fw.assign = z.fw.assign := h.read (·.fw.assign) fun _ => rfl
theorem regWord (h : SettledFrom z t) (a : Nat) : t.regWord a = z.regWord a := h.read (State.regWord · a) fun _ => rfl

theorem each {α : Type} {l : List α} {f : State → α → State} (hf : ∀ s a, SettledFrom z s → SettledFrom z (f s a))
    (h : SettledFrom z s) : SettledFrom z (s.each l f) := by
  unfold State.each
  induction l generalizing s with
  | nil => exact h
  | cons a t ih => exact ih (hf s a h)

theorem applyReg (a : Nat) (mask : Word) (h : SettledFrom z s) : SettledFrom z (applyReg s a mask) := h

theorem settleBench (n : Nat) (h : SettledFrom z s) : SettledFrom z (settleBench s n) := by
  unfold Machine.settleBench
  split
  · exact each (fun _ _ => applyReg _ _) h
  · exact h

theorem settlePly (n : Nat) (h : SettledFrom z s) : SettledFrom z (settlePly s n) := by
  unfold Machine.settlePly applyPly
  repeat' split
  all_goals exact h

theorem clipLevels (h : SettledFrom z s) : SettledFrom z (clipLevels s) :=
  each (fun _ _ => each fun _ _ hs => hs) h

theorem applyIu (h : SettledFrom z s) : SettledFrom z (applyIu s) := by
  unfold Machine.applyIu
  split
  · exact h
  · exact each (fun _ _ => applyReg _ _) h

theorem applyIuIdle (h : SettledFrom z s) : SettledFrom z (settleWrite.applyIuIdle s) := by
  unfold settleWrite.applyIuIdle
  split
  · exact h.applyIu
  · exact h

theorem applyLaneMode (x : Nat) (h : SettledFrom z s) : SettledFrom z (applyLaneMode s x) := by
  unfold Machine.applyLaneMode
  dsimp only
  split <;> exact h

end SettledFrom

/-- The alert state machine moves without an event where it neither enters nor leaves PARKED (R710). -/
theorem setCState_of_not_parked {s : State} {c : CState} (hs : s.tw.cstate ≠ .parked) (hc : c ≠ .parked) :
    setCState s c = { s with tw := { s.tw with cstate := c } } := by
  simp [setCState, hs, hc]

theorem SettledFrom.twKick {z s : State} (h : SettledFrom z s) : SettledFrom z (twKick s) := by
  unfold Machine.twKick
  dsimp only
  split
  · rename_i hidle
    rw [setCState_of_not_parked (by rw [hidle]; decide) (by decide)]
    split <;> exact h
  · rename_i hsending
    rw [setCState_of_not_parked (by rw [hsending]; decide) (by decide)]
    split <;> exact h
  · exact h

/-! ### Settling with no job and no POD_ASSIGN waiting -/

theorem State.jobOn_of_no_jobs {s : State} (h : s.umpire.jobs = []) (e : Nat) : s.jobOn e = none := by
  unfold State.jobOn
  cases (s.engine e).job with
  | none => rfl
  | some id => simp [State.job?, h]

theorem expelStrangers_of_no_jobs {s : State} (h : s.umpire.jobs = []) : expelStrangers s = s := by
  unfold expelStrangers State.each
  induction List.range 8 with
  | nil => rfl
  | cons e l ih => rw [List.foldl_cons, State.jobOn_of_no_jobs h e]; exact ih

theorem sweepOrphans_of_no_jobs {s : State} (h : s.umpire.jobs = []) : sweepOrphans s = s := by
  unfold sweepOrphans
  rw [h]
  rfl

theorem iuBegin_of_no_jobs {s : State} (h : s.umpire.jobs = []) : iuBegin s = s := by
  unfold iuBegin
  rw [State.jobOn_of_no_jobs h]

theorem pumpAssign_of_none {s : State} (h : s.fw.assign = none) : pumpAssign s = s := by
  unfold pumpAssign
  rw [h]

section
variable {z s : State} (hj : z.umpire.jobs = []) (h : SettledFrom z s)
include hj h

theorem SettledFrom.settleRally (a : Nat) : SettledFrom z (settleRally s a) := by
  unfold Machine.settleRally
  split
  · have hclip := (h.applyReg a (gBitsAt a)).clipLevels
    rw [expelStrangers_of_no_jobs (hclip.jobs.trans hj)]
    exact hclip
  · exact h

theorem SettledFrom.sweepOrphans : SettledFrom z (sweepOrphans s) := by
  rw [sweepOrphans_of_no_jobs (h.jobs.trans hj)]
  exact h

theorem SettledFrom.armWaiting : SettledFrom z (settleWrite.armWaiting s) := by
  unfold settleWrite.armWaiting
  split
  · exact h
  · rw [iuBegin_of_no_jobs (h.jobs.trans hj)]
    exact h

end

/-- With no job and no POD_ASSIGN waiting, the settling of a written value changes what `SettledFrom` names and nothing else; a write
of IU_CTRL can start the interval unit. -/
theorem settleWrite_settled {s : State} {r : Reg} (hj : s.umpire.jobs = []) (ha : s.fw.assign = none) (hr : r.name ≠ .iuCtrl) :
    SettledFrom s (settleWrite s r) := by
  unfold settleWrite
  extract_lets a u
  have hu : SettledFrom s u := by
    dsimp only [u]
    split
    · rename_i n _
      have hsettled := (((SettledFrom.refl s).settleBench n).settlePly n).sweepOrphans hj
      rw [pumpAssign_of_none (hsettled.assign.trans ha)]
      exact hsettled
    · exact SettledFrom.refl s
  clear_value u
  split
  case h_1 => exact hu.settleBench _
  case h_2 =>
    have hrally := SettledFrom.each (fun _ a hs => hs.settleRally hj a) (l := rallyRegs) hu
    exact (hrally.applyIuIdle.armWaiting hj).sweepOrphans hj
  case h_3 | h_4 | h_5 | h_6 =>
    split
    · exact hu
    · exact (hu.applyReg _ _).twKick
  case h_7 => exact hu.applyLaneMode _
  case h_8 hname => exact absurd hname hr
  case h_9 | h_10 | h_11 | h_12 => exact hu.applyIuIdle
  case h_13 => exact (hu.settleRally hj a).sweepOrphans hj

/-! ### What a write stores -/

theorem writeGo_of_no_go (s : State) {r : Reg} (d : Word) (h : r.name.row.bits .h = 0) : writeGo s r d = s := by
  unfold writeGo
  split
  case h_3 => rfl
  all_goals
    rename_i hname
    rw [hname] at h
    exact absurd h (by decide)

theorem writeKey_of_no_key (s : State) (p : Path) {r : Reg} (d : Word) (h : r.name.row.bits .k = 0) : writeKey s p r d = s := by
  unfold writeKey
  dsimp only
  split
  case h_12 => rfl
  all_goals
    rename_i hname
    rw [hname] at h
    exact absurd h (by decide)

/-- The accumulators are counters of class A (R178). -/
theorem not_isAcc_of_no_counter {n : RegName} (h : n.row.bits .a = 0) : isAccLo n = false ∧ isAccHi n = false ∧ n ≠ .dstCnt := by
  revert h
  cases n <;> decide

/-- A write of a register of C and G fields stores the data in them; DST_LOG_RPTR has a rule of its own (R107). -/
theorem storeWord_plain (s : State) (p : Path) {r : Reg} (d : Word) (ha : r.name.row.bits .a = 0)
    (hcg : r.name.row.bits .c ||| r.name.row.bits .g ≠ 0) :
    storeWord s p r d =
      if r.name = .dstLogRptr then writeRptr s d.toNat else s.setRegWord r.addr (d &&& (r.name.row.bits .c ||| r.name.row.bits .g)) := by
  obtain ⟨hlo, hhi, hcnt⟩ := not_isAcc_of_no_counter ha
  have hstored : r.name.row.stored = r.name.row.bits .c ||| r.name.row.bits .g := by simp [RegRow.stored, ha]
  simp only [storeWord, hlo, hhi, hcnt, hstored, hcg, Bool.false_eq_true, if_false]

theorem Reg.addr_of_dstLogRptr {r : Reg} (h : r.name = .dstLogRptr) : r.addr = Reg.addr ⟨.dstLogRptr, 0, 0⟩ := by
  simp [Reg.addr, h, RegName.row]

/-- The word that stands at the address of a register of C and G fields once `d` is written to it. -/
def State.plainWord (s : State) (r : Reg) (d : Word) : Word :=
  if r.name = .dstLogRptr then
    if (s.distaff.wptr + 8192 - d.toNat % 8192) % 8192 ≤ 4096 then W (d.toNat % 8192) else s.regWord r.addr
  else d &&& (r.name.row.bits .c ||| r.name.row.bits .g)

/-- Storing writes the register's word and nothing else; a refused write of DST_LOG_RPTR leaves the whole state (R107). -/
theorem storeWord_plain_cases (s : State) (p : Path) {r : Reg} (d : Word) (ha : r.name.row.bits .a = 0)
    (hcg : r.name.row.bits .c ||| r.name.row.bits .g ≠ 0) :
    storeWord s p r d = s.setRegWord r.addr (s.plainWord r d) ∨
      (storeWord s p r d = s ∧ s.plainWord r d = s.regWord r.addr) := by
  rw [storeWord_plain s p d ha hcg]
  unfold State.plainWord
  split
  · rename_i hname
    unfold writeRptr
    split
    · left
      rw [Reg.addr_of_dstLogRptr hname]
      rfl
    · exact .inr ⟨rfl, rfl⟩
  · exact .inl rfl

/-! ### The write as a whole -/

theorem logWrite_only_fw (s : State) (p : Path) (a : Nat) (d : Word) :
    ∃ fw : Firmware, logWrite s p a d = { s with fw := fw } ∧ fw.assign = s.fw.assign := ⟨_, rfl, rfl⟩

theorem recordWrite_side {P Q : Nat → Prop} {z s : State} (p : Path) (a : Nat) (d : Word) (h : Side P Q z s) :
    Side P Q z (recordWrite s p a d) := by
  unfold recordWrite
  dsimp only
  split
  · exact logBench_side _ _ _ _ h
  · exact logPart_side _ _ _ h

/-- The log of Open Bench mode touches nothing but Survo firmware's ring of writes and what the recorder may change (R39, R820). -/
theorem logAccess_side (s : State) (p : Path) (a cause : Nat) (data : Option Word) :
    ∃ fw : Firmware, fw.assign = s.fw.assign ∧
      Side (fun _ => True) (fun _ => True) { s with fw := fw } (logAccess s p a cause data) := by
  have hnone : ∃ fw : Firmware, fw.assign = s.fw.assign ∧ Side (fun _ => True) (fun _ => True) { s with fw := fw } s :=
    ⟨s.fw, rfl, Side.refl s⟩
  unfold logAccess
  split
  · exact hnone
  split
  · obtain ⟨fw, hlog, hfw⟩ := logWrite_only_fw s p a (data.getD 0)
    exact ⟨fw, hfw, hlog ▸ Side.refl _⟩
  split
  · rename_i d
    split
    · obtain ⟨fw, hlog, hfw⟩ := logWrite_only_fw s p a d
      exact ⟨fw, hfw, recordWrite_side p a d (hlog ▸ Side.refl _)⟩
    · exact hnone
  · exact hnone

/-- What is read of a state without regard to what sending may change is unchanged by it. -/
theorem Side.read {P Q : Nat → Prop} {z t : State} {β : Type} (f : State → β) (hf : ∀ s, f s.bare = f s) (h : Side P Q z t) :
    f t = f z :=
  (hf t).symm.trans ((congrArg f h.1).trans (hf z))

theorem State.regFor_of_part {s t : State} (h : t.part = s.part) (a : Nat) : t.regFor a = s.regFor a := by
  simp only [State.regFor, State.member, h]

section
variable (s : State) (p : Path) (a cause : Nat) (data : Option Word)

/-- What is read without regard to Survo firmware and to what sending may change is unchanged by the log. -/
theorem logAccess_read {β : Type} (f : State → β) (hf : ∀ s, f s.bare = f s) (hfw : ∀ s fw, f { s with fw := fw } = f s) :
    f (logAccess s p a cause data) = f s := by
  obtain ⟨fw, -, hside⟩ := logAccess_side s p a cause data
  exact (hside.read f hf).trans (hfw s fw)

theorem logAccess_assign : (logAccess s p a cause data).fw.assign = s.fw.assign := by
  obtain ⟨fw, hfw, hside⟩ := logAccess_side s p a cause data
  exact (hside.read (·.fw.assign) fun _ => rfl).trans hfw

theorem logAccess_sess (n : Nat) : (logAccess s p a cause data).sess n = s.sess n := by
  obtain ⟨fw, -, -, -, hsess, -⟩ := logAccess_side s p a cause data
  exact hsess n trivial

theorem logAccess_regWord {b : Reg} (hb : regAt b.addr = some b) (hn : b.name ∉ sideRegs) :
    (logAccess s p a cause data).regWord b.addr = s.regWord b.addr := by
  obtain ⟨fw, -, -, hreg, -⟩ := logAccess_side s p a cause data
  exact hreg b hb hn

end

/-- A write at a 16-bit address that raises no bus error is logged and then done at the normal view. -/
theorem busWrite_normal {s : State} {p : Path} {a : BitVec 16} {d : Word} {r : Reg}
    (hcause : s.busCause p a.toNat false (some d) = 0) (hr : s.regFor a.toNat = some r) :
    busWrite s p a.toNat d = (0, writeNormal (logAccess s p a.toNat 0 (some d)) p r d) := by
  have hpart := logAccess_read s p a.toNat 0 (some d) State.part (fun _ => rfl) fun _ _ => rfl
  simp [busWrite, hcause, State.regFor_of_part hpart, hr, viewOf_toNat]

/-- The shape of a plain register: C and G fields and none of class A, H or K. -/
structure Reg.Plain (r : Reg) : Prop where
  key : r.name.row.bits .k = 0
  go : r.name.row.bits .h = 0
  counter : r.name.row.bits .a = 0
  stored : r.name.row.bits .c ||| r.name.row.bits .g ≠ 0

section
variable {s : State} {r : Reg} (p : Path) (d : Word) (hr : r.Plain) (hj : s.umpire.jobs = []) (ha : s.fw.assign = none)
include hr

/-- The stored word aside, a plain write changes nothing before the value settles. -/
theorem storeWord_read {β : Type} (f : State → β) (hf : ∀ s w, f (s.setRegWord r.addr w) = f s) : f (storeWord s p r d) = f s := by
  rcases storeWord_plain_cases s p d hr.counter hr.stored with h | ⟨h, -⟩
  · rw [h, hf]
  · rw [h]

theorem storeWord_regWord : (storeWord s p r d).regWord r.addr = s.plainWord r d := by
  rcases storeWord_plain_cases s p d hr.counter hr.stored with h | ⟨h, hw⟩
  · rw [h, State.regWord_setRegWord]
  · rw [h, hw]

include hj ha

theorem writeNormal_settled : SettledFrom (storeWord s p r d) (writeNormal s p r d) := by
  have hname : r.name ≠ .iuCtrl := fun h => absurd (h ▸ hr.go) (by decide)
  unfold writeNormal
  rw [writeKey_of_no_key _ p d hr.key, writeGo_of_no_go _ d hr.go]
  exact settleWrite_settled ((storeWord_read p d hr (·.umpire.jobs) fun _ _ => rfl).trans hj)
    ((storeWord_read p d hr (·.fw.assign) fun _ _ => rfl).trans ha) hname

/-- What is read without regard to the register's word and to what settling may change is unchanged by a plain write. -/
theorem writeNormal_read {β : Type} (f : State → β) (hf : ∀ s w, f (s.setRegWord r.addr w) = f s)
    (hu : ∀ s, f s.unsettled = f s) : f (writeNormal s p r d) = f s :=
  ((writeNormal_settled p d hr hj ha).read f hu).trans (storeWord_read p d hr f hf)

theorem writeNormal_regWord : (writeNormal s p r d).regWord r.addr = s.plainWord r d :=
  ((writeNormal_settled p d hr hj ha).regWord _).trans (storeWord_regWord p d hr)

theorem writeNormal_regWord_ne {b : Nat} (hb : b ≠ r.addr) : (writeNormal s p r d).regWord b = s.regWord b :=
  writeNormal_read p d hr hj ha (State.regWord · b) (fun s w => s.regWord_setRegWord_ne _ _ w hb) fun _ => rfl

end

/-- A write on a live path that raises no bus error is done, and the path is told so (R195). -/
theorem exec_registerWrite_normal {s : State} {p : Path} {a : BitVec 16} {d : Word} {r : Reg} (hlive : s.pathLive p = true)
    (hcause : s.busCause p a.toNat false (some d) = 0) (hr : s.regFor a.toNat = some r) :
    let v := writeNormal (logAccess s p a.toNat 0 (some d)) p r d
    exec (.registerWrite p a d) s = .next (v.setPath p { v.path p with data := [], error := false }) := by
  show Host.Outcome.next (accessWrite s p a.toNat d) = _
  simp [accessWrite, hlive, busWrite_normal hcause hr]

theorem pathCode_ne {p q : Path} (h : p ≠ q) : pathCode p ≠ pathCode q := by
  revert h
  cases p <;> cases q <;> decide

/-- The word that a plain register holds after a write does not depend on the log of the write. -/
theorem plainWord_logAccess (s : State) (p : Path) (a cause : Nat) (data : Option Word) {r : Reg} (d : Word) (hr : regAt r.addr = some r) :
    (logAccess s p a cause data).plainWord r d = s.plainWord r d := by
  unfold State.plainWord
  split
  · rename_i hname
    have hn : r.name ∉ sideRegs := by rw [hname]; decide
    rw [logAccess_read s p a cause data State.distaff (fun _ => rfl) fun _ _ => rfl, logAccess_regWord s p a cause data hr hn]
  · rfl

/-- Settles O60: the write is logged, its word stored and settled; with no job and no POD_ASSIGN waiting, none of the three touches
another register. -/
theorem plainRegisterWrite : Obligations.PlainRegisterWrite := by
  unfold Obligations.PlainRegisterWrite
  intro s p a d r hlive hcause hfor hk hh ha hcg hjobs hassign
  have hat := State.regAt_of_regFor hfor
  have haddr : r.addr = a.toNat := addr_of_regAt hat
  rw [← haddr] at hat
  have hr : r.Plain := ⟨hk, hh, ha, hcg⟩
  have hexec := exec_registerWrite_normal hlive hcause hfor
  generalize hu : logAccess s p a.toNat 0 (some d) = u at hexec
  have log {β : Type} (f : State → β) (hf : ∀ s, f s.bare = f s) (hfw : ∀ s fw, f { s with fw := fw } = f s) : f u = f s :=
    hu ▸ logAccess_read s p a.toNat 0 (some d) f hf hfw
  have hj : u.umpire.jobs = [] := (log (·.umpire.jobs) (fun _ => rfl) fun _ _ => rfl).trans hjobs
  have hf : u.fw.assign = none := (hu ▸ logAccess_assign s p a.toNat 0 (some d)).trans hassign
  have read {β : Type} (f : State → β) := writeNormal_read p d hr hj hf f
  have hword : (writeNormal u p r d).regWord r.addr = s.plainWord r d :=
    (writeNormal_regWord p d hr hj hf).trans (hu ▸ plainWord_logAccess s p a.toNat 0 (some d) d hat)
  rw [← haddr]
  refine ⟨_, hexec, fun hn => ?_, fun hn => ?_, ?_, ?_, ?_, ?_, fun n => ?_, ?_, fun k hkp => ?_, fun b hb hne hn => ?_⟩
  · rw [State.regWord_setPath, hword, State.plainWord, if_neg hn]
  · rw [State.regWord_setPath, hword, State.plainWord, if_pos hn]
  · exact (read State.part (fun _ _ => rfl) fun _ => rfl).trans (log _ (fun _ => rfl) fun _ _ => rfl)
  · exact (read State.pending (fun _ _ => rfl) fun _ => rfl).trans (log _ (fun _ => rfl) fun _ _ => rfl)
  · exact (read State.distaff (fun _ _ => rfl) fun _ => rfl).trans (log _ (fun _ => rfl) fun _ _ => rfl)
  · exact (read State.cal (fun _ _ => rfl) fun _ => rfl).trans (log _ (fun _ => rfl) fun _ _ => rfl)
  · exact (read (State.sess · n) (fun _ _ => rfl) fun _ => rfl).trans (hu ▸ logAccess_sess s p a.toNat 0 (some d) n)
  · rw [State.path_setPath]
  · rw [State.path_setPath_ne _ _ _ _ (pathCode_ne hkp)]
    exact (read (State.path · k) (fun _ _ => rfl) fun _ => rfl).trans (log (State.path · k) (fun _ => rfl) fun _ _ => rfl)
  · exact (writeNormal_regWord_ne p d hr hj hf hne).trans (hu ▸ logAccess_regWord s p a.toNat 0 (some d) hb hn)

end Sys2Proof.Machine
end

section
/-! PROOFS of the family 01_bench_model: the session and administration commands, the resets and the supplies, the USB link, and the
end of a bench reset. -/

namespace Sys2Proof.Machine

/-! ### A mailbox command that passes its checks -/

/-- A row of a mailbox command has the command's own effect once every check of R318 lets it through. -/
theorem exec_of_checksPass {i : Instr} {s : State} {info : OpInfo} {c : Cmd} {m : Meaning}
    (hrow : exec i s = .next (mailbox s info c m)) (h : checksPass s info c m = true) :
    exec i s = .next (m.run (takeCommand s info.op c) false) := by
  rw [hrow, mailbox_of_checksPass s info c m h]

/-- Settles O1: each row is its mailbox command, taken and run. -/
theorem sessionGroupComplete : Obligations.SessionGroupComplete := by
  unfold Obligations.SessionGroupComplete
  refine ⟨fun s c => ⟨?benchOpen, ?benchClose, ?benchReset⟩, fun s c => ⟨?benchStatus, ?capsQuery, ?accountsQuery⟩⟩
  case benchOpen =>
    intro h
    rw [exec_of_checksPass rfl h]
    dsimp only [meanBenchOpen, infoBenchOpen, cmdBench, done]
  case benchClose =>
    intro h
    rw [exec_of_checksPass rfl h]
    dsimp only [meanBenchClose, infoBenchClose, cmdBench]
  case benchReset =>
    intro h
    rw [exec_of_checksPass rfl h]
    dsimp only [meanBenchReset, infoBenchReset, cmdBench]
  case benchStatus =>
    intro h
    rw [exec_of_checksPass rfl h]
    dsimp only [meanBenchStatus, infoBenchStatus, cmdTarget, done]
  case capsQuery =>
    intro h
    rw [exec_of_checksPass rfl h]
    dsimp only [meanCapsQuery, infoCapsQuery, done]
  case accountsQuery =>
    intro h
    rw [exec_of_checksPass rfl h]
    dsimp only [meanAccountsQuery, infoAccountsQuery, cmdTarget, done]

/-! ### The configuration record and Survo firmware's own state -/

/-- What each step of a pass over a list leaves alone, the pass leaves alone. -/
theorem State.each_read {α β : Type} (f : State → β) {l : List α} {g : State → α → State} (hg : ∀ s a, f (g s a) = f s) (s : State) :
    f (s.each l g) = f s := by
  unfold State.each
  induction l generalizing s with
  | nil => rfl
  | cons a t ih => exact (ih (g s a)).trans (hg s a)

@[simp] theorem diverge_fw (s : State) (kind tick source word : Nat) : (diverge s kind tick source word).fw = s.fw := by
  unfold diverge
  split <;> rfl

/-- An error on a resource waits with the Referee, and a replay books it with Mboron; Survo firmware's own state stays. -/
@[simp] theorem raiseFault_fw (s : State) (res : Word) (code : Nat) : (raiseFault s res code).fw = s.fw := by
  simp only [raiseFault, apply_ite State.fw, diverge_fw, ite_self]

@[simp] theorem systemFailed_fw (s : State) (x : Nat) : (systemFailed s x).fw = s.fw := by
  unfold systemFailed
  refine (State.each_read State.fw (fun t k => ?_) _).trans rfl
  dsimp only
  split
  · exact raiseFault_fw _ _ _
  · rfl

@[simp] theorem writeRecord_fw (s : State) (f : ConfRecord → ConfRecord) : (writeRecord s f).2.fw = s.fw := systemFailed_fw _ 0

/-- A copy can be programmed unless the programs of both fail (R558). -/
theorem writeRecord_fst_iff (s : State) (f : ConfRecord → ConfRecord) :
    (writeRecord s f).1 = true ↔ ¬ ((s.lane 0).sysFail.testBit 0 = true ∧ (s.lane 0).sysFail.testBit 1 = true) := by
  unfold writeRecord
  rw [Bool.not_eq_true', ← Bool.not_eq_true, Bool.and_eq_true]

/-! ### SET_CREDENTIAL -/

/-- A member without lanes keeps the hash in the registers' domain alone (R347). -/
theorem setCredential_run_of_no_lanes {s : State} (c : Cmd) (hl : s.member.lanes = 0) :
    (meanSetCredential c).run s false = respond { s with fw := { s.fw with credHash := newHash c } } 0x0E03 c .done 0 [] := by
  have hno : ¬ 0 < s.member.lanes := by omega
  dsimp only [meanSetCredential]
  rw [if_neg fun h => hno h.1, if_neg hno]
  rfl

/-- With SLA out of service the credential stays (R349). -/
theorem setCredential_run_of_not_serving {s : State} (c : Cmd) (hl : 0 < s.member.lanes) (hs : s.laneServes 0 = false) :
    (meanSetCredential c).run s false = respond s 0x0E03 c .retired (s.retireCode (resLane 0)) [] := by
  dsimp only [meanSetCredential]
  rw [if_pos ⟨hl, by rw [hs]; rfl⟩]

/-- With SLA in service the outcome is that of writing the configuration record (R348, R349). -/
theorem setCredential_run_of_serving {s : State} (c : Cmd) (hl : 0 < s.member.lanes) (hs : s.laneServes 0 = true) :
    (meanSetCredential c).run s false =
      let w := writeRecord s fun x => { x with hash := newHash c }
      if w.1 then respond { w.2 with fw := { w.2.fw with credHash := newHash c } } 0x0E03 c .done 0 []
      else respond w.2 0x0E03 c .retired 0x0501 [] := by
  dsimp only [meanSetCredential]
  rw [if_neg (by simp [hs]), if_pos hl]
  rfl

/-- Settles O3: the rows are their mailbox commands, taken and run; SET_CREDENTIAL by the lanes of the member, the service of SLA and
what writing the record answers.  That RETIRED comes with DETAIL 0x0501 where both copies fail is the model's choice (log 77). -/
theorem administrationCompletes : Obligations.AdministrationCompletes := by
  unfold Obligations.AdministrationCompletes
  refine ⟨fun s c => ⟨?adminOpen, ?adminClose, ?timeout, ?openBenchEnter, ?openBenchLeave⟩, fun s c h => ?setCredential⟩
  case adminOpen => exact exec_of_checksPass rfl
  case adminClose => exact exec_of_checksPass rfl
  case timeout => exact fun hruns => congrArg Host.Outcome.next (if_pos hruns)
  case openBenchEnter => exact exec_of_checksPass rfl
  case openBenchLeave => exact exec_of_checksPass rfl
  case setCredential =>
    have hexec : exec (.setCredential c) s = .next ((meanSetCredential c).run (takeCommand s 0x0E03 c) false) := by
      rw [exec_of_checksPass rfl h]
      dsimp only [infoSetCredential]
    refine ⟨rfl, fun hl => ?noLanes, fun hl hs => ?notServing, fun hl hs => ⟨fun hw => ?written, fun hw => ?unwritten⟩,
      writeRecord_fst_iff _ _, fun _ => congrArg Firmware.credHash (writeRecord_fw _ _)⟩
    case noLanes => rw [hexec, setCredential_run_of_no_lanes c hl]; rfl
    case notServing => rw [hexec, setCredential_run_of_not_serving c hl hs]
    case written =>
      rw [hexec, setCredential_run_of_serving c hl hs]
      exact congrArg Host.Outcome.next (if_pos hw)
    case unwritten =>
      rw [hexec, setCredential_run_of_serving c hl hs]
      exact congrArg Host.Outcome.next (if_neg (Bool.not_eq_true _ ▸ hw))

/-! ### Supplies, resets and the junction -/

/-- With every required rail there, a held reset is a reset of the fast domain (R57, R80). -/
theorem resetHeld_of_not_off {s : State} (h : s.power.state ≠ .off) (cause : BitVec 8) : resetHeld s cause = fastReset s cause := if_neg h

theorem mayRelease_iff (s : State) :
    s.mayRelease = true ↔
      s.power.fastReset = true ∧ s.power.nresetLow = false ∧ s.power.trip = false ∧ s.power.state ≠ .off := by
  simp [State.mayRelease, and_assoc]

/-- Settles O32: each row is its equation, under the guard that the row checks.  OFF after COLD_RESET and SUPPLY_MONITOR_RESET until the
rails rise, and the junction at 120 °C and HOT at the trip, are the model's choices (logs 33 and 34). -/
theorem resetEventsComplete : Obligations.ResetEventsComplete := by
  unfold Obligations.ResetEventsComplete
  intro s
  refine ⟨rfl, fun _ => rfl, ?rise, rfl, fun _ => rfl, ?held, rfl, rfl, ?watchdog, ?release⟩
  case rise =>
    intro hoff
    constructor
    · exact congrArg Host.Outcome.next (if_pos hoff)
    · exact congrArg Host.Outcome.next (if_pos hoff)
  case held =>
    intro hon
    constructor
    · show Host.Outcome.next (let t := resetHeld s 3; { t with power := { t.power with trip := true, hot := true, tj := 120 } }) = _
      rw [resetHeld_of_not_off hon]
    · show Host.Outcome.next (let t := resetHeld s 4; { t with power := { t.power with nresetLow := true } }) = _
      rw [resetHeld_of_not_off hon]
  case watchdog => exact fun hruns => congrArg Host.Outcome.next (if_pos hruns)
  case release =>
    intro straps hreset hnreset htrip hon
    exact congrArg Host.Outcome.next (if_pos ((mayRelease_iff s).2 ⟨hreset, hnreset, htrip, hon⟩))

/-! ### The USB link -/

/-- A bus reset of an attached link: a running A9 loses it, one that sleeps wakes as well (R741, R743). -/
theorem busResetSeen_of_attached {s : State} (h : s.usb.link ≠ .detached) :
    busResetSeen s = if s.live then linkLost s true else wakeFor (linkLost s true) .usb 0 .awake := if_neg h

theorem suspendLink_of_attached {s : State} (h : s.usb.link = .highSpeed ∨ s.usb.link = .superSpeed) :
    suspendLink s = { s with usb := { s.usb with link := .suspended } } := by
  unfold suspendLink
  rcases h with h | h <;> rw [h]

theorem resumeLink_of_suspended {s : State} (h : s.usb.link = .suspended) :
    resumeLink s = { s with usb := { s.usb with link := s.usb.speed, signalling := false } } := if_pos h

theorem hostPresent_of_live {s : State} (hlive : s.live = true) (hpull : s.usb.pullup = true) : s.hostPresent = true := by
  rw [State.hostPresent, hlive, hpull]; rfl

/-- The link is up at the first control request (R723). -/
theorem linkUp_eq (s : State) (ss : Bool) :
    linkUp s ss =
      if s.usb.link = .detached then
        let l : Link := if ss && !s.usb.hsOnly then .superSpeed else .highSpeed
        { s with usb := { s.usb with link := l, speed := l } }
      else s := by
  unfold linkUp
  rw [ite_not]

/-- A resume without a reset of the bus, on a suspended link: a running A9 is back on it, one that sleeps wakes (R743). -/
theorem exec_usbResume_of_suspended {s : State} (h : s.usb.link = .suspended) :
    exec (.usbResume false) s = .next (if s.live then resumeLink s else wakeFor s .usb 0 .awake) :=
  congrArg Host.Outcome.next (if_neg (not_not_intro h))

/-- Settles O34: each row by the state of the link and by whether the fast domain runs.  That a bus reset in SLEEP or DOZE acts at once and
wakes, and that one before an attach is only counted, are the model's choices (log 38). -/
theorem usbLinkCompletes : Obligations.UsbLinkCompletes := by
  unfold Obligations.UsbLinkCompletes
  intro s
  refine ⟨?attached, ?unattached, rfl, ?suspend, ?suspended, ?present⟩
  case attached =>
    intro hlink
    have hreset := busResetSeen_of_attached hlink
    refine ⟨congrArg Host.Outcome.next (if_neg hlink), fun hlive => ?_, fun hlive => ?_⟩
    · rw [if_pos hlive] at hreset
      exact ⟨congrArg Host.Outcome.next hreset, congrArg Host.Outcome.next hreset⟩
    · rw [hlive, if_neg Bool.false_ne_true] at hreset
      exact ⟨congrArg Host.Outcome.next hreset, congrArg Host.Outcome.next hreset⟩
  case unattached => exact fun hlink hhost => congrArg Host.Outcome.next ((if_pos hlink).trans (if_pos hhost))
  case suspend => exact fun hlink => congrArg Host.Outcome.next (suspendLink_of_attached hlink)
  case suspended =>
    intro hlink
    refine ⟨fun hlive => ?_, fun hlive => ?_, fun hlive hremote husb hpower => ?_⟩
    · rw [exec_usbResume_of_suspended hlink, if_pos hlive, resumeLink_of_suspended hlink]
    · rw [exec_usbResume_of_suspended hlink, hlive, if_neg Bool.false_ne_true]
    · exact congrArg Host.Outcome.next (if_pos ⟨hlive, hlink, hremote, husb, hpower⟩)
  case present =>
    intro hlive hpull
    have hhost := hostPresent_of_live hlive hpull
    refine ⟨congrArg Host.Outcome.next (if_pos hhost), fun hlink => congrArg Host.Outcome.next (if_pos ⟨hhost, hlink⟩), fun ss => ?_⟩
    have hasked : ¬ (!s.live || !s.usb.pullup) = true := by simp [hlive, hpull]
    rw [← linkUp_eq s ss]
    exact ⟨congrArg Host.Outcome.next (if_neg hasked), fun a => congrArg Host.Outcome.next (if_neg hasked),
      congrArg Host.Outcome.next (if_neg hasked), fun on => congrArg Host.Outcome.next (if_neg hasked),
      congrArg Host.Outcome.next (if_neg hasked)⟩

/-! ### The end of a bench reset -/

/-- Settles O39: the reset that the bench waits for ends, with nothing left to hold it back.  The events framed at once and the late
answers last are the model's choices (logs 44 and 41). -/
theorem benchResetCompletes : Obligations.BenchResetCompletes := by
  unfold Obligations.BenchResetCompletes
  intro s n r hjob hstate hlive hprogram
  show Host.Outcome.next (finishReset s n.val) = _
  have hgo : ¬ (s.bstate n ≠ .resetting ∨ !s.live ∨ s.programming n) := by simp [hstate, hlive, hprogram]
  unfold finishReset
  rw [hjob]
  exact congrArg Host.Outcome.next (if_neg hgo)

/-! ### The state after reset -/

/-- Every array of the state after reset is empty. -/
theorem canonical_reset : Canonical State.reset := by
  unfold Canonical
  refine ⟨?_, ?_, ?_, ?_, ?_, ?_, ?_, ?_, ?_, ?_, ?_, ?_⟩ <;> rfl

/-- The calendar starts at 2000-01-01, 00:00:00 (R795). -/
theorem inRange_reset : State.reset.cal.InRange := by
  unfold Calendar.InRange
  decide

/-- Settles O41: the state after reset holds no entry in any array, so that every read gives the reset value.  No command waiting, the
empty hidden state and canonical form are the model's own (logs 10 and 7). -/
theorem resetKeepsRules : Obligations.ResetKeepsRules := by
  unfold Obligations.ResetKeepsRules
  exact ⟨canonical_reset, inRange_reset, rfl, fun a => ⟨Store.get_nil regDefault a, Store.get_nil regDefault a⟩, rfl, rfl, rfl,
    fun n => congrArg Session.state (Store.get_nil Session.init n),
    fun q => ⟨congrArg Queue.count (Store.get_nil Queue.init q), congrArg Queue.held (Store.get_nil Queue.init q)⟩⟩

end Sys2Proof.Machine
end

section
/-! PROOFS of the family 03_clocks_power_distaff: the front of the queue of commands, and the power and Distaff commands and events. -/

namespace Sys2Proof.Machine

/-! ### The queue of commands -/

/-- Settles O40: the queue of the model is first in, first out, and an empty one lets a base tick pass: the model's choices
(logs 10 and 1). -/
theorem stepRunsFrontCommand : Obligations.StepRunsFrontCommand := by
  unfold Obligations.StepRunsFrontCommand
  constructor
  · intro s c rest h
    rw [step, h]
  · intro s h
    rw [step, h]

/-! ### The power and Distaff commands -/

/-- POWER_ENTER with a TARGET that names a power state asks for the entry and is answered (R82). -/
theorem powerEnter_run_of_target (s : State) {c : Cmd} {target : PState} (h : entryTarget (pf c 2 1 0) = some target) :
    (meanPowerEnter c).run s false = respond (requestEntry (setPowerCtrl s c) target).2 0x0D01 c .done 0 [] := by
  dsimp only [meanPowerEnter]
  rw [h]
  rfl

/-- DST_READ_LOG answers the entries of its range, and the lost ones as they stand after CONSUME has moved the read pointer (R123,
R124). -/
theorem dstReadLog_run (s : State) (c : Cmd) :
    (meanDstReadLog c).run s false =
      let e := distaffEntries s c
      let u := if bitB (pw c 2) 16 then writeRptr s e.2 else s
      respond u 0x0D12 c .done 0
        ([pack [(e.1.length, 0), (e.2, 16)], u.rd .dstLogLost] ++ e.1.flatMap fun d => [DWord.lo d, DWord.hi d]) := rfl

/-- Settles O30: the rows are their mailbox commands, taken and run; POWER_ENTER by its TARGET, DST_READ_LOG by CONSUME.  That the queries
answer the registers as they stand, the range and the length of the log's answer, and its unwritten slots are the model's choices (logs
64, 46 and 65). -/
theorem powerCommandsComplete : Obligations.PowerCommandsComplete := by
  unfold Obligations.PowerCommandsComplete
  intro s c
  refine ⟨fun target h htarget => ?powerEnter, ?powerQuery, ?dstSetRules, ?dstSetInputs, ?dstCounters,
    fun h => ⟨fun hconsume => ?dstReadLog, fun hconsume => ?dstReadLogConsume⟩⟩
  case powerEnter =>
    rw [exec_of_checksPass rfl h, powerEnter_run_of_target _ htarget]
    dsimp only [infoPowerEnter]
  case powerQuery => exact exec_of_checksPass rfl
  case dstSetRules => exact exec_of_checksPass rfl
  case dstSetInputs => exact exec_of_checksPass rfl
  case dstCounters => exact exec_of_checksPass rfl
  case dstReadLog =>
    rw [exec_of_checksPass rfl h, dstReadLog_run, hconsume]
    rfl
  case dstReadLogConsume =>
    rw [exec_of_checksPass rfl h, dstReadLog_run, hconsume]
    rfl

/-! ### The power and Distaff events -/

/-- A path that can make an access writes the register and keeps whether the write was a bus error (R195). -/
theorem accessWrite_of_pathLive {s : State} {p : Path} (h : s.pathLive p = true) (a : Nat) (d : Word) :
    accessWrite s p a d =
      let e := busWrite s p a d
      e.2.setPath p { e.2.path p with data := [], error := decide (e.1 ≠ 0) } := if_pos h

/-- A command waits in a CMD queue or in the queue of the USB admin buffer, 66: what an entry looks for before it starts (R84). -/
def State.cmdQueueHolds (s : State) : Bool :=
  (List.range 67).any fun q => (isCmdQueue q || decide (q = 66)) && decide (0 < (s.queue q).count)

theorem cmdQueueHolds_iff (s : State) :
    s.cmdQueueHolds = true ↔ ∃ q : Nat, q < 67 ∧ (isCmdQueue q = true ∨ q = 66) ∧ 0 < (s.queue q).count := by
  simp [State.cmdQueueHolds]

theorem not_cmdQueueHolds {s : State} (h : ∀ q : Nat, q < 67 → (isCmdQueue q = true ∨ q = 66) → (s.queue q).count = 0) :
    ¬ s.cmdQueueHolds = true := by
  rw [cmdQueueHolds_iff]
  rintro ⟨q, hq, hcmd, hcount⟩
  exact Nat.ne_of_gt hcount (h q hq hcmd)

/-- An entry that waits for no test is abandoned for a command that waits, and starts otherwise (R83 to R85). -/
theorem startEntry_of_no_test {s : State} {target : PState} (hentry : s.power.entry = some target) (hlive : s.live = true)
    (hrunning : s.ref.running = []) (hwaiting : s.ref.waiting = []) :
    startEntry s =
      if s.cmdQueueHolds then
        heldEntry { s with
          power := { s.power with entry := none, refused := true }, storage := { s.storage with suspended := false } }
      else
        let t := logPart (if s.usb.link = .suspended then s else dropPullup s) 0xD (2 + target.code * 2 ^ 8)
        { t with power := { t.power with state := target, entry := none, elapsed := 0, bobbinRet := t.bobbinRetained } } := by
  have hgo : ¬ (!s.live || !(s.ref.running.isEmpty && s.ref.waiting.isEmpty)) = true := by simp [hlive, hrunning, hwaiting]
  rw [startEntry, hentry]
  exact if_neg hgo

/-- Distaff latches an edge in every power state but OFF (R80, R94). -/
theorem distaffWatches_of_not_off {s : State} (h : s.power.state ≠ .off) : s.distaffWatches = true := decide_eq_true h

/-- Outside a reset of the fast domain the wake timeline reaches its end (R90). -/
theorem exec_wakeComplete_of_no_reset {s : State} (h : s.power.fastReset = false) :
    exec .wakeComplete s = .next (finishWake s) := by
  have hrun : ¬ s.power.fastReset = true := by simp [h]
  exact congrArg Host.Outcome.next (if_neg hrun)

/-- A wake to DOZE costs what SLEEP has cost, and stops there (R90 to R92). -/
theorem finishWake_of_doze {s : State} (h : s.power.waking = some .doze) :
    finishWake s = let t := sleepLosses s; { t with power := { t.power with state := .doze, waking := none } } := by
  rw [finishWake, h]

/-- Settles O31: each row is its equation, under the guard that the row checks; the start of an entry by whether a command waits.  The
POWER mark with its target in [9:8] and the moment of an entry are the model's choices (logs 33 and 51). -/
theorem powerEventsComplete : Obligations.PowerEventsComplete := by
  unfold Obligations.PowerEventsComplete
  intro s
  refine ⟨?written, ?started, ?abandoned, ?latched, fun _ => rfl, ?timer, ?doze, ?awake⟩
  case written =>
    intro p d hlive
    exact ⟨congrArg Host.Outcome.next (accessWrite_of_pathLive hlive _ d),
      congrArg Host.Outcome.next (accessWrite_of_pathLive hlive _ d)⟩
  case started =>
    intro target hentry hlive hrunning hwaiting hempty
    exact congrArg Host.Outcome.next
      ((startEntry_of_no_test hentry hlive hrunning hwaiting).trans (if_neg (not_cmdQueueHolds hempty)))
  case abandoned =>
    intro target hentry hlive hrunning hwaiting hholds
    exact congrArg Host.Outcome.next
      ((startEntry_of_no_test hentry hlive hrunning hwaiting).trans (if_pos ((cmdQueueHolds_iff s).2 hholds)))
  case latched =>
    intro w hon
    have hwatch := distaffWatches_of_not_off hon
    exact ⟨congrArg Host.Outcome.next (if_pos hwatch), congrArg Host.Outcome.next (if_pos hwatch)⟩
  case timer => exact fun hen hat => congrArg Host.Outcome.next (if_pos ⟨hen, hat⟩)
  case doze =>
    intro hreset hwaking
    rw [exec_wakeComplete_of_no_reset hreset, finishWake_of_doze hwaking]
  case awake => exact fun hreset _ => exec_wakeComplete_of_no_reset hreset

end Sys2Proof.Machine
end

section
/-! PROOFS of the family 04_startup: the checks of a command, the A9 as two-wire target, and start-up with USB recovery. -/

namespace Sys2Proof.Machine

/-! ### The checks of a command, in order -/

/-- Answer with what a check has found, or go on with `next`. -/
def answerOr (found : Refuse) (s : State) (op : BitVec 16) (c : Cmd) (next : State) : State :=
  match found with
  | some (st, d) => respond s op c st d []
  | none => next

section
variable {found : Refuse} {s : State} {op : BitVec 16} {c : Cmd} {next : State}

theorem answerOr_of_some {st : Status} {d : Nat} (h : found = some (st, d)) : answerOr found s op c next = respond s op c st d [] := by
  rw [h]; rfl

theorem answerOr_of_none (h : found = none) : answerOr found s op c next = next := by
  rw [h]; rfl

theorem answerOr_orElse (a b : Refuse) : answerOr (orElse a b) s op c next = answerOr a s op c (answerOr b s op c next) := by
  cases a <;> rfl

end

/-- Survo firmware runs, and the stream gives it the command, which is none of a replay log's: it is taken now. -/
structure Given (s : State) (op : BitVec 16) (c : Cmd) : Prop where
  runs : s.survoRuns = true
  unlogged : isReplayTake s op c = false
  free : streamBlocked s op c = false

/-- Before READY every command is answered BAD_STATE (R148). -/
theorem Given.mailbox_of_not_ready {s : State} {i : OpInfo} {c : Cmd} (h : Given s i.op c) (m : Meaning) (hready : s.isReady = false) :
    mailbox s i c m = respond (takeCommand s i.op c) i.op c .badState 0xFFFF [] := by
  simp [mailbox, h.runs, h.unlogged, h.free, hready]

/-- Checks 7 to 9 of R318 on the state `t` in which the command has been taken, and then its effect. -/
def runChecked (t : State) (i : OpInfo) (c : Cmd) (m : Meaning) : State :=
  answerOr (checkState t i c false) t i.op c <| answerOr (m.cond t) (m.denied t) i.op c <| answerOr (m.args t) t i.op c <|
    answerOr (checkSlots t i c) t i.op c <| answerOr (m.space t) t i.op c <| m.run t false

/-- From READY on the checks of R318 are made one after the other, and the first that fails answers; after the TAG a FENCE command waits
for the commands before it (R278). -/
theorem Given.mailbox_of_ready {s : State} {i : OpInfo} {c : Cmd} (h : Given s i.op c) (m : Meaning) (hready : s.isReady = true)
    (hearly : (s.stream c.stream).early = 0) (hreset : streamResetting s c = false) :
    mailbox s i c m =
      let t := takeCommand s i.op c
      answerOr (checkForm s i c false) t i.op c <| answerOr (m.perm s) (m.barred t) i.op c <| answerOr (checkTag s c) t i.op c <|
        if c.fence = true ∧ (s.stream c.stream).outstanding ≠ [] then
          s.setStream c.stream { s.stream c.stream with fence := some (i.op, c) }
        else runChecked t i c m := by
  simp only [mailbox, h.runs, h.unlogged, h.free, hready, hearly, hreset, Nat.lt_irrefl, decide_false, Bool.not_true, Bool.not_false,
    Bool.and_false, Bool.or_false, Bool.false_eq_true, if_false, and_true]
  cases checkForm s i c false with
  | some r => rfl
  | none =>
    cases m.perm s with
    | some r => rfl
    | none =>
      cases checkTag s c with
      | some r => rfl
      | none =>
        refine ite_congr rfl (fun _ => rfl) fun _ => ?_
        simp only [runChecked, ← answerOr_orElse]
        cases checkState (takeCommand s i.op c) i c false with
        | some r => rfl
        | none =>
          cases m.cond (takeCommand s i.op c) with
          | some r => rfl
          | none =>
            cases orElse (m.args (takeCommand s i.op c))
                (orElse (checkSlots (takeCommand s i.op c) i c) (m.space (takeCommand s i.op c))) with
            | some r => rfl
            | none => rfl

/-- A TAG in use is refused (R277). -/
theorem checkTag_of_busy {s : State} {c : Cmd} (h : (s.busyTags c.stream).contains c.tag = true) : checkTag s c = some (.badArg, 0) :=
  if_pos h

/-- The ninth outstanding command of a stream finds no slot (R276). -/
theorem checkSlots_of_full {s : State} {i : OpInfo} {c : Cmd} (hlong : i.long = true) (h : 8 ≤ (s.stream c.stream).outstanding.length) :
    checkSlots s i c = some (.noSpace, 0xFFFF) := if_pos ⟨hlong, h⟩

theorem checkSlots_of_room {s : State} {i : OpInfo} {c : Cmd} (h : i.long = false ∨ (s.stream c.stream).outstanding.length < 8) :
    checkSlots s i c = none := by
  refine if_neg fun ⟨hlong, hfull⟩ => ?_
  rcases h with h | h
  · exact absurd hlong (h ▸ Bool.false_ne_true)
  · omega

/-- Settles O58: the checks are made in order, so each clause passes the checks before its own. -/
theorem commandChecksInOrder : Obligations.CommandChecksInOrder := by
  unfold Obligations.CommandChecksInOrder
  intro s i c m hruns hunlogged hfree t answers
  have hgiven : Given s i.op c := ⟨hruns, hunlogged, hfree⟩
  refine ⟨hgiven.mailbox_of_not_ready m, fun hready hearly hreset => ?_⟩
  have hmail := hgiven.mailbox_of_ready m hready hearly hreset
  refine ⟨fun _ _ h => hmail.trans (answerOr_of_some h), fun hform => ?_⟩
  replace hmail := hmail.trans (answerOr_of_none hform)
  refine ⟨fun _ _ h => hmail.trans (answerOr_of_some h), fun hperm => ?_⟩
  replace hmail := hmail.trans (answerOr_of_none hperm)
  refine ⟨fun h => hmail.trans (answerOr_of_some (checkTag_of_busy h)), fun htag hfence => ?_⟩
  have hpast : ¬ (c.fence = true ∧ (s.stream c.stream).outstanding ≠ []) := fun ⟨hf, ho⟩ => ho (hfence hf)
  replace hmail := (hmail.trans (answerOr_of_none htag)).trans (if_neg hpast)
  refine ⟨fun _ _ h => hmail.trans (answerOr_of_some h), fun hstate => ?_⟩
  replace hmail := hmail.trans (answerOr_of_none hstate)
  refine ⟨fun _ _ h => hmail.trans (answerOr_of_some h), fun hcond => ?_⟩
  replace hmail := hmail.trans (answerOr_of_none hcond)
  refine ⟨fun _ _ h => hmail.trans (answerOr_of_some h), fun hargs => ?_⟩
  replace hmail := hmail.trans (answerOr_of_none hargs)
  refine ⟨fun hlong h => hmail.trans (answerOr_of_some (checkSlots_of_full hlong h)), fun hslots => ?_⟩
  replace hmail := hmail.trans (answerOr_of_none (checkSlots_of_room hslots))
  exact ⟨fun _ _ h => hmail.trans (answerOr_of_some h), fun hspace => hmail.trans (answerOr_of_none hspace)⟩

/-! ### The A9 as two-wire target -/

/-- Outside of a stretch the A9 takes what comes over the bus where it takes it at all (R698). -/
theorem and_unstretched {s : State} {b : Bool} (hb : b = true) (hstretch : s.tw.stretched = none) :
    (b && s.tw.stretched.isNone) = true := by rw [hb, hstretch]; rfl

/-- Before READY the fast domain answers its address otherwise (R140). -/
theorem live_and_not_ready {s : State} (hlive : s.live = true) (hready : s.isReady = false) : (s.live && !s.isReady) = true := by
  rw [hlive, hready]; rfl

/-- A pointer within the window of 20 bits is taken (R693). -/
theorem setPointer_of_lt (s : State) {p2 : Byte} (p1 p0 : Byte) (h : p2.toNat < 16) :
    setPointer s p2 p1 p0 = { s with tw := { s.tw with
      busy := true, ack := true, nacking := false, reading := false,
      pointer := p2.toNat * 2 ^ 16 + p1.toNat * 2 ^ 8 + p0.toNat } } := if_neg (Nat.not_le.2 h)

/-- A word whose write is no bus error and waits for nothing is acknowledged, and the pointer advances (R694). -/
theorem writeWord_of_no_error {s : State} {d : Word} (hnack : s.tw.nacking = false)
    (herror : ((accessWrite s .twoWire s.tw.pointer d).path .twoWire).error = false)
    (hstretch : (accessWrite s .twoWire s.tw.pointer d).tw.stretched = none) :
    writeWord s d =
      let w := accessWrite s .twoWire s.tw.pointer d
      { w with tw := { w.tw with
        busy := true, reading := false, ack := true, nacking := false, pointer := nextPointer w.tw.pointer } } := by
  simp only [writeWord, hnack, herror, hstretch, Bool.false_eq_true, if_false, Option.isSome_none, Option.isNone_none, Bool.not_false,
    Bool.and_self]

/-- A word whose read is no bus error is sent, and the pointer advances (R695). -/
theorem readWord_of_no_error {s : State} (hnack : s.tw.nacking = false)
    (herror : ((accessRead s .twoWire s.tw.pointer).path .twoWire).error = false) :
    readWord s =
      let r := accessRead s .twoWire s.tw.pointer
      { r with tw := { r.tw with
        busy := true, ack := true, nacking := false, reading := true, pointer := nextPointer r.tw.pointer } } := by
  simp only [readWord, hnack, herror, Bool.false_eq_true, if_false, Bool.false_and, Bool.not_false]

/-- The bus is stretched at Q_WR_HI of queue `q`, so it is the push into that queue that is refused (R240, R699). -/
theorem stretchOver_of_push {s : State} {q : Nat} {hi : Word} {w : QWord} (hq : q < 64)
    (hstretch : s.tw.stretched = some (0x6000 + q * 0x40 + 0x0C, hi)) (hwait : twWaits s q = some w) :
    stretchOver s =
      let t := s.setQueue q { s.queue q with waiting := (s.queue q).waiting.filter fun e => decide (e.1 ≠ Producer.path .twoWire) }
      let u := holdLo (t.bumpQCnt q 11 0) .twoWire (0x6000 + q * 0x40 + 8) (DWord.lo w.data)
      { u with tw := { u.tw with stretched := none, ack := false, nacking := true } } := by
  have hwindow : ¬ 0x6000 + q * 0x40 + 0x0C < 0x6000 := by omega
  have hqueue : (0x6000 + q * 0x40 + 0x0C - 0x6000) / 0x40 = q := by omega
  simp only [stretchOver, hstretch, if_neg hwindow, hqueue, if_pos hq, hwait]

/-- Settles O23: each row is its equation, under the guard that the row checks; the stretch timeout by the queue that the held address
names. -/
theorem twoWireTargetCompletes : Obligations.TwoWireTargetCompletes := by
  unfold Obligations.TwoWireTargetCompletes
  intro s
  refine ⟨?bootStatus, ?preReady, ?window, ?stop, ?stretch, ?wake⟩
  case bootStatus =>
    intro count hlive hready hserves
    exact congrArg Host.Outcome.next ((if_pos (live_and_not_ready hlive hready)).trans (if_pos hserves))
  case preReady => exact fun hlive hready => congrArg Host.Outcome.next (if_pos (live_and_not_ready hlive hready))
  case window =>
    intro hserves hstretch
    have htakes := and_unstretched hserves hstretch
    refine ⟨fun p2 p1 p0 hp => ?pointer, fun d hnack herror hwait => ?write, fun hnack herror => ?read⟩
    case pointer => exact congrArg Host.Outcome.next ((if_pos htakes).trans (setPointer_of_lt s p1 p0 hp))
    case write => exact congrArg Host.Outcome.next ((if_pos htakes).trans (writeWord_of_no_error hnack herror hwait))
    case read => exact congrArg Host.Outcome.next ((if_pos htakes).trans (readWord_of_no_error hnack herror))
  case stop =>
    intro bytes hlive hstretch w
    refine congrArg Host.Outcome.next ((if_pos (and_unstretched hlive hstretch)).trans ?_)
    simp only [busStop, Bool.not_eq_true', w]
  case stretch =>
    intro q hi w hq hlive hstretch hwait
    exact congrArg Host.Outcome.next ((if_pos hlive).trans (stretchOver_of_push hq hstretch hwait))
  case wake => exact fun hsleeps => congrArg Host.Outcome.next (if_pos hsleeps)

/-! ### The boot ROM -/

/-- The state in which the boot ROM has begun and holds what it finds in the two copies. -/
def romReads (s : State) (va vb : ImageView) : State :=
  setBoot (if s.boot.phase = .none then beginRom s else s) fun b => { b with copyA := va, copyB := vb }

/-- Copy A has failed a check, with `e` as ERROR (R142, R143). -/
def failCopyA (t : State) (e : BitVec 8) : State := setBoot t fun b => { b with flags := b.flags ||| 1, error := e }

/-- The boot ROM's choice once it holds the two copies (R132 to R135). -/
def bootChoice (t : State) (va vb : ImageView) : State :=
  if t.member.lanes = 0 ∨ t.boot.straps.bootsel = true then enterRecovery t
  else match imageError va with
    | none => startImage t va false
    | some e =>
      match imageError vb with
      | none => startImage (failCopyA t e) vb true
      | some _ => enterRecovery (setBoot (failCopyA t e) fun b => { b with flags := b.flags ||| 2 })

/-- At its step the boot ROM reads the two copies and chooses (R129, R132). -/
theorem exec_bootRomRun_of_choice {s r : State} {a b : Option ImageView} (hlive : s.live = true)
    (hphase : s.boot.phase = .none ∨ s.boot.phase = .rom)
    (h : bootChoice (romReads s (a.getD s.boot.copyA) (b.getD s.boot.copyB)) (a.getD s.boot.copyA) (b.getD s.boot.copyB) = r) :
    exec (.bootRomRun a b) s = .next (tryPods r) :=
  congrArg (Host.Outcome.next <| tryPods ·) ((if_pos ⟨hlive, hphase⟩).trans h)

theorem bootChoice_of_recovery {t : State} (va vb : ImageView) (h : t.member.lanes = 0 ∨ t.boot.straps.bootsel = true) :
    bootChoice t va vb = enterRecovery t := if_pos h

section
variable {t : State} {va vb : ImageView} (hlanes : t.member.lanes ≠ 0) (hboot : t.boot.straps.bootsel = false)
include hlanes hboot

theorem bootChoice_of_copyA (ha : imageError va = none) : bootChoice t va vb = startImage t va false := by
  simp only [bootChoice, hlanes, hboot, ha, Bool.false_eq_true, or_self, if_false]

theorem bootChoice_of_copyB {e : BitVec 8} (ha : imageError va = some e) (hb : imageError vb = none) :
    bootChoice t va vb = startImage (failCopyA t e) vb true := by
  simp only [bootChoice, hlanes, hboot, ha, hb, Bool.false_eq_true, or_self, if_false]

theorem bootChoice_of_neither {e e' : BitVec 8} (ha : imageError va = some e) (hb : imageError vb = some e') :
    bootChoice t va vb = enterRecovery (setBoot (failCopyA t e) fun b => { b with flags := b.flags ||| 2 }) := by
  simp only [bootChoice, hlanes, hboot, ha, hb, Bool.false_eq_true, or_self, if_false]

end

/-! ### The pull-up -/

/-- The pull-up is enabled where its time has come and the A9 may attach (R54, R129, R150). -/
theorem exec_usbPullupEnable_of_due {s : State} (hdue : s.pullupDue = true) (hmay : s.mayAttach = true) :
    exec .usbPullupEnable s = .next { s with usb := { s.usb with pullup := true, hsOnly := bitB (s.rd .usbCtrl) 0 } } :=
  congrArg Host.Outcome.next ((if_pos hdue).trans (if_pos hmay))

theorem exec_usbPullupEnable_of_not_due {s : State} (h : s.pullupDue = false ∨ s.mayAttach = false) :
    exec .usbPullupEnable s = .next s := by
  refine congrArg Host.Outcome.next ?_
  rcases h with h | h
  · exact if_neg (h ▸ Bool.false_ne_true)
  · rw [attach, h, if_neg Bool.false_ne_true, ite_self]

/-- Settles O33: each row is its equation, under the guard that the row checks; BOOT_ROM_RUN by the first image that passes.  The order of
an image's checks, the pull-up row without effect where it is not due, the ROM step that its own row begins and the quiet period anew at
REC_BOOT are the model's choices (logs 66, 11, 38 and 68). -/
theorem startupCompletes : Obligations.StartupCompletes := by
  unfold Obligations.StartupCompletes
  intro s hlive
  refine ⟨fun a b hphase => ?rom, fun a b hphase => congrArg Host.Outcome.next (if_pos ⟨hlive, hphase⟩),
    congrArg Host.Outcome.next (if_pos hlive), fun reads hphase hpods => ?discovery, fun hphase hpods => ?ready,
    ⟨exec_usbPullupEnable_of_due, exec_usbPullupEnable_of_not_due⟩, ⟨rfl, rfl⟩, fun hpull hphase => ?recovery⟩
  case rom =>
    have hexec {r : State} := exec_bootRomRun_of_choice (r := r) (a := a) (b := b) hlive hphase
    exact ⟨fun h => hexec (bootChoice_of_recovery _ _ h), fun hlanes hboot =>
      ⟨fun ha => hexec (bootChoice_of_copyA hlanes hboot ha), fun e ha =>
        ⟨fun hb => hexec (bootChoice_of_copyB hlanes hboot ha hb), fun e' hb => hexec (bootChoice_of_neither hlanes hboot ha hb)⟩⟩⟩
  case discovery => exact congrArg Host.Outcome.next (if_pos ⟨hlive, hphase, by rw [hpods]; rfl⟩)
  case ready => exact congrArg Host.Outcome.next (if_pos ⟨hlive, hphase, hpods⟩)
  case recovery =>
    have hhost := hostPresent_of_live hlive hpull
    refine ⟨fun off data hoff hlen => ?write, ?boot, ?status⟩
    case write => exact congrArg Host.Outcome.next ((if_pos hhost).trans (if_pos ⟨hlive, hphase, hoff, hlen⟩))
    case boot => exact congrArg Host.Outcome.next ((if_pos hhost).trans (if_pos ⟨hlive, hphase⟩))
    case status => exact congrArg Host.Outcome.next ((if_pos hhost).trans (if_pos ⟨hlive, hphase⟩))

end Sys2Proof.Machine
end

section
/-! PROOFS of the family 05_register_behaviour: the accesses of the register window, the assignment of benches, pods and plies, the
two-wire commands, the Referee's events, and the canonical form of the arrays. -/

namespace Sys2Proof.Machine

/-! ### The canonical form of the arrays -/

/-- Settles O42: no command and no idle tick takes an array out of canonical form.  That form is the model's own representation of the
arrays that `Canonical` names. -/
theorem stepKeepsCanonical : Obligations.StepKeepsCanonical := by
  unfold Obligations.StepKeepsCanonical
  intro s t hs h
  obtain ⟨-, hcan, -⟩ := step_keeps s t h
  exact hcan hs

/-! ### Accesses of the register window -/

/-- A path that can make an access reads the register and keeps the word and whether the read was a bus error (R195); Survo firmware
leaves a CMD queue alone while it holds a response of its stream (R280). -/
theorem accessRead_of_pathLive {s : State} {p : Path} (h : s.pathLive p = true) (a : Nat) :
    accessRead s p a =
      let e := busRead s p a
      if s.leavesQueue p a then s else e.2.2.setPath p { e.2.2.path p with data := [e.1], error := decide (e.2.1 ≠ 0) } := by
  cases hleft : s.leavesQueue p a <;> simp [accessRead, h, hleft]

/-- An access of the AON domain is a write where it has data (R191). -/
theorem exec_crossDomainAccess_write {s : State} {p : Path} {a : BitVec 20} (h : isAon a.toNat = true) (d : Word) :
    exec (.crossDomainAccess p a (some d)) s = .next (accessWrite s p a.toNat d) := by
  show execCrossDomainAccess p a (some d) s = _
  unfold execCrossDomainAccess
  rw [h]

/-- An access of the AON domain is a read where it has no data (R191). -/
theorem exec_crossDomainAccess_read {s : State} {p : Path} {a : BitVec 20} (h : isAon a.toNat = true) :
    exec (.crossDomainAccess p a none) s = .next (accessRead s p a.toNat) := by
  show execCrossDomainAccess p a none s = _
  unfold execCrossDomainAccess
  rw [h]

/-- Settles O36: each row is one access of the window, and a live path makes it.  That Survo firmware leaves a CMD queue alone while it
holds a response of its stream, the shadows of 64-bit reads, and the free low half of a push that holds none, are the model's choices
(logs 69 and 39). -/
theorem registerAccessesComplete : Obligations.RegisterAccessesComplete := by
  unfold Obligations.RegisterAccessesComplete
  intro s p hlive wrote was
  have write (a : Nat) (d : Word) : Host.Outcome.next (accessWrite s p a d) = (.next (wrote a d) : Host.Outcome State Fault Refusal) :=
    congrArg Host.Outcome.next (accessWrite_of_pathLive hlive a d)
  have read (a : Nat) : Host.Outcome.next (accessRead s p a) = (.next (was a) : Host.Outcome State Fault Refusal) :=
    congrArg Host.Outcome.next (accessRead_of_pathLive hlive a)
  refine ⟨fun a d => ?views, fun a haon => ?aon, fun q d => ?queues, fun n d => write _ d⟩
  case views => exact ⟨write _ d, write _ d, write _ d, write _ d, read _, write _ d, write _ d⟩
  case aon =>
    exact ⟨fun d => (exec_crossDomainAccess_write haon d).trans (write _ d), (exec_crossDomainAccess_read haon).trans (read _)⟩
  case queues => exact ⟨write _ d, write _ d, write _ d, read _, write _ _⟩

/-! ### The assignment of benches, pods and plies -/

/-- BENCH_CONTROL with another ACTION than that of ENABLED starts a reset, or with 0b10 a close, of its target (R334). -/
theorem benchControl_run_of_reset (s : State) {c : Cmd} (r : Bool) (h : pf c 2 5 4 ≠ 0) :
    (meanBenchControl c).run s r = startReset s (pf c 2 3 0) (pf c 2 5 4 == 2) (some (0x0110, c)) := if_neg h

/-- The first step of a POD_ASSIGN: no bench keeps a pod that its new value lacks (R338). -/
def removePods (s : State) (c : Cmd) : State := s.each s.benchList fun s n => writePods s n (s.podsOf n &&& podByte c n)

/-- The second step of a POD_ASSIGN: every bench gets its new value (R338). -/
def addPods (s : State) (c : Cmd) : State := s.each s.benchList fun s n => writePods s n (podByte c n)

theorem writePods_assign (s : State) (n pods : Nat) : (writePods s n pods).fw.assign = s.fw.assign :=
  ((SettledFrom.refl (s.wrFld .bnOwn n 0 7 0 pods)).settleBench n).assign

@[simp] theorem removePods_assign (s : State) (c : Cmd) : (removePods s c).fw.assign = s.fw.assign :=
  State.each_read (·.fw.assign) (fun t n => writePods_assign t n _) s

@[simp] theorem addPods_assign (s : State) (c : Cmd) : (addPods s c).fw.assign = s.fw.assign :=
  State.each_read (·.fw.assign) (fun t n => writePods_assign t n _) s

section
variable {s : State} {c : Cmd} (ha : s.fw.assign = some c)
include ha

/-- A POD_ASSIGN that waits for a removal to take effect has made its first step only. -/
theorem pumpAssign_of_removing
    (h : ∃ n ∈ (removePods s c).benchList, (removePods s c).podsOf n &&& podByte c n ≠ (removePods s c).podsOf n) :
    pumpAssign s = removePods s c := by
  unfold pumpAssign
  rw [ha]
  exact if_pos (by simpa [removePods] using h)

section
variable (hremoved : ∀ n ∈ (removePods s c).benchList, (removePods s c).podsOf n &&& podByte c n = (removePods s c).podsOf n)
include hremoved

/-- Once every removal is in effect the second step is made, and it is answered once its values are in effect too. -/
theorem pumpAssign_of_removed :
    pumpAssign s =
      let v := addPods (removePods s c) c
      if v.benchList.all fun n => decide (v.podsOf n = podByte c n) then
        respond { v with fw := { v.fw with assign := none } } 0x0111 c .done 0 [] v.isReplaying
      else v := by
  unfold pumpAssign
  rw [ha]
  exact if_neg (by simpa [removePods] using hremoved)

theorem pumpAssign_of_added
    (h : ∀ n ∈ (addPods (removePods s c) c).benchList, (addPods (removePods s c) c).podsOf n = podByte c n) :
    pumpAssign s =
      let v := addPods (removePods s c) c
      respond { v with fw := { v.fw with assign := none } } 0x0111 c .done 0 [] v.isReplaying :=
  (pumpAssign_of_removed ha hremoved).trans (if_pos (by simpa using h))

theorem pumpAssign_of_adding
    (h : ∃ n ∈ (addPods (removePods s c) c).benchList, (addPods (removePods s c) c).podsOf n ≠ podByte c n) :
    pumpAssign s = addPods (removePods s c) c :=
  (pumpAssign_of_removed ha hremoved).trans (if_neg (by simpa using h))

end

end

/-- Settles O2: the rows are their mailbox commands, taken and run; BENCH_CONTROL by ACTION, POD_ASSIGN by the step that waits. -/
theorem benchAssignmentCompletes : Obligations.BenchAssignmentCompletes := by
  unfold Obligations.BenchAssignmentCompletes
  refine ⟨fun s c h => ⟨fun hact => ?enable, fun hact => ?reset, fun hact => ?close⟩, fun s c => ⟨fun h => ?podAssign, ?plyMembership⟩⟩
  case enable =>
    rw [exec_of_checksPass rfl h]
    exact congrArg Host.Outcome.next (if_pos hact)
  case reset =>
    rw [exec_of_checksPass rfl h, benchControl_run_of_reset _ _ (by rw [hact]; decide), hact]
    rfl
  case close =>
    rw [exec_of_checksPass rfl h, benchControl_run_of_reset _ _ (by rw [hact]; decide), hact]
    rfl
  case podAssign =>
    intro t₀ t u v
    have ht : t.fw.assign = some c := rfl
    have hexec : exec (.podAssign c) s = .next (pumpAssign t) := exec_of_checksPass rfl h
    have hu : u.fw.assign = some c := (removePods_assign t c).trans ht
    have hv : v.fw.assign = some c := (addPods_assign u c).trans hu
    refine ⟨⟨hu, hv⟩, fun hremoving => ?_, fun hremoved => ⟨fun hadded => ?_, fun hadding => ?_⟩⟩
    · exact hexec.trans (congrArg Host.Outcome.next (pumpAssign_of_removing ht hremoving))
    · exact hexec.trans (congrArg Host.Outcome.next (pumpAssign_of_added ht hremoved hadded))
    · exact hexec.trans (congrArg Host.Outcome.next (pumpAssign_of_adding ht hremoved hadding))
  case plyMembership => exact exec_of_checksPass rfl

/-! ### The two-wire commands -/

/-- TW_CONFIG makes its four values pending; they apply at once on an idle bus (R185, R715). -/
def stageTw (s : State) (c : Cmd) : State :=
  let t := (((s.wr .twCfg 0 0 (pw c 2)).wr .twStretchMax 0 0 (pw c 3)).wr .twRetryLimit 0 0 (pw c 4)).wr .twBackoff 0 0 (pw c 5)
  if t.tw.busy then t else t.each twRegs fun s a => applyReg s a (gBitsAt a)

/-- TW_CONFIG ends PARKED, the counter of retries at 0, and a back-off (R709, R715). -/
def resumeAlerts (s : State) : State :=
  match s.tw.cstate with
  | .parked => { setCState s .idle with tw := { (setCState s .idle).tw with retries := 0 } }
  | .backoff => releaseXfers (endBackoff s)
  | _ => s

theorem twConfig_run (s : State) (c : Cmd) (r : Bool) :
    (meanTwConfig c).run s r = respond (twKick (resumeAlerts (stageTw s c))) 0x0901 c .done 0 [] r := rfl

theorem resumeAlerts_eq (s : State) :
    resumeAlerts s =
      if s.tw.cstate = .parked then { setCState s .idle with tw := { (setCState s .idle).tw with retries := 0 } }
      else if s.tw.cstate = .backoff then releaseXfers (endBackoff s) else s := by
  unfold resumeAlerts
  cases s.tw.cstate <;> rfl

/-- Settles O22: the rows are their mailbox commands, taken and run; TW_CONFIG by the state of the alert machine, TW_XFER
by whether the bus is free (R702). -/
theorem twoWireCommandsComplete : Obligations.TwoWireCommandsComplete := by
  unfold Obligations.TwoWireCommandsComplete
  intro s c
  refine ⟨fun h => ?twConfig, ?twAlertRead, fun outs h => ?twXfer, ?twQuery⟩
  case twConfig =>
    rw [exec_of_checksPass rfl h, twConfig_run, resumeAlerts_eq]
    rfl
  case twAlertRead => exact exec_of_checksPass rfl
  case twXfer =>
    rw [exec_of_checksPass rfl h]
    simp only [meanTwXfer, infoTwXfer, Bool.not_eq_true']
  case twQuery => exact exec_of_checksPass rfl

/-! ### The Referee's events -/

/-- The first waiting test of a type starts once it is ready (R754). -/
theorem startTest_of_ready {s : State} {type : Nat} {t : RefTest} (hlive : s.live = true)
    (hfind : (s.ref.waiting.find? fun t => decide (resType t.res = type)) = some t) (hready : s.testReady t = true) :
    startTest s type = startEffect { s with ref := { s.ref with
      waiting := s.ref.waiting.eraseP fun (x : RefTest) => decide (resType x.res = type),
      running := s.ref.running ++ [{ t with started := s.power.baseTick }] } } t.res := by
  unfold startTest
  rw [hfind]
  exact if_pos (by rw [hlive, hready]; rfl)

/-- The state in which the verdict on test `t` is given: the boundary that its tick brings has been reached, and the test has ended
(R402, R753, R782). -/
def testOver (s : State) (t : RefTest) (type : Nat) : State :=
  let u := dueFirst s t.res
  endEffect { u with ref := { u.ref with running := u.ref.running.filter fun x => decide (resType x.res ≠ type) } } t

section
variable {s : State} {type : Nat} {pass : Bool} {t : RefTest}
  (hfind : (s.ref.running.find? fun t => decide (resType t.res = type)) = some t)
include hfind

/-- The verdict of a re-test ends or keeps the probation of its resource (R771, R779). -/
theorem endTest_of_retest (h : t.retest = true) :
    endTest s type pass = answerTest (retestVerdict (testOver s t type) t pass) t pass := by
  unfold endTest
  rw [hfind]
  exact congrArg (answerTest · t pass) (if_pos h)

/-- The verdict of a test is booked, takes its effect and is told to the benches that wait for it (R753, R755, R756, R759). -/
theorem endTest_of_test (h : t.retest = false) :
    endTest s type pass =
      let w := takeSelfchecks (testOver s t type) t.res
      let v := bookVerdict w.2 t pass
      answerTest (if v.1 then postSelfcheck (retireEffect v.2 t) t.res .retire w.1
        else postSelfcheck (letEffect v.2 t) t.res .let_ w.1) t pass := by
  unfold endTest
  rw [hfind]
  exact congrArg (answerTest · t pass) (if_neg (by rw [h]; decide))

end

/-- The job of a hung engine waits for the verdict on it (R513, R751). -/
theorem hangEngine_of_job {s : State} {e : Nat} {j : Job} (h : s.jobOn e = some j) :
    hangEngine s e =
      let t := s.setJob { j with await := some (resEngine e) }
      raiseFault (if e = 8 then preempt (iuDiscard t) 8 else t) (resEngine e) 0x0403 := by
  unfold hangEngine
  rw [h]

/-- A resource that waits for its boundary rejoins, a channel or bank only while its owner takes no capture (R751, R771). -/
theorem reachBoundary_of_no_capture {s : State} {res : Word} (hwaits : s.ref.rejoining.contains res = true)
    (hfree : resType res = 1 ∨ resType res = 3 → (s.resOwner res).all (fun n => !s.capturing n) = true) :
    reachBoundary s res = rejoinNow s res := by
  have howner {n : Nat} (hn : s.resOwner res = some n) (htype : resType res = 1 ∨ resType res = 3) : ¬ s.capturing n = true := by
    simpa [hn] using hfree htype
  unfold reachBoundary
  rw [if_pos hwaits]
  split
  next htype hn => exact if_neg (howner hn (.inl htype))
  next htype hn => exact if_neg (howner hn (.inr htype))
  next => rfl

/-- Settles O27: each row is its equation, under the guard that the row checks; the verdict by whether it ends a re-test.  That a channel
or bank whose owner takes no capture rejoins at once is the model's choice (log 50). -/
theorem refereeEventsComplete : Obligations.RefereeEventsComplete := by
  unfold Obligations.RefereeEventsComplete
  intro s hlive
  refine ⟨fun k t hfind hready => ?start, fun k pass t hfind => ?verdict, fun b hexists => ?ecc, fun e j hruns hjob => ?hang,
    fun res hwaits hfree => ?rejoin, fun upsets => congrArg Host.Outcome.next (if_pos hlive)⟩
  case start => exact congrArg Host.Outcome.next (startTest_of_ready hlive hfind hready)
  case verdict =>
    have hexec : exec (.refereeVerdict k pass) s = .next (endTest s (k.val + 1) pass) := congrArg Host.Outcome.next (if_pos hlive)
    exact ⟨fun h => hexec.trans (congrArg Host.Outcome.next (endTest_of_retest hfind h)),
      fun h => hexec.trans (congrArg Host.Outcome.next (endTest_of_test hfind h))⟩
  case ecc =>
    have hruns : (s.live && s.resExists (resSram b)) = true := by rw [hlive, hexists]; rfl
    exact ⟨congrArg Host.Outcome.next ((if_pos hruns).trans (if_neg Bool.false_ne_true)),
      congrArg Host.Outcome.next ((if_pos hruns).trans (if_pos rfl))⟩
  case hang => exact congrArg Host.Outcome.next ((if_pos hruns).trans (hangEngine_of_job hjob))
  case rejoin => exact congrArg Host.Outcome.next ((if_pos hlive).trans (reachBoundary_of_no_capture hwaits hfree))

end Sys2Proof.Machine
end

section
/-! PROOFS of the family 06_queues: the order of the words of a hardware queue, reads of an empty one, and the events of the queues and
of the command streams. -/

namespace Sys2Proof.Machine

/-! ### Words that fall -/

/-- Where a word of the stages `l` stands one HCLK cycle later (R220). -/
def fallStep (l : List (Nat × QWord)) (x : Nat × QWord) : Nat × QWord :=
  if x.1 = 0 ∨ l.any (fun y => y.1 + 1 == x.1) then x else (x.1 - 1, x.2)

theorem fallOnce_eq_map (l : List (Nat × QWord)) : fallOnce l = l.map (fallStep l) := rfl

theorem fallStep_snd (l : List (Nat × QWord)) (x : Nat × QWord) : (fallStep l x).2 = x.2 := by
  unfold fallStep
  split <;> rfl

theorem fallStep_le (l : List (Nat × QWord)) (x : Nat × QWord) : (fallStep l x).1 ≤ x.1 := by
  unfold fallStep
  split
  · exact Nat.le_refl _
  · exact Nat.sub_le _ _

/-- A word falls only into an empty stage, so it stays above every word that stood below it. -/
theorem lt_fallStep {l : List (Nat × QWord)} {a b : Nat × QWord} (ha : a ∈ l) (h : a.1 < b.1) : a.1 < (fallStep l b).1 := by
  unfold fallStep
  split
  case isTrue => exact h
  case isFalse hfalls =>
    have hbelow : a.1 + 1 ≠ b.1 := fun e => hfalls (.inr (List.any_eq_true.2 ⟨a, ha, beq_iff_eq.2 e⟩))
    show a.1 < b.1 - 1
    omega

/-- The words stand in stages 0 to 15, the oldest lowest and no two in one stage. -/
def InOrder (l : List (Nat × QWord)) : Prop := (l.Pairwise fun a b => a.1 < b.1) ∧ ∀ a ∈ l, a.1 < 16

theorem fallOnce_words (l : List (Nat × QWord)) : (fallOnce l).map Prod.snd = l.map Prod.snd := by
  rw [fallOnce_eq_map, List.map_map]
  exact List.map_congr_left fun x _ => fallStep_snd l x

theorem fallOnce_inOrder {l : List (Nat × QWord)} (h : InOrder l) : InOrder (fallOnce l) := by
  obtain ⟨hsorted, hlow⟩ := h
  rw [fallOnce_eq_map]
  constructor
  · rw [List.pairwise_map]
    exact hsorted.imp_of_mem fun {a _} ha _ hab => Nat.lt_of_le_of_lt (fallStep_le l a) (lt_fallStep ha hab)
  · intro a ha
    obtain ⟨x, hx, rfl⟩ := List.mem_map.1 ha
    exact Nat.lt_of_le_of_lt (fallStep_le l x) (hlow x hx)

section
variable {P : List (Nat × QWord) → Prop} (hP : ∀ l, P l → P (fallOnce l))
include hP

/-- What one HCLK cycle keeps, some cycles keep. -/
theorem fallFor_keeps (k : Nat) : ∀ l, P l → P (fallFor k l) := by
  induction k with
  | zero => exact fun _ h => h
  | succ k ih => exact fun l h => ih _ (hP l h)

/-- What one HCLK cycle keeps, the cycles keep that pass until stage 15 is empty. -/
theorem freeTop_keeps (fuel : Nat) : ∀ l, P l → P (freeTop fuel l) := by
  induction fuel with
  | zero => exact fun _ h => h
  | succ fuel ih =>
    intro l h
    unfold freeTop
    split
    · exact ih _ (hP l h)
    · exact h

end

theorem fallFor_words (k : Nat) (l : List (Nat × QWord)) : (fallFor k l).map Prod.snd = l.map Prod.snd :=
  fallFor_keeps (P := fun x => x.map Prod.snd = l.map Prod.snd) (fun x h => (fallOnce_words x).trans h) k l rfl

theorem freeTop_words (fuel : Nat) (l : List (Nat × QWord)) : (freeTop fuel l).map Prod.snd = l.map Prod.snd :=
  freeTop_keeps (P := fun x => x.map Prod.snd = l.map Prod.snd) (fun x h => (fallOnce_words x).trans h) fuel l rfl

theorem fallFor_inOrder {l : List (Nat × QWord)} (h : InOrder l) (k : Nat) : InOrder (fallFor k l) :=
  fallFor_keeps (P := InOrder) (fun _ => fallOnce_inOrder) k l h

theorem freeTop_inOrder {l : List (Nat × QWord)} (h : InOrder l) (fuel : Nat) : InOrder (freeTop fuel l) :=
  freeTop_keeps (P := InOrder) (fun _ => fallOnce_inOrder) fuel l h

/-- Behind words in order a word enters stage 15 where that is empty. -/
theorem InOrder.concat {l : List (Nat × QWord)} (h : InOrder l) (hfree : topTaken l = false) (w : QWord) : InOrder (l ++ [(15, w)]) := by
  obtain ⟨hsorted, hlow⟩ := h
  have hbelow : ∀ a ∈ l, a.1 < 15 := by
    intro a ha
    have hne : a.1 ≠ 15 := by simpa using List.any_eq_false.1 hfree a ha
    have hlt := hlow a ha
    omega
  constructor
  · simpa [List.pairwise_append, hsorted] using fun a x hx => hbelow (a, x) hx
  · simpa [or_imp, forall_and] using fun a x hx => hlow (a, x) hx

theorem stacked_words (ws : List QWord) : (stacked ws).map Prod.snd = ws := by
  rw [stacked, List.mapIdx_eq_zipIdx_map, List.map_map]
  exact List.zipIdx_map_fst 0 ws

/-! ### A queue that is pushed into -/

@[simp] theorem Queue.met_words (x : Queue) (p : Producer) : (x.met p).words = x.words := by
  unfold Queue.met
  split
  · exact freeTop_words 15 x.stages
  · rfl

@[simp] theorem Queue.met_retired (x : Queue) (p : Producer) : (x.met p).retired = x.retired := by
  unfold Queue.met
  split <;> rfl

theorem Queue.met_inOrder {x : Queue} (h : InOrder x.stages) (p : Producer) : InOrder (x.met p).stages := by
  unfold Queue.met
  split
  · exact freeTop_inOrder h 15
  · exact h

theorem Queue.place_words (x : Queue) (n : Nat) (p : Producer) (w : QWord) : (x.place n p w).words = x.words ++ [w] := by
  simp [Queue.place, Queue.words]

theorem Queue.place_stages {n : Nat} (hn : n < 66) (x : Queue) (p : Producer) (w : QWord) :
    (x.place n p w).stages = x.stages ++ [(15, w)] := by
  simp [Queue.place, hn]

theorem Queue.topTaken_of_canPush {x : Queue} {p : Producer} (h : x.canPush p = true) : topTaken x.stages = false := by
  simp only [Queue.canPush, Queue.isFull, Bool.and_eq_true, Bool.not_eq_true'] at h
  obtain ⟨⟨⟨hfull, -⟩, -⟩, -⟩ := h
  exact hfull

@[simp] theorem queue_noteIn (s : State) (q : Nat) (t : Tag) (k : Nat) : (noteIn s q t).queue k = s.queue k := by
  unfold noteIn
  repeat' split
  all_goals rfl

@[simp] theorem queue_noteOut (s : State) (q : Nat) (t : Tag) (k : Nat) : (noteOut s q t).queue k = s.queue k := by
  unfold noteOut
  repeat' split
  all_goals rfl

/-- A push that fits enters the queue (R220, R242). -/
theorem pushWord_of_fits {s : State} {q : Nat} {p : Producer} (d : DWord) (t : Tag) (hretired : (s.queue q).retired = false)
    (hcan : ((s.queue q).met p).canPush p = true) :
    pushWord s q p d t = noteIn (s.setQueue q (((s.queue q).met p).place q p (mkQWord d t))) q t := by
  simp [pushWord, hretired, hcan]

/-! ### A queue that is read -/

/-- A queue from which word `out` has been delivered (R221, R236, R237). -/
def Queue.delivered (x : Queue) (q : Nat) (out : QWord) : Queue :=
  { x with stages := if q < 66 then x.stages.drop 1 else stacked (x.words.drop 1), held := out, underrun := false }

theorem Queue.delivered_words (x : Queue) (q : Nat) (out : QWord) : (x.delivered q out).words = x.words.drop 1 := by
  by_cases hq : q < 66
  · simp [Queue.delivered, Queue.words, hq]
  · simp only [Queue.delivered, if_neg hq]
    exact stacked_words _

theorem Queue.bottom_of_stages {x : Queue} {w : QWord} {rest : List (Nat × QWord)} (h : x.stages = (0, w) :: rest) : x.bottom = some w := by
  simp [Queue.bottom, h]

@[simp] theorem queue_bumpQCnt (s : State) (q hi lo k : Nat) : (s.bumpQCnt q hi lo).queue k = s.queue k := by
  unfold State.bumpQCnt
  repeat' split
  all_goals rfl

@[simp] theorem diverge_queues (s : State) (kind tick source word : Nat) : (diverge s kind tick source word).queues = s.queues := by
  unfold diverge
  split <;> rfl

/-- An error on a resource waits with the Referee and leaves the queues alone. -/
@[simp] theorem raiseFault_queues (s : State) (res : Word) (code : Nat) : (raiseFault s res code).queues = s.queues := by
  simp only [raiseFault, apply_ite State.queues, diverge_queues, ite_self]

@[simp] theorem queue_raiseFault (s : State) (res : Word) (code k : Nat) : (raiseFault s res code).queue k = s.queue k :=
  congrArg (Store.get Queue.init · k) (raiseFault_queues s res code)

section
variable {s : State} {q : Nat} (hreset : s.queueResetting q = false) (hretired : (s.queue q).retired = false)
  (htesting : (s.queue q).testing = false)
include hreset hretired htesting

theorem deliver_of_empty (hbottom : (s.queue q).bottom = none) : deliver s q = emptyRead s q := by
  simp [deliver, hreset, hretired, htesting, hbottom]

/-- A word that has kept its parity is delivered as it is (R227). -/
theorem deliver_of_goodParity {w : QWord} (hbottom : (s.queue q).bottom = some w) (hpar : wordParity w.data w.tag = w.par) :
    deliver s q = (w, noteOut (s.setQueue q ((s.queue q).delivered q w)) q w.tag) := by
  simp [deliver, hreset, hretired, htesting, hbottom, hpar, Queue.delivered]

/-- A word with bad parity is delivered as POISON and reported (R228). -/
theorem deliver_of_badParity {w : QWord} (hbottom : (s.queue q).bottom = some w) (hpar : wordParity w.data w.tag ≠ w.par) :
    deliver s q = ({ w with tag := .poison },
      raiseFault ((noteOut (s.setQueue q ((s.queue q).delivered q { w with tag := .poison })) q w.tag).bumpQCnt q 31 24)
        (resQueue q) 0x0201) := by
  simp [deliver, hreset, hretired, htesting, hbottom, hpar, Queue.delivered]

/-- HOLD mode repeats what the queue has delivered last (R236). -/
theorem deliver_held {w : QWord} (hbottom : (s.queue q).bottom = some w) : ((deliver s q).2.queue q).held = (deliver s q).1 := by
  by_cases hpar : wordParity w.data w.tag = w.par
  · rw [deliver_of_goodParity hreset hretired htesting hbottom hpar, queue_noteOut, State.queue_setQueue]
    rfl
  · rw [deliver_of_badParity hreset hretired htesting hbottom hpar, queue_raiseFault, queue_bumpQCnt, queue_noteOut, State.queue_setQueue]
    rfl

end

/-- Settles O54: cycles, pushes and reads treat the stages as a list of which words leave in front and enter behind. -/
theorem queuesAreFifo : Obligations.QueuesAreFifo := by
  unfold Obligations.QueuesAreFifo
  intro inOrder s q
  refine ⟨fun p d g hretired hcan => ?push, fun cycles => ?fall, fun w rest hstages hreset hretired htesting hpar => ?read⟩
  case push =>
    rw [pushWord_of_fits d g hretired hcan]
    simp only [queue_noteIn, State.queue_setQueue]
    refine ⟨?_, fun hq => ?_, fun hq hin => ?_, fun k hk => State.queue_setQueue_ne s q k _ hk⟩
    · rw [Queue.place_words, Queue.met_words]
    · rw [Queue.place_stages hq, List.getLast?_concat]
    · have hplaced := (Queue.met_inOrder hin p).concat (Queue.topTaken_of_canPush hcan) (mkQWord d g)
      rwa [← Queue.place_stages hq _ p] at hplaced
  case fall =>
    unfold fallQueue
    simp only [State.queue_setQueue]
    exact ⟨fallFor_words _ _, fun hin => fallFor_inOrder hin _, fun k hk => State.queue_setQueue_ne s q k _ hk⟩
  case read =>
    rw [deliver_of_goodParity hreset hretired htesting (Queue.bottom_of_stages hstages) hpar]
    simp only [queue_noteOut, State.queue_setQueue]
    refine ⟨trivial, ?_, fun hq => ?_, fun k hk => State.queue_setQueue_ne s q k _ hk⟩
    · rw [Queue.delivered_words, Queue.words, hstages]
      rfl
    · simp [Queue.delivered, hq, hstages]

/-! ### Counters in a field of a register -/

theorem W_getLsbD (n i : Nat) (hi : i < 32) : (W n).getLsbD i = n.testBit i := by
  rw [W, BitVec.getLsbD_ofNat, decide_eq_true hi, Bool.true_and]

/-- Within the field a write puts the value's own bits. -/
theorem setFld_getLsbD_of_mem (w : Word) {hi lo i : Nat} (v : Nat) (hhi : hi < 32) (hi' : lo + i ≤ hi) :
    (setFld w hi lo v).getLsbD (lo + i) = v.testBit i := by
  have hbit : lo + i < 32 := by omega
  have hin : i < hi + 1 - lo := by omega
  rw [setFld, maskW, BitVec.getLsbD_or, BitVec.getLsbD_and, BitVec.getLsbD_and, BitVec.getLsbD_not, W_getLsbD _ _ hbit, W_getLsbD _ _ hbit]
  simp [Nat.testBit_mul_two_pow, hin]

theorem fld_testBit (w : Word) (hi lo i : Nat) : (fld w hi lo).testBit i = (decide (i < hi + 1 - lo) && w.getLsbD (lo + i)) := by
  rw [fld, Nat.testBit_mod_two_pow, Nat.testBit_div_two_pow, Nat.add_comm i lo]
  rfl

/-- A field reads back as it was written, as far as it is wide. -/
theorem fld_setFld (w : Word) {hi lo : Nat} (v : Nat) (hhi : hi < 32) : fld (setFld w hi lo v) hi lo = v % 2 ^ (hi + 1 - lo) := by
  apply Nat.eq_of_testBit_eq
  intro i
  rw [fld_testBit, Nat.testBit_mod_two_pow]
  by_cases hin : i < hi + 1 - lo
  · rw [setFld_getLsbD_of_mem w v hhi (by omega)]
  · simp [hin]

/-- A saturating counter counts on and stops at its maximum. -/
theorem fld_rd_bumpSat (s : State) (n : RegName) (i j : Nat) {hi lo : Nat} (k : Nat) (hhi : hi < 32) :
    fld ((s.bumpSat n i j hi lo k).rd n i j) hi lo = min (2 ^ (hi + 1 - lo) - 1) (fld (s.rd n i j) hi lo + k) := by
  have hmax : satAdd (2 ^ (hi + 1 - lo) - 1) (fld (s.rd n i j) hi lo) k < 2 ^ (hi + 1 - lo) :=
    Nat.lt_of_le_of_lt (Nat.min_le_left _ _) (Nat.sub_lt (Nat.two_pow_pos _) (by decide))
  rw [State.bumpSat, State.wrFld, State.wr, State.rd, State.regWord_setRegWord, fld_setFld _ _ hhi, Nat.mod_eq_of_lt hmax]
  rfl

/-! ### Reads of an empty queue -/

/-- UNDERRUN of Q_CNT of a queue or an admin chain (R236). -/
def State.underruns (s : State) (q : Nat) : Nat := if q < 64 then fld (s.rd .qCnt q) 23 12 else fld (s.rd .glbAqCnt (q - 64)) 23 12

theorem underruns_bumpQCnt (s : State) {q : Nat} (hq : q < 66) : (s.bumpQCnt q 23 12).underruns q = min 0xFFF (s.underruns q + 1) := by
  by_cases hbench : q < 64
  · simp only [State.bumpQCnt, State.underruns, if_pos hbench]
    exact fld_rd_bumpSat s .qCnt q 0 1 (by decide)
  · simp only [State.bumpQCnt, State.underruns, if_neg hbench, if_pos hq]
    exact fld_rd_bumpSat s .glbAqCnt (q - 64) 0 1 (by decide)

theorem emptyRead_of_idle {s : State} {q : Nat} (h : s.qHold q = false) : emptyRead s q = (QWord.idle, s) := by
  simp [emptyRead, h]

theorem emptyRead_of_hold {s : State} {q : Nat} (h : s.qHold q = true) :
    emptyRead s q = ((s.queue q).held, (s.setQueue q { s.queue q with underrun := true }).bumpQCnt q 23 12) := by
  simp [emptyRead, h]

/-- Settles O53: an empty queue reads by its mode, and every delivery sets what HOLD mode repeats. -/
theorem emptyQueueReads : Obligations.EmptyQueueReads := by
  unfold Obligations.EmptyQueueReads
  intro s q hq hreset hretired htesting
  refine ⟨fun hbottom => ?empty, fun hbottom => ?delivered⟩
  case empty =>
    rw [deliver_of_empty hreset hretired htesting hbottom]
    refine ⟨fun hidle => ?_, fun hhold => ?_⟩
    · rw [emptyRead_of_idle hidle]
      exact ⟨rfl, rfl, rfl⟩
    · rw [emptyRead_of_hold hhold]
      refine ⟨rfl, ?_, underruns_bumpQCnt _ hq⟩
      rw [queue_bumpQCnt, State.queue_setQueue]
  case delivered =>
    obtain ⟨w, hw⟩ := Option.ne_none_iff_exists'.1 hbottom
    have hheld := deliver_held hreset hretired htesting hw
    exact ⟨congrArg QWord.data hheld, congrArg QWord.tag hheld⟩

/-! ### The events of the queues -/

/-- The words of the USB admin OUT buffer join their stream where Survo firmware runs and holds no response of it (R250, R280). -/
theorem collectAdmin_of_free {s : State} (hruns : s.survoRuns = true) (hheld : (s.stream .adminUsb).held = []) :
    collectAdmin s =
      let u := s.setQueue 66 { s.queue 66 with stages := [] }
      u.setStream .adminUsb ((u.stream .adminUsb).collect (s.queue 66).words) := if_pos ⟨hruns, hheld⟩

theorem collectAdmin_of_held {s : State} (hheld : (s.stream .adminUsb).held ≠ []) : collectAdmin s = s :=
  if_neg fun h => hheld h.2

section
variable {s : State} (hlive : s.live = true) {q : Fin 68} (fall : QueueFall)
include hlive

theorem exec_queueWordFall_of_live :
    exec (.queueWordFall q fall) s = .next (
      if q.val < 66 then fallQueue s q.val fall.cycles (fall.upset.map fun u => (u.1, u.2.val))
      else if q.val = 66 then collectAdmin s else s) := congrArg Host.Outcome.next (if_neg (by simp [hlive]))

theorem exec_queueWordFall_of_stages (hq : q.val < 66) :
    exec (.queueWordFall q fall) s = .next (fallQueue s q.val fall.cycles (fall.upset.map fun u => (u.1, u.2.val))) := by
  rw [exec_queueWordFall_of_live hlive, if_pos hq]

theorem exec_queueWordFall_of_adminOut (hq : q.val = 66) : exec (.queueWordFall q fall) s = .next (collectAdmin s) := by
  rw [exec_queueWordFall_of_live hlive, if_neg (by omega), if_pos hq]

theorem exec_queueWordFall_of_adminIn (hq : q.val = 67) : exec (.queueWordFall q fall) s = .next s := by
  rw [exec_queueWordFall_of_live hlive, if_neg (by omega), if_neg (by omega)]

end

/-- Settles O37: each row is its equation while the fast domain runs; a fall by what the queue is.  The USB admin buffers as queues 66 and
67, whose words join the stream as they fall, the wait for a held response, and the single stage per cycle are the model's choices (logs
37, 69 and 75). -/
theorem queueEventsComplete : Obligations.QueueEventsComplete := by
  unfold Obligations.QueueEventsComplete
  intro s hlive
  refine ⟨fun q => congrArg Host.Outcome.next (if_pos hlive), fun q => congrArg Host.Outcome.next (if_pos hlive), fun q cycles upset =>
    ⟨exec_queueWordFall_of_stages hlive _, exec_queueWordFall_of_adminIn hlive _, fun hq hruns hheld => ?collected, fun hq hheld => ?held⟩⟩
  case collected => rw [exec_queueWordFall_of_adminOut hlive _ hq, collectAdmin_of_free hruns hheld]
  case held => rw [exec_queueWordFall_of_adminOut hlive _ hq, collectAdmin_of_held hheld]

/-! ### The events of the command streams -/

/-- The next MARK has cut short the command that begins the words collected (R242, R268). -/
def headCut (ws : List QWord) : Bool :=
  decide ((commandWords ws).length < cmdSpan ws) && decide ((commandWords ws).length < ws.length)

/-- The command that begins the words collected is all there (R265). -/
def headWhole (ws : List QWord) : Bool := decide ((commandWords ws).length = cmdSpan ws)

theorem headCut_iff (ws : List QWord) :
    headCut ws = true ↔ (commandWords ws).length < cmdSpan ws ∧ (commandWords ws).length < ws.length := by
  simp [headCut]

theorem headWhole_iff (ws : List QWord) : headWhole ws = true ↔ (commandWords ws).length = cmdSpan ws := by
  simp [headWhole]

section
variable {s : State} {st : Stream} (hfree : s.streamFree st = true)
include hfree

/-- What has arrived of a command whose next frame has not come is discarded, and answered TIMEOUT (R268). -/
theorem frameTimeout_of_waiting (hfirst : 8 ≤ (s.stream st).rx.length) (hpart : (s.stream st).rx.length < cmdSpan (s.stream st).rx)
    (hmark : ((s.stream st).rx.head?.any fun w => decide (w.tag = .mark)) = true) :
    frameTimeout s st =
      respond (dropWords s st (s.stream st).rx.length) (s.headCmd st).1 (s.headCmd st).2 .timeout 0 [] s.isReplaying :=
  if_pos ⟨hfree, hfirst, hpart, hmark⟩

variable {w : QWord} {rest : List QWord} (hrx : (s.stream st).rx = w :: rest)
include hrx

/-- Words that begin no frame go up to the next MARK (R232). -/
theorem discardPoisoned_of_not_mark (hw : w.tag ≠ .mark) :
    discardPoisoned s st = discardUnnamed s st (1 + (beforeMark rest).length) := by
  simp [discardPoisoned, hfree, hrx, hw]

variable (hw : w.tag = .mark)
include hw

/-- A frame's words stay until the command is whole or cut short; then a POISON word, or the cut, discards them (R232, R242, R268,
R308). -/
theorem discardPoisoned_of_mark :
    discardPoisoned s st =
      let mine := commandWords (s.stream st).rx
      let after := dropWords s st mine.length
      let c := s.headCmd st
      if (headCut (s.stream st).rx || headWhole (s.stream st).rx) && mine.any fun x => decide (x.tag = .poison) then
        respond after c.1 c.2 .faultLet 0x0201 [] s.isReplaying
      else if !headCut (s.stream st).rx then s
      else if mine.length < 8 then after
      else respond after c.1 c.2 .timeout 0 [] s.isReplaying := by
  have hgo : ¬ (!s.streamFree st) = true := by simp [hfree]
  unfold discardPoisoned
  rw [if_neg hgo, hrx]
  exact if_neg (not_not_intro hw)

/-- A command with a POISON word is answered FAULT_LET with the code of QUEUE_PARITY (R232, R308). -/
theorem discardPoisoned_of_poison (hends : headWhole (s.stream st).rx = true ∨ headCut (s.stream st).rx = true)
    (hpoison : ∃ x ∈ commandWords (s.stream st).rx, x.tag = .poison) :
    discardPoisoned s st =
      respond (dropWords s st (commandWords (s.stream st).rx).length) (s.headCmd st).1 (s.headCmd st).2 .faultLet 0x0201 []
        s.isReplaying := by
  rw [discardPoisoned_of_mark hfree hrx hw]
  exact if_pos (Bool.and_eq_true_iff.2 ⟨Bool.or_eq_true_iff.2 hends.symm, by simpa using hpoison⟩)

/-- A clean command cut short goes in silence within its first frame, and is answered as one whose frame has not come from then on
(R242, R268). -/
theorem discardPoisoned_of_cut (hcut : headCut (s.stream st).rx = true)
    (hclean : ∀ x ∈ commandWords (s.stream st).rx, x.tag ≠ .poison) :
    discardPoisoned s st =
      let after := dropWords s st (commandWords (s.stream st).rx).length
      if (commandWords (s.stream st).rx).length < 8 then after
      else respond after (s.headCmd st).1 (s.headCmd st).2 .timeout 0 [] s.isReplaying := by
  have hnone : ¬ ((commandWords (s.stream st).rx).any fun x => decide (x.tag = .poison)) = true := by
    simpa using hclean
  rw [discardPoisoned_of_mark hfree hrx hw]
  exact (if_neg fun h => hnone (Bool.and_eq_true_iff.1 h).2).trans (if_neg (by simp [hcut]))

end

section
variable {s : State} (hruns : s.survoRuns = true)
include hruns

/-- The deadline of a command whose frames are awaited, or that waits for its answer, has expired (R293, R294). -/
theorem deadlineOver_of_unaccepted {st : Stream} {tag : BitVec 8} {elapsed : Nat} {t : State}
    (h : (framesTimeout s st tag (elapsedDetail elapsed)).or (waitingTimeout s st tag (elapsedDetail elapsed)) = some t) :
    deadlineOver s st tag elapsed = t := by
  simp [deadlineOver, hruns, h]

/-- The deadline of an ACCEPTED command has expired (R294). -/
theorem deadlineOver_of_accepted {st : Stream} {tag : BitVec 8} {elapsed : Nat} {a : Accepted}
    (hframes : framesTimeout s st tag (elapsedDetail elapsed) = none) (hwaits : waitingTimeout s st tag (elapsedDetail elapsed) = none)
    (ha : ((s.stream st).outstanding.find? fun a => a.tag == tag) = some a) :
    deadlineOver s st tag elapsed = acceptedTimeout s st a (elapsedDetail elapsed) := by
  simp [deadlineOver, hruns, hframes, hwaits, ha]

/-- Held words of a stream without event frames of its own are written (R280). -/
theorem exec_responseBacklogWrite_of_ne {st : Stream} (hst : st ≠ .adminTw) :
    exec (.responseBacklogWrite st) s = .next (pumpResponse s st) := by
  refine congrArg Host.Outcome.next ((if_pos hruns).trans ?_)
  cases st with
  | bench n => rfl
  | adminUsb => rfl
  | adminTw => exact absurd rfl hst

section
variable {n : Nat} (hattached : (s.sess n).detached = false)
include hattached

/-- The backlog of a bench that is there is written by its transport (R281, R283). -/
theorem writeBacklog_of_attached :
    writeBacklog s n =
      if (s.sess n).transport = .twoWire then
        if (s.stream (.bench (Fin.ofNat 8 n))).held.isEmpty ∧ (s.queue (n * 8 + 1)).roomFor 8 then frameBacklog s n 1 else s
      else drainBacklog s n 48 := by
  simp [writeBacklog, hruns, hattached]

theorem writeBacklog_of_usb (h : (s.sess n).transport = .usb) : writeBacklog s n = drainBacklog s n 48 := by
  rw [writeBacklog_of_attached hruns hattached, if_neg (by rw [h]; decide)]

/-- Between two responses, and with room, a two-wire session gets an event frame (R283). -/
theorem writeBacklog_of_twoWire (h : (s.sess n).transport = .twoWire)
    (hheld : (s.stream (.bench (Fin.ofNat 8 n))).held.isEmpty = true) (hroom : (s.queue (n * 8 + 1)).roomFor 8 = true) :
    writeBacklog s n = frameBacklog s n 1 := by
  rw [writeBacklog_of_attached hruns hattached, if_pos h, if_pos ⟨hheld, hroom⟩]

end

end

/-- Settles O38: each row is its equation, under the guard that the row checks; a discard by the first word collected and by whether the
command that it begins is whole or cut short.  That a frame timeout discards all that is collected, the silence on a first frame cut short
and the TIMEOUT after a later one, what a deadline stops, and the writing of the backlogs are the model's choices (logs 42, 43 and 44). -/
theorem streamEventsComplete : Obligations.StreamEventsComplete := by
  unfold Obligations.StreamEventsComplete
  intro s st
  refine ⟨fun hfree => ⟨fun hfirst hpart hmark => ?frame, fun w rest hrx hw => ?unnamed, fun w rest hrx hw => ?named⟩, fun hruns =>
    ⟨fun tag elapsed t h => ?unaccepted, fun tag elapsed a hframes hwaits ha => ?accepted, exec_responseBacklogWrite_of_ne hruns,
      ?adminTw, fun n hattached => ⟨fun husb => ?usb, fun htw hheld hroom => ?twoWire⟩⟩⟩
  case frame => exact congrArg Host.Outcome.next (frameTimeout_of_waiting hfree hfirst hpart hmark)
  case unnamed => exact congrArg Host.Outcome.next (discardPoisoned_of_not_mark hfree hrx hw)
  case named =>
    intro mine whole cut after c
    refine ⟨fun hends hpoison => ?_, fun hcut hclean => ?_⟩
    · have hends' := hends.imp (headWhole_iff _).2 (headCut_iff _).2
      exact congrArg Host.Outcome.next (discardPoisoned_of_poison hfree hrx hw hends' hpoison)
    · have hdiscard := discardPoisoned_of_cut hfree hrx hw ((headCut_iff _).2 hcut) hclean
      exact ⟨fun hshort => congrArg Host.Outcome.next (hdiscard.trans (if_pos hshort)),
        fun hlong => congrArg Host.Outcome.next (hdiscard.trans (if_neg (Nat.not_lt.2 hlong)))⟩
  case unaccepted => exact congrArg Host.Outcome.next (deadlineOver_of_unaccepted hruns h)
  case accepted => exact congrArg Host.Outcome.next (deadlineOver_of_accepted hruns hframes hwaits ha)
  case adminTw => exact congrArg Host.Outcome.next (if_pos hruns)
  case usb => exact congrArg Host.Outcome.next (writeBacklog_of_usb hruns hattached husb)
  case twoWire => exact congrArg Host.Outcome.next (writeBacklog_of_twoWire hruns hattached htw hheld hroom)

end Sys2Proof.Machine
end

section
/-! PROOFS of the family 07_mailbox: the queue of waiting commands, an opcode that is not listed, the SEQ of a bench's events, and what
an answer leaves unchanged. -/

namespace Sys2Proof.Machine

/-- Settles O45: the queue is one of the things that every command keeps.  It is the model's interface to its surroundings, a choice of the
model's (log 10); R271 speaks of the commands of Survo firmware's streams. -/
theorem execKeepsQueue : Obligations.ExecKeepsQueue := by
  unfold Obligations.ExecKeepsQueue
  intro c s t h
  obtain ⟨-, hpending, -, -⟩ := exec_kept c s (Kept.refl s) h
  exact hpending

/-! ### An opcode that is not listed (R269) -/

section
variable {s : State}

/-- A frame in sequence passes check 2 of R318, and an opcode that is not listed fails check 3. -/
theorem checkForm_of_unlisted {i : OpInfo} {c : Cmd} (replayed : Bool) (hframe : checkFrame c = none)
    (hop : (capabilityList s.member).contains i.op.toNat = false) : checkForm s i c replayed = some (.badOpcode, 0) := by
  have hcheck : checkOpcode s i.op.toNat = some (.badOpcode, 0) := if_neg (by rw [hop]; decide)
  rw [checkForm, hframe, hcheck]
  rfl

theorem exec_badOpcodeCommand_of_unlisted {op : BitVec 16} (c : Cmd) (hop : (capabilityList s.member).contains op.toNat = false) :
    exec (.badOpcodeCommand op c) s =
      .next (mailbox s ⟨op, .any, none, false, false, [], []⟩ c { run := fun s _ => s }) :=
  congrArg Host.Outcome.next (if_neg (by rw [hop]; decide))

end

/-- Settles O6: Survo firmware takes the command, and the first check that fails is that of its opcode. -/
theorem badOpcodeAnswered : Obligations.BadOpcodeAnswered := by
  unfold Obligations.BadOpcodeAnswered
  intro s c op hop hruns hready hunlogged hfree hearly hreset hframe
  have hgiven : Given s op c := ⟨hruns, hunlogged, hfree⟩
  rw [exec_badOpcodeCommand_of_unlisted c hop,
    hgiven.mailbox_of_ready (i := ⟨op, .any, none, false, false, [], []⟩) _ hready hearly hreset]
  exact congrArg Host.Outcome.next (answerOr_of_some (checkForm_of_unlisted false hframe hop))

/-! ### The SEQ of a bench's events (R287) -/

/-- What changes no session changes no SEQ. -/
theorem Side.seq {Q : Nat → Prop} {s t : State} (h : Side (fun _ => True) Q s t) (m : Nat) : (t.sess m).seq = (s.sess m).seq := by
  obtain ⟨-, -, hsess, -⟩ := h
  rw [hsess m trivial]

section
variable (s : State) (n : Nat)

/-- A session written with the SEQ that it had leaves every SEQ. -/
theorem State.seq_setSess_of_seq {x : Session} (hx : x.seq = (s.sess n).seq) (m : Nat) :
    ((s.setSess n x).sess m).seq = (s.sess m).seq := by
  by_cases h : m = n
  · rw [h, State.sess_setSess, hx]
  · rw [State.sess_setSess_ne _ _ _ _ h]

/-- An event word goes to the EVT queue or to the backlog, or it is lost, counted while DETACHED or not (R31, R281). -/
theorem deliverEvent_cases (d : DWord) :
    deliverEvent s n d = pushWord s (n * 8 + 2) .unit d .mark ∨
      deliverEvent s n d = s.setSess n { s.sess n with backlog := (s.sess n).backlog ++ [d] } ∨
        deliverEvent s n d = s.bumpSat .bnEvtLost n 0 31 0 1 ∨ deliverEvent s n d = s := by
  unfold deliverEvent
  dsimp only
  repeat' split
  all_goals simp only [true_or, or_true]

/-- No SEQ depends on what becomes of an event word (R287). -/
theorem deliverEvent_seq (d : DWord) (m : Nat) : ((deliverEvent s n d).sess m).seq = (s.sess m).seq := by
  obtain hpushed | hkept | hcounted | hdropped := deliverEvent_cases s n d
  · exact hpushed ▸ (pushWord_side (Q := fun _ => True) s _ _ _ _ (Side.refl s)).seq m
  · exact hkept ▸ s.seq_setSess_of_seq n (x := { s.sess n with backlog := (s.sess n).backlog ++ [d] }) rfl m
  · rw [hcounted, State.bumpSat, State.wrFld, State.wr, State.sess_setRegWord]
  · rw [hdropped]

/-- An event that is generated moves the SEQ of its bench on by 1, be it recorded, compared, delivered or lost (R287, R827). -/
theorem sendEvent_seq {code : BitVec 16} (tag status : BitVec 8) (arg : Nat) (h : (exemptEvent code && s.replaysBench n) = false)
    (m : Nat) :
    ((sendEvent s n code tag status arg).sess m).seq =
      ((s.setSess n { s.sess n with seq := (s.sess n).seq + 1 }).sess m).seq := by
  unfold sendEvent
  dsimp only
  generalize eventWord code tag status (s.sess n).seq n arg = d
  generalize s.setSess n { s.sess n with seq := (s.sess n).seq + 1 } = counted
  rw [if_neg (by rw [h]; decide)]
  split
  case isTrue =>
    rw [deliverEvent_seq]
    exact (logBench_side (Q := fun _ => True) counted n 0xF d.toNat (Side.refl counted)).seq m
  case isFalse =>
    split
    case isTrue => exact deliverEvent_seq counted n d m
    case isFalse =>
      have hitem := (outputItem_side (Q := fun _ => True) counted n (n * 8 + 2) (bytesOfDWord d) false (Side.refl counted)).seq m
      split
      next diverted hdiverted => rw [hdiverted] at hitem; exact hitem
      next sent hsent => rw [hsent] at hitem; rw [deliverEvent_seq, hitem]

end

/-- Settles O55: generating an event writes one SEQ, and nothing behind it writes any. -/
theorem eventSequence : Obligations.EventSequence := by
  unfold Obligations.EventSequence
  intro s n code tag status arg hgenerated t
  have hseq := sendEvent_seq s n tag status arg hgenerated
  refine ⟨?own, fun m hm => ?other⟩
  case own => rw [hseq, State.sess_setSess]
  case other => rw [hseq, State.sess_setSess_ne _ _ _ _ hm]

/-! ### What an answer leaves unchanged -/

/-- The streams of the benches have the keys below 8, the two admin streams those from 8 on. -/
theorem streamKey_inj {a b : Stream} (h : streamKey a = streamKey b) : a = b := by
  cases a with
  | bench n =>
    have hn : n.val < 8 := n.isLt
    cases b with
    | bench m => rw [Fin.ext h]
    | adminUsb => simp only [streamKey] at h; omega
    | adminTw => simp only [streamKey] at h; omega
  | adminUsb =>
    cases b with
    | bench m => have hm : m.val < 8 := m.isLt; simp only [streamKey] at h; omega
    | adminUsb => rfl
    | adminTw => exact absurd h (by decide)
  | adminTw =>
    cases b with
    | bench m => have hm : m.val < 8 := m.isLt; simp only [streamKey] at h; omega
    | adminUsb => exact absurd h (by decide)
    | adminTw => rfl

section
variable {P Q : Nat → Prop} {z t : State} (h : Side P Q z t)
include h

theorem Side.stream {st : Stream} (hst : Q (streamKey st)) : t.stream st = z.stream st := by
  obtain ⟨-, -, -, hstreams⟩ := h
  exact (hstreams _ hst).1

/-- Of Survo firmware's own data the rotation alone moves on, where some stream is left untouched. -/
theorem Side.fw {k : Nat} (hk : Q k) : t.fw = { z.fw with served := t.fw.served } := by
  obtain ⟨hbare, -, -, hstreams⟩ := h
  obtain ⟨-, hopen⟩ := hstreams k hk
  calc t.fw = { t.bare.fw with served := t.fw.served, openPost := t.fw.openPost } := rfl
    _ = { z.bare.fw with served := t.fw.served, openPost := z.fw.openPost } := by rw [hbare, hopen]

end

/-- Taking a command and answering it, with nothing waiting for the response, touches no session and no other stream. -/
theorem answer_side {s : State} {c : Cmd} (op : BitVec 16) (st : Status) (detail : Nat) (payload : List Word) (replayed : Bool)
    (hacking : (s.stream c.stream).acking = none) (hopen : s.fw.openPost = none) :
    Side (fun _ => True) (· ≠ streamKey c.stream) s (respond (takeCommand s op c) op c st detail payload replayed) := by
  obtain ⟨htaken, hpost⟩ := takeCommand_waits s op c
  exact respond_quiet_side _ op c st detail payload replayed (fun h => h rfl) (htaken.trans hacking) (hpost.trans hopen)
    (takeCommand_side s op c (fun h => h rfl) (Side.refl s))

/-- Settles O59: with no completion and no OPEN_BENCH_CHANGED waiting, `Side` bounds what taking and answering a command change.  Beside
what the statement excepts, it claims nothing of the USB fields other than the endpoints nor of the parity of register copies. -/
theorem answersChangeNothingElse : Obligations.AnswersChangeNothingElse := by
  unfold Obligations.AnswersChangeNothingElse
  intro s op c st detail payload replayed hacking hopen t
  have h : Side (fun _ => True) (· ≠ streamKey c.stream) s t := answer_side op st detail payload replayed hacking hopen
  clear_value t
  have hfw : t.fw = { s.fw with served := t.fw.served } := h.fw (Nat.succ_ne_self _)
  have hstream (k : Stream) (hk : k ≠ c.stream) : t.stream k = s.stream k := h.stream fun hkey => hk (streamKey_inj hkey)
  obtain ⟨hbare, hregs, hsess, -⟩ := h
  have unit {β : Type} (f : State → β) (hf : ∀ u, f u.bare = f u) : f t = f s := (hf t).symm.trans ((congrArg f hbare).trans (hf s))
  exact ⟨unit State.part fun _ => rfl, unit State.pending fun _ => rfl, unit State.power fun _ => rfl, unit State.boot fun _ => rfl,
    unit State.distaff fun _ => rfl, unit State.cal fun _ => rfl, fun n => hsess n trivial, unit State.seqs fun _ => rfl,
    unit State.caps fun _ => rfl, unit State.cmps fun _ => rfl, unit State.pods fun _ => rfl, unit State.engines fun _ => rfl,
    unit State.umpire fun _ => rfl, unit State.lanes fun _ => rfl, unit State.storage fun _ => rfl, unit State.iu fun _ => rfl,
    unit State.tw fun _ => rfl, unit State.ref fun _ => rfl, hfw, unit State.act fun _ => rfl, unit State.paths fun _ => rfl,
    unit State.free fun _ => rfl, unit State.busErr fun _ => rfl, hstream, fun r hname hr => hregs r hr hname⟩

end Sys2Proof.Machine
end

section
/-! PROOFS of the family 08_commands: register access by mailbox, firmware loading and PART_RESET. -/

namespace Sys2Proof.Machine

/-! ### Register access by mailbox (R351 to R356) -/

/-- REG_READ answers the words read. -/
theorem regRead_run_of_no_error {s : State} {c : Cmd} (h : (readMany s (regReadAddrs c)).2.1 = false) :
    (meanRegRead c).run s false =
      let d := readMany s (regReadAddrs c)
      respond d.2.2 0x0E13 c .done 0 d.1 :=
  if_neg (Bool.not_eq_true _ ▸ h)

/-- REG_READ answers a bus error of one of its reads without any word (R353). -/
theorem regRead_run_of_error {s : State} {c : Cmd} (h : (readMany s (regReadAddrs c)).2.1 = true) :
    (meanRegRead c).run s false = respond (readMany s (regReadAddrs c)).2.2 0x0E13 c .badArg 0 [] :=
  if_pos h

/-- REG_WRITE enters a write that is made in the ring of register writes (R354). -/
theorem regWrite_run_of_no_error {s : State} {c : Cmd} (h : (busWrite s .survo (pf c 2 19 0) (pw c 3)).1 = 0) :
    (meanRegWrite c).run s false =
      let d := busWrite s .survo (pf c 2 19 0) (pw c 3)
      respond (logWrite d.2 .survo (pf c 2 19 0) (pw c 3)) 0x0E14 c .done 0 [] :=
  if_neg (not_not_intro h)

/-- REG_WRITE answers a bus error and enters nothing in the ring (R353). -/
theorem regWrite_run_of_error {s : State} {c : Cmd} (h : (busWrite s .survo (pf c 2 19 0) (pw c 3)).1 ≠ 0) :
    (meanRegWrite c).run s false = respond (busWrite s .survo (pf c 2 19 0) (pw c 3)).2 0x0E14 c .badArg 0 [] :=
  if_pos h

/-- Settles O4: the rows are their mailbox commands, taken and run; REG_READ and REG_WRITE by whether an access ends in a bus error.
Firmware loading is not claimed here. -/
theorem registerMailboxComplete : Obligations.RegisterMailboxComplete := by
  unfold Obligations.RegisterMailboxComplete
  intro s c
  refine ⟨?regLogRead, fun h => ⟨fun hok => ?read, fun herror => ?notRead⟩, fun h => ⟨fun hok => ?written, fun herror => ?notWritten⟩⟩
  case regLogRead => exact exec_of_checksPass rfl
  case read => exact (exec_of_checksPass rfl h).trans (congrArg Host.Outcome.next (regRead_run_of_no_error hok))
  case notRead => exact (exec_of_checksPass rfl h).trans (congrArg Host.Outcome.next (regRead_run_of_error herror))
  case written => exact (exec_of_checksPass rfl h).trans (congrArg Host.Outcome.next (regWrite_run_of_no_error hok))
  case notWritten => exact (exec_of_checksPass rfl h).trans (congrArg Host.Outcome.next (regWrite_run_of_error herror))

/-! ### The steps of a firmware commit (R361) -/

section
variable {s : State} {j : CommitJob} {g : Staging} (hcommit : s.fw.commit = some j) (hstaging : s.fw.staging = some g)
  (hruns : s.survoRuns = true)
include hcommit hstaging hruns

/-- Steps 1 and 2: the image fails and the commit ends, or the commit goes on to write it. -/
theorem commitStep_of_checking (hwriting : j.writing = false) :
    commitStep s = match checkImage s g j.crc with
      | some (st, d) => endCommit s j st d
      | none => { s with fw := { s.fw with commit := some { j with writing := true } } } := by
  rw [commitStep, hcommit, hstaging]
  exact (if_neg (by rw [hruns]; decide)).trans (if_neg (by rw [hwriting]; decide))

/-- Steps 3 and 4 end the commit with what writing the image answers. -/
theorem commitStep_of_writing (hwriting : j.writing = true) :
    commitStep s =
      let k := writeImage s g j.programOk j.verifyOk
      endCommit k.2.2 j k.1 k.2.1 := by
  rw [commitStep, hcommit, hstaging]
  exact (if_neg (by rw [hruns]; decide)).trans (if_pos hwriting)

end

/-- Settles O5: the rows are their mailbox commands, taken and run; the commit's steps by whether its image has been checked.  That a
commit checks in one idle tick and writes in the next is the model's choice (log 48). -/
theorem firmwareCommandsComplete : Obligations.FirmwareCommandsComplete := by
  unfold Obligations.FirmwareCommandsComplete
  intro s c
  refine ⟨?fwLoadBegin, ?fwLoadData, fun programOk verifyOk => ?fwLoadCommit,
    fun j g hcommit hstaging hruns => ⟨fun hwriting => ?checking, fun hwriting => ?writing⟩, ?partReset⟩
  case fwLoadBegin => exact exec_of_checksPass rfl
  case fwLoadData => exact exec_of_checksPass rfl
  case fwLoadCommit => exact exec_of_checksPass rfl
  case checking => exact commitStep_of_checking hcommit hstaging hruns hwriting
  case writing => exact commitStep_of_writing hcommit hstaging hruns hwriting
  case partReset => exact exec_of_checksPass rfl

end Sys2Proof.Machine
end

section
/-! PROOFS of the family 09_front_end: the FE_ commands, and the front end's own events. -/

namespace Sys2Proof.Machine

/-! ### The FE_ commands (R408) -/

/-- One staged word settles its bench after the one write (R185). -/
theorem stageRegs_singleton (s : State) (n : Nat) (r : RegName) (i : Nat) (w : Word) :
    stageRegs s n [(r, i, w)] = settleBench (s.wr r n i w) n := rfl

/-- FE_HEALTH without TEST only reports the pod: no channel has failed (R408). -/
theorem feHealth_run_of_no_test (s : State) (c : Cmd) (fails : Option Word) (h : bitB (pw c 2) 8 = false) :
    (meanFeHealth c fails).run s false =
      respond s 0x0204 c .done 0 (feHealthWords s (pf c 2 3 0) (pf c 2 6 4) 0) := by
  have hskip : (!bitB (pw c 2) 8 || false) = true := by rw [h]; rfl
  dsimp only [meanFeHealth, cmdTarget, done]
  rw [if_pos hskip]

/-- FE_HEALTH with TEST reports the pod as the test of its channels leaves it (R409). -/
theorem feHealth_run_of_test (s : State) (c : Cmd) (fails : Word) (h : bitB (pw c 2) 8 = true) :
    (meanFeHealth c (some fails)).run s false =
      let k := testPod s (pf c 2 6 4) fails
      respond k.2 0x0204 c .done 0 (feHealthWords k.2 (pf c 2 3 0) (pf c 2 6 4) k.1) := by
  have htest : ¬ (!bitB (pw c 2) 8 || false) = true := by rw [h]; decide
  dsimp only [meanFeHealth, cmdTarget, done]
  rw [if_neg htest]

/-- Settles O7: the rows are their mailbox commands, taken and run; FE_HEALTH by its TEST bit. -/
theorem frontEndCommandsComplete : Obligations.FrontEndCommandsComplete := by
  unfold Obligations.FrontEndCommandsComplete
  intro s c
  refine ⟨fun h => ?setPod, fun h => ?setMode, ?query, fun h hreport => ?health, fun fails h htest => ?healthTest, ?deskew⟩
  case setPod =>
    rw [← stageRegs_singleton]
    exact exec_of_checksPass rfl h
  case setMode =>
    rw [← stageRegs_singleton]
    exact exec_of_checksPass rfl h
  case query => exact exec_of_checksPass rfl
  case health => exact (exec_of_checksPass rfl h).trans (congrArg Host.Outcome.next (feHealth_run_of_no_test _ c none hreport))
  case healthTest => exact (exec_of_checksPass rfl h).trans (congrArg Host.Outcome.next (feHealth_run_of_test _ c fails htest))
  case deskew => exact exec_of_checksPass rfl

/-! ### Overdrive (R392, R393) -/

section
variable {s : State} {p d : Nat} (hlive : s.live = true) (hcalm : bitB (s.pod p).ovd d = false) (hp : p < s.member.pods)
include hlive hcalm hp

theorem overdriveOnset_acts : ¬ (!s.live || bitB (s.pod p).ovd d || decide (s.member.pods ≤ p)) = true := by
  simp [hlive, hcalm, hp]

/-- The onset on a pod that no bench owns sets the channel's flag alone (R392). -/
theorem startOverdrive_of_unowned (hfree : (setOverdrive s p ((s.pod p).ovd ||| W (2 ^ d))).ownerOf p = none) :
    startOverdrive s p d = setOverdrive s p ((s.pod p).ovd ||| W (2 ^ d)) := by
  unfold startOverdrive
  rw [if_neg (overdriveOnset_acts hlive hcalm hp)]
  dsimp only
  rw [hfree]

/-- The bench that owns the pod is told of the onset once the A9 is READY (R393). -/
theorem startOverdrive_of_owner {n : Nat} (howner : (setOverdrive s p ((s.pod p).ovd ||| W (2 ^ d))).ownerOf p = some n) :
    startOverdrive s p d =
      let t := setOverdrive s p ((s.pod p).ovd ||| W (2 ^ d))
      let u := { t with fw := { t.fw with ovdNew := t.fw.ovdNew ++ [32 * p + d] } }
      if u.isReady then postOverdrive u p n else u := by
  unfold startOverdrive
  rw [if_neg (overdriveOnset_acts hlive hcalm hp)]
  dsimp only
  rw [howner]

end

/-! ### The stuck-at monitor (R394, R395, R404) -/

/-- The channel has changed its value in the 8-tick window in which its stuck-at window expires (R404). -/
def changedInWindow (s : State) (n p d : Nat) : Prop :=
  (s.cap n).lastTick / 8 = s.power.baseTick / 8 ∧ bitB (wordAt (s.cap n).changed p) d = true

/-- A change of value in the same 8-tick window prevails over the expiry (R404). -/
theorem stuckExpiry_of_changed {s : State} {n p d : Nat} (h : changedInWindow s n p d) : stuckExpiry s n p d = s := by
  obtain ⟨htick, hbit⟩ := h
  unfold stuckExpiry
  exact if_pos (by simp [htick, hbit])

/-- The expiry on a sampled channel that has not changed sets its flag; with the report asked for, the Referee gets an error on it, unless
the channel is quiet (R394, R395). -/
theorem stuckExpiry_of_unchanged {s : State} {n p d : Nat} (hlive : s.live = true) (hcap : s.capturing n = true)
    (hwindow : fld (s.rd .feCtrl n) 7 0 ≠ 0) (hsampled : s.samples n p d = true) (hclear : bitB (s.pod p).stuck d = false)
    (hsame : ¬ changedInWindow s n p d) :
    stuckExpiry s n p d =
      let t := s.setPod p { s.pod p with stuck := (s.pod p).stuck ||| W (2 ^ d) }
      if bitB (t.rd .feCtrl n) 8 ∧ 32 * p + d ∉ t.ref.quiet then
        raiseFault { t with ref := { t.ref with
          asked := (32 * p + d, t.power.baseTick) :: t.ref.asked.filter fun a => a.1 != 32 * p + d } } (resChannel (32 * p + d)) 0x0101
      else t := by
  unfold changedInWindow at hsame
  unfold stuckExpiry
  exact if_neg (by simpa [hlive, hcap, hwindow, hsampled, hclear] using hsame)

/-! ### Pod presence (R399, R400) -/

section
variable {s : State} {p : Nat} (hready : s.isReady = true) (hcontrol : s.mayControl = true) (hp : p < s.member.pods)
include hready hcontrol hp

theorem podPoll_acts : ¬ (!s.isReady || !s.mayControl || decide (s.member.pods ≤ p)) = true := by
  simp [hready, hcontrol, hp]

/-- A pod that was absent is read (R400). -/
theorem pollPod_of_absent (r : PodRead) (habsent : (s.pod p).present = false) : pollPod s p r = readPod s p r true :=
  (if_neg (podPoll_acts hready hcontrol hp)).trans (if_pos (by rw [habsent]; rfl))

/-- A pod that was there is only asked whether it still is (R399). -/
theorem pollPod_of_present (r : PodRead) (hpresent : (s.pod p).present = true) :
    pollPod s p r = match r with
      | .absent k => readPod s p (.absent k) true
      | .lost => lostPod s p 4
      | .bytes k _ => accessPod s p (.bytes k []) [] :=
  (if_neg (podPoll_acts hready hcontrol hp)).trans (if_neg (by rw [hpresent]; decide))

end

/-- Settles O8: each row is its equation, under the guard that the row checks.  That a change of value in the same 8-tick window prevails
over an expiry of the stuck-at window is the model's choice (log 72), which rests on R404. -/
theorem frontEndEventsComplete : Obligations.FrontEndEventsComplete := by
  unfold Obligations.FrontEndEventsComplete
  intro s hlive
  refine ⟨fun p d hcalm hp => ⟨fun hfree => ?unowned, fun n howner => ?owned⟩, fun p d => ?overdriveEnd,
    fun n p d hcap hwindow hsampled hclear => ⟨fun hchanged => ?changed, fun hsame => ?stuck⟩, fun n hcap hmode => ?clkIdle,
    fun p r hready hcontrol hp habsent => ?absent, fun p hready hcontrol hp hpresent => ?present⟩
  case unowned => exact congrArg Host.Outcome.next (startOverdrive_of_unowned hlive hcalm hp hfree)
  case owned => exact congrArg Host.Outcome.next (startOverdrive_of_owner hlive hcalm hp howner)
  case overdriveEnd => exact congrArg Host.Outcome.next (if_pos hlive)
  case changed => exact congrArg Host.Outcome.next (stuckExpiry_of_changed hchanged)
  case stuck => exact congrArg Host.Outcome.next (stuckExpiry_of_unchanged hlive hcap hwindow hsampled hclear hsame)
  case clkIdle =>
    have hruns : (s.live && s.capturing n.val && s.stateMode n.val) = true := by rw [hlive, hcap, hmode]; rfl
    exact congrArg Host.Outcome.next (if_pos hruns)
  case absent => exact congrArg Host.Outcome.next (pollPod_of_absent hready hcontrol hp r habsent)
  case present =>
    have hpoll (r : PodRead) := pollPod_of_present hready hcontrol hp r hpresent
    exact ⟨fun k => congrArg Host.Outcome.next (hpoll (.absent k)), congrArg Host.Outcome.next (hpoll .lost),
      fun k b => congrArg Host.Outcome.next (hpoll (.bytes k b))⟩

end Sys2Proof.Machine
end

section
/-! PROOFS of the family 10_trigger: the trigger and capture commands, the events of a capture, and the conditions of word comparators
and edge detectors. -/

namespace Sys2Proof.Machine

/-! ### The trigger commands (R435, R438, R451 to R453) -/

/-- Settles O9: the rows are their mailbox commands, taken and run. -/
theorem triggerCommandsComplete : Obligations.TriggerCommandsComplete := by
  unfold Obligations.TriggerCommandsComplete
  intro s c
  refine ⟨?setLevel, ?setResource, ?query, ?force, fun h => ?relayEnable⟩
  case setLevel => exact exec_of_checksPass rfl
  case setResource => exact exec_of_checksPass rfl
  case query => exact exec_of_checksPass rfl
  case force => exact exec_of_checksPass rfl
  case relayEnable =>
    rw [← stageRegs_singleton]
    exact exec_of_checksPass rfl h

/-! ### The capture commands (R436, R456, R462, R463, R490 to R494) -/

/-- SKN_READ is accepted, and sends the bytes from OFFSET on, at most LENGTH, that the skein has (R490, R493). -/
theorem sknRead_run_of_held {s : State} {c : Cmd} {k : Skein} (h : s.bobbinSkein c.bench.toNat (pw c 2).toNat = some k) :
    (meanSknRead c).run s false =
      let all := k.readBytes c.bench.toNat (bitB (pw c 3) 0)
      let bytes := (all.drop (pw c 4).toNat).take (pw c 5).toNat
      let u := moveSram (accept s 0x0405 c false) c.bench.toNat bytes.length
      sendData u c.bench.toNat c.tag bytes (some (0x0405, Status.done.code, bytes.length)) 0
        (if decide (all.length ≤ (pw c 4).toNat + (pw c 5).toNat) then some k.num else none) := by
  dsimp only [meanSknRead, cmdBench]
  rw [h]

/-- Settles O10: the rows are their mailbox commands, taken and run; SKN_READ by the skein that the bobbin holds.  The stop at the start of
the next 8-tick window and the tick of an arm (log 19), the bytes and the read mark of SKN_READ (log 28), and SKN_DELETE stopping at a
skein that is being exported (log 74) are the model's choices. -/
theorem captureCommandsComplete : Obligations.CaptureCommandsComplete := by
  unfold Obligations.CaptureCommandsComplete
  intro s c
  refine ⟨?capArm, ?capStop, ?capConfig, ?sknList, fun k h hheld => ?sknRead, ?sknDelete, ?bobbinLend⟩
  case capArm => exact exec_of_checksPass rfl
  case capStop => exact exec_of_checksPass rfl
  case capConfig => exact exec_of_checksPass rfl
  case sknList => exact exec_of_checksPass rfl
  case sknRead => exact (exec_of_checksPass rfl h).trans (congrArg Host.Outcome.next (sknRead_run_of_held hheld))
  case sknDelete => exact exec_of_checksPass rfl
  case bobbinLend => exact exec_of_checksPass rfl

/-! ### The events of a capture (R413, R429, R461, R462, R479) -/

/-- While the fast domain runs, base time reaches tick `t` and a bench that no replay drives sees to what is due. -/
theorem reachTick_of_live {s : State} {n : Nat} (hlive : s.live = true) (hreplay : s.replaysBench n = false) (t : Nat) :
    reachTick s n t =
      let u := { s with power := { s.power with baseTick := max s.power.baseTick t } }
      followCapture (runDue u n t) n :=
  if_neg (by rw [hlive, hreplay]; decide)

section
variable {s : State} {n : Fin 8} {t : Nat}

/-- SKEIN_BOUNDARY takes the bench to the boundary that is due, of either kind (R429). -/
theorem exec_skeinBoundary_of_due {rearm : Bool} (hdue : (s.cap n).boundary = some (t, rearm)) :
    exec (.skeinBoundary n) s = .next (reachTick s n t) := by
  dsimp only [exec, execSkeinBoundary]
  rw [hdue]

/-- SEGMENTED_REARM takes the bench to the boundary that is due where a re-arm asked for it (R462). -/
theorem exec_segmentedRearm_of_due (hdue : (s.cap n).boundary = some (t, true)) :
    exec (.segmentedRearm n) s = .next (reachTick s n t) := by
  have htick : s.boundaryTick n true = some t := by
    unfold State.boundaryTick
    rw [hdue]
    exact if_pos rfl
  dsimp only [exec, execSegmentedRearm]
  rw [htick]

/-- SKEIN_END takes the bench to the END that is due (R461). -/
theorem exec_skeinEnd_of_due (hdue : (s.cap n).cur.bind Skein.due = some t) : exec (.skeinEnd n) s = .next (reachTick s n t) := by
  dsimp only [exec, execSkeinEnd]
  rw [hdue]

end

/-- OVERRUN_RESUME ends the overrun once a quarter of the bobbin is free (R479). -/
theorem exec_overrunResume_of_quarter_free {s : State} {n : Fin 8} (hlive : s.live = true) (hovr : (s.cap n).ovr = true)
    (hfree : s.bobbinBytes n ≤ 4 * s.bobbinFree n) :
    exec (.overrunResume n) s = .next (s.setCap n { s.cap n with ovr := false }) :=
  congrArg Host.Outcome.next ((if_pos hlive).trans (if_pos ⟨hovr, hfree⟩))

/-- Settles O11: each row is its equation, under the guard that the row checks.  That a row moves the base tick to the later of the present
tick and the tick that it names is the model's choice (log 12). -/
theorem captureEventsComplete : Obligations.CaptureEventsComplete := by
  unfold Obligations.CaptureEventsComplete
  intro s n hlive hreplay
  refine ⟨fun window pods => ?sample, fun hovr hfree => ?resume, fun t rearm hdue => ⟨?boundary, fun hrearm => ?rearmed⟩,
    fun t hdue => ?ended⟩
  case sample => rfl
  case resume => exact exec_overrunResume_of_quarter_free hlive hovr hfree
  case boundary => rw [exec_skeinBoundary_of_due hdue, reachTick_of_live hlive hreplay]
  case rearmed => rw [exec_segmentedRearm_of_due (hrearm ▸ hdue), reachTick_of_live hlive hreplay]
  case ended => rw [exec_skeinEnd_of_due hdue, reachTick_of_live hlive hreplay]

/-! ### The tests of word comparators and edge detectors (R417 to R420) -/

section
variable (s : State) (n : Nat) (q : Sequencer) (lines : List Nat) (tick : Nat) (ws : List Word)

/-- SRC 0x08 to 0x0F select the word comparators (R417). -/
theorem srcTest_comparator {c : Nat} (hc : c < 8) :
    srcTest s n q lines tick ws (8 + c) =
      some (wcMatches (s.eff .trgWcCfg n c) (s.eff .trgWcMask n c) (s.eff .trgWcA n c) (s.eff .trgWcB n c) ws) := by
  unfold srcTest
  rw [if_neg (by omega), if_neg (by omega), if_pos (by omega), Nat.add_sub_cancel_left]

/-- SRC 0x10 to 0x13 select the edge detectors (R417). -/
theorem srcTest_edge {e : Nat} (he : e < 4) :
    srcTest s n q lines tick ws (0x10 + e) = some (edgeSeen (s.eff .trgEdge n e) q.prev ws) := by
  unfold srcTest
  rw [if_neg (by omega), if_neg (by omega), if_neg (by omega), if_pos (by omega), Nat.add_sub_cancel_left]

end

section
variable {cfg : Word} (mask a b : Word) (ws : List Word)

/-- Mask/match mode (R418). -/
theorem wcMatches_iff_of_match (hmode : bitB cfg 4 = false) :
    wcMatches cfg mask a b ws = true ↔ (wordAt ws (fld cfg 2 0) ^^^ a) &&& mask = 0 := by
  simp [wcMatches, hmode]

/-- Range mode compares unsigned (R419). -/
theorem wcMatches_iff_of_range (hmode : bitB cfg 4 = true) :
    wcMatches cfg mask a b ws = true ↔ a ≤ wordAt ws (fld cfg 2 0) &&& mask ∧ wordAt ws (fld cfg 2 0) &&& mask ≤ b := by
  simp only [wcMatches, hmode, if_true, decide_eq_true_eq, BitVec.le_def]

/-- A range with A above B holds no word (R419). -/
theorem wcMatches_of_range_empty (hmode : bitB cfg 4 = true) (hempty : b < a) : wcMatches cfg mask a b ws = false := by
  rw [← Bool.not_eq_true, wcMatches_iff_of_range mask a b ws hmode]
  rintro ⟨hlow, hhigh⟩
  exact absurd (BitVec.le_trans hlow hhigh) (BitVec.not_le.mpr hempty)

end

theorem channelOf_eq_bitB (ws : List Word) (p : Nat) {d : Nat} (hd : d < 32) : channelOf ws (32 * p + d) = bitB (wordAt ws p) d := by
  have hpod : (32 * p + d) / 32 = p := by omega
  have hbit : (32 * p + d) % 32 = d := by omega
  rw [channelOf, hpod, hbit]

/-- The edge that each KIND of an edge detector asks for, from the previous level to the present one (R420). -/
def edgeOf (kind : Nat) (was is : Bool) : Bool :=
  match kind with
  | 0 => !was && is
  | 1 => was && !is
  | 2 => was != is
  | _ => false

/-- Once the bench has a previous sample, a detector compares its channel's two levels (R420). -/
theorem edgeSeen_of_prev {edge : Word} {p d : Nat} (hd : d < 32) (hch : fld edge 7 0 = 32 * p + d) (prev ws : List Word) :
    edgeSeen edge (some prev) ws = edgeOf (fld edge 9 8) (bitB (wordAt prev p) d) (bitB (wordAt ws p) d) := by
  rw [← channelOf_eq_bitB prev p hd, ← channelOf_eq_bitB ws p hd, ← hch]
  rfl

theorem edgeOf_rising_iff (was is : Bool) : edgeOf 0 was is = true ↔ was = false ∧ is = true := by simp [edgeOf]

theorem edgeOf_falling_iff (was is : Bool) : edgeOf 1 was is = true ↔ was = true ∧ is = false := by simp [edgeOf]

theorem edgeOf_either_iff (was is : Bool) : edgeOf 2 was is = true ↔ was ≠ is := by simp [edgeOf]

/-- Settles O49: SRC selects the comparator or the detector; a comparator tests by its mode, a detector by its KIND. -/
theorem triggerConditions : Obligations.TriggerConditions := by
  unfold Obligations.TriggerConditions
  intro s n q lines tick ws
  refine ⟨fun c hc => ?comparator, fun e he p d prev hd hch hprev => ?edge⟩
  case comparator =>
    dsimp only
    rw [srcTest_comparator s n q lines tick ws hc, Option.some_inj, Option.some_inj]
    exact ⟨wcMatches_iff_of_match _ _ _ ws,
      fun hrange => ⟨wcMatches_iff_of_range _ _ _ ws hrange, wcMatches_of_range_empty _ _ _ ws hrange⟩⟩
  case edge =>
    dsimp only
    rw [srcTest_edge s n q lines tick ws he, hprev, edgeSeen_of_prev hd hch, Option.some_inj, Option.some_inj]
    refine ⟨fun hkind => ?rising, fun hkind => ?falling, fun hkind => ?either, fun hkind => ?never⟩
    all_goals rw [hkind]
    case rising => exact edgeOf_rising_iff _ _
    case falling => exact edgeOf_falling_iff _ _
    case either => exact edgeOf_either_iff _ _
    case never => rfl

end Sys2Proof.Machine
end

section
/-! PROOFS of the family 12_compression: the CMP_ commands, and the events of compression. -/

namespace Sys2Proof.Machine

/-! ### The CMP_ commands (R520, R522, R525, R538) -/

/-- Settles O12: the rows are their mailbox commands, taken and run; CMP_CONFIG stages its one word. -/
theorem compressionCommandsComplete : Obligations.CompressionCommandsComplete := by
  unfold Obligations.CompressionCommandsComplete
  intro s c
  refine ⟨fun h => ?config, ?exportJob, ?verify, ?flush, ?query⟩
  case config =>
    rw [← stageRegs_singleton]
    exact exec_of_checksPass rfl h
  case exportJob => exact exec_of_checksPass rfl
  case verify => exact exec_of_checksPass rfl
  case flush => exact exec_of_checksPass rfl
  case query => exact exec_of_checksPass rfl

/-! ### The events of compression (R499, R517 to R521) -/

section
variable {s : State} (hlive : s.live = true)
include hlive

/-- AUTOFLUSH_EXPIRY flushes the stream of a skein that has an AUTOFLUSH in effect (R521). -/
theorem exec_autoflushExpiry_of_set {n : Fin 8} (hset : s.autoflush n ≠ 0) :
    exec (.autoflushExpiry n) s = .next (flushStream s n).2 :=
  congrArg Host.Outcome.next (if_pos ⟨hlive, hset⟩)

/-- BLOCK_END ends the step of an engine whose job makes blocks (R499). -/
theorem exec_blockEnd_of_makesBlocks {e : Fin 4} (ok : Bool) (hblocks : s.makesBlocks e = true) :
    exec (.blockEnd e ok) s = .next (endStep s e ok) :=
  congrArg Host.Outcome.next (if_pos (Bool.and_eq_true_iff.mpr ⟨hlive, hblocks⟩))

/-- CMP_STREAM_STOP stops the stream while its cause stands (R517). -/
theorem exec_cmpStreamStop_of_cause {n : Fin 8} {k : StopCause} (hstands : s.causeGone n k = false) :
    exec (.cmpStreamStop n k) s = .next (stopStream s n k) :=
  congrArg Host.Outcome.next (if_pos (by rw [hlive, hstands]; rfl))

end

/-- CMP_STREAM_RESUME is Survo firmware's, and needs it to run (R519). -/
theorem exec_cmpStreamResume_of_survoRuns {s : State} {n : Fin 8} (hruns : s.survoRuns = true) :
    exec (.cmpStreamResume n) s = .next (resumeStream s n) :=
  congrArg Host.Outcome.next (if_pos hruns)

/-- Settles O13: each row is its equation, under the guard that the row checks. -/
theorem compressionEventsComplete : Obligations.CompressionEventsComplete := by
  unfold Obligations.CompressionEventsComplete
  intro s hlive
  refine ⟨fun n hset => ?autoflush, fun e ok hblocks => ?blockEnd, fun n k hstands => ?stop, fun n hruns => ?resume⟩
  case autoflush => exact exec_autoflushExpiry_of_set hlive hset
  case blockEnd => exact exec_blockEnd_of_makesBlocks hlive ok hblocks
  case stop => exact exec_cmpStreamStop_of_cause hlive hstands
  case resume => exact exec_cmpStreamResume_of_survoRuns hruns

end Sys2Proof.Machine
end

section
/-! PROOFS of the family 13_nand: the SL_ commands, the NAND's own events, and the upkeep of a lane. -/

namespace Sys2Proof.Machine

/-! ### Queries, SL_STREAM, SL_READ and SL_BBT_READ (R564, R579, R590, R617) -/

section
variable {s : State} {c : Cmd} {e : CatEntry} (hentry : slReadEntry s c = some e)
include hentry

/-- SL_READ of a skein with data on a retired lane is accepted and completes RETIRED (R590). -/
theorem slRead_run_of_retired {code : Nat} (hretired : (accept s 0x0603 c false).entryRetired e = some code) :
    (meanSlRead c).run s false = complete (accept s 0x0603 c false) c.stream 0x0603 c.tag .retired code := by
  dsimp only [meanSlRead]
  rw [hentry]
  dsimp only
  rw [hretired]

/-- SL_READ of a skein whose lanes serve is accepted and read on from its first part (R579). -/
theorem slRead_run_of_serving (hserves : (accept s 0x0603 c false).entryRetired e = none) :
    (meanSlRead c).run s false =
      readOn (accept s 0x0603 c false)
        { bench := c.bench.toNat, tag := c.tag, session := e.session, skein := e.skein, left := e.parts } e.parts := by
  dsimp only [meanSlRead]
  rw [hentry]
  dsimp only
  rw [hserves]
  rfl

end

section
variable {t : State} {r : LaneRead} {p : Nat × Nat × Nat} {rest : List (Nat × Nat × Nat)}
  (hserves : (t.entry? r.bench r.session r.skein).bind t.entryRetired = none)
include hserves

/-- A part waits while the regulator of the NAND path lets no page start (R617). -/
theorem readOn_of_held (hheld : t.mayStart r.bench 1 = false) :
    readOn t r (p :: rest) =
      { t with storage := { t.storage with reads := t.storage.reads ++ [{ r with left := p :: rest }] } } := by
  rw [readOn, hserves]
  exact if_neg (by rw [hheld]; decide)

/-- A part is read once the regulator of the NAND path lets a page start (R579, R617). -/
theorem readOn_of_started (hstarts : t.mayStart r.bench 1 = true) :
    readOn t r (p :: rest) =
      let q := readParts t r.bench r.session [p]
      readOn q.2.2.2 { r with bytes := r.bytes ++ q.1, good := r.good && q.2.1 } rest := by
  rw [readOn, hserves]
  exact if_pos hstarts

end

/-- Settles O14: the rows are their mailbox commands, taken and run; SL_READ by whether a lane with its data is retired, and part by part
by the regulator.  That the DATA goes out only once every page is read is the model's choice (log 29). -/
theorem storageCommandsComplete : Obligations.StorageCommandsComplete := by
  unfold Obligations.StorageCommandsComplete
  intro s c
  refine ⟨?query, ?stream, fun e h hentry => ⟨fun code hretired => ?retired, fun hserves => ?reads⟩,
    fun t r p rest => ⟨rfl, fun hserves => ⟨fun hheld => ?held, fun hstarts => ?started⟩⟩, ?bbtRead⟩
  case query => exact exec_of_checksPass rfl
  case stream => exact exec_of_checksPass rfl
  case retired => exact (exec_of_checksPass rfl h).trans (congrArg Host.Outcome.next (slRead_run_of_retired hentry hretired))
  case reads => exact (exec_of_checksPass rfl h).trans (congrArg Host.Outcome.next (slRead_run_of_serving hentry hserves))
  case held => exact readOn_of_held hserves hheld
  case started => exact readOn_of_started hserves hstarts
  case bbtRead => exact exec_of_checksPass rfl

/-! ### SL_FORMAT and SL_SCRUB (R590, R592) -/

section
variable {s : State} {c : Cmd}

theorem slFormat_run_of_retired {code : Nat} (h : (accept s 0x0604 c false).retiredIn (pf c 2 1 0) = some code) :
    (meanSlFormat c).run s false = complete (accept s 0x0604 c false) c.stream 0x0604 c.tag .retired code := by
  dsimp only [meanSlFormat]
  rw [h]

/-- SL_FORMAT formats every lane that it names and tells how many hanks are free then (R592). -/
theorem slFormat_run_of_serving (h : (accept s 0x0604 c false).retiredIn (pf c 2 1 0) = none) :
    (meanSlFormat c).run s false =
      let u := (accept s 0x0604 c false).each (maskLanes (pf c 2 1 0)) formatLane
      complete u c.stream 0x0604 c.tag .done ((maskLanes (pf c 2 1 0)).foldl (fun k x => k + (u.freeHanks x).length) 0) := by
  dsimp only [meanSlFormat]
  rw [h]

theorem slScrub_run_of_retired {code : Nat} (h : (accept s 0x0605 c false).retiredIn (pf c 2 1 0) = some code) :
    (meanSlScrub c).run s false = complete (accept s 0x0605 c false) c.stream 0x0605 c.tag .retired code := by
  dsimp only [meanSlScrub]
  rw [h]

/-- SL_SCRUB leaves its lanes to the scrub; with none it is complete (R590). -/
theorem slScrub_run_of_serving (h : (accept s 0x0605 c false).retiredIn (pf c 2 1 0) = none) :
    (meanSlScrub c).run s false =
      let t := accept s 0x0605 c false
      if pf c 2 1 0 = 0 then complete t c.stream 0x0605 c.tag .done 0
      else { t with storage := { t.storage with scrubBy := some (c.stream, c.tag, pf c 2 1 0, 0) } } := by
  dsimp only [meanSlScrub]
  rw [h]

end

/-- Settles O15: the rows are their mailbox commands, taken and run, by whether a lane that they name is retired.  SL_FORMAT as one
indivisible step, the completion RETIRED for a retired lane, and DONE with 0 for no lane are the model's choices (logs 29 and 30). -/
theorem storageLongCommandsComplete : Obligations.StorageLongCommandsComplete := by
  unfold Obligations.StorageLongCommandsComplete
  intro s c
  refine ⟨fun h => ⟨fun code hretired => ?notFormatted, fun hserves => ?formatted⟩,
    fun h => ⟨fun code hretired => ?notScrubbed, fun hserves hnone => ?noLane, fun hserves hsome => ?scrubs⟩⟩
  case notFormatted => exact (exec_of_checksPass rfl h).trans (congrArg Host.Outcome.next (slFormat_run_of_retired hretired))
  case formatted => exact (exec_of_checksPass rfl h).trans (congrArg Host.Outcome.next (slFormat_run_of_serving hserves))
  case notScrubbed => exact (exec_of_checksPass rfl h).trans (congrArg Host.Outcome.next (slScrub_run_of_retired hretired))
  case noLane =>
    exact (exec_of_checksPass rfl h).trans (congrArg Host.Outcome.next ((slScrub_run_of_serving hserves).trans (if_pos hnone)))
  case scrubs =>
    exact (exec_of_checksPass rfl h).trans (congrArg Host.Outcome.next ((slScrub_run_of_serving hserves).trans (if_neg hsome)))

/-! ### The NAND's own events (R547, R554, R558, R563, R576) -/

section
variable {s : State} {x : Nat}

section
variable {i : Issued} {rest : List Issued} (hissued : (s.lane x).issued = i :: rest)
include hissued

/-- The oldest program of a lane takes along the pages of the other planes that follow it (R547). -/
theorem finishProgram_of_issued : finishProgram s x = s.each (i :: rest.takeWhile Issued.joined) fun s _ => finishPage s x := by
  rw [finishProgram, hissued]
  rfl

/-- The page lies in its place; a page of the session in progress makes its blocks durable (R516, R563). -/
theorem finishPage_of_issued :
    finishPage s x =
      let t := s.setLane x { s.lane x with issued := rest, pages := (s.lane x).pages.put blankPage i.key i.page }
      if i.page.type = 1 ∧ i.page.session = (t.sess i.page.bench).session then
        followCapture (pageDurable t i.page.bench i.page.seq) i.page.bench
      else t := by
  unfold finishPage
  dsimp only
  rw [hissued]

end

/-- A page of a good block that returned data takes what it returns now, and is lost where that is uncorrectable (R554, R576). -/
theorem uncorrectable_of_pageBad {b page : Nat} {words : List Codeword}
    (htype : ((s.lane x).pages.get blankPage ((s.lane x).keyOf b page)).type ≠ 0)
    (hkept : ((s.lane x).pages.get blankPage ((s.lane x).keyOf b page)).lost = false)
    (hgood : b ∈ (s.lane x).goodBlocks ((s.lane x).hankOf b)) (hpage : page < (s.lane x).geom.pagesPerBlock)
    (hbad : pageBad words = true) :
    uncorrectable s x b page words =
      let l := s.lane x
      let key := l.keyOf b page
      losePage (s.setLane x { l with pages := l.pages.put blankPage key { l.pages.get blankPage key with words := words } }) x key :=
  if_neg (by simp [htype, hkept, hgood, hpage, hbad])

end

/-- Settles O16: each row is its equation, under the guard that the row checks.  That a busy timeout of a read only has the lane tested
(log 29), the failing copy of the system records, and the planes that pass together (log 77) are the model's choices. -/
theorem nandEventsComplete : Obligations.NandEventsComplete := by
  unfold Obligations.NandEventsComplete
  intro s x hlive
  refine ⟨fun i rest hissued => ⟨?programmed, fun hother => ?stays, fun htype hsession => ?durable⟩, fun _ => ?failed,
    fun k => ?system, fun b _ _ _ => ?erase, fun b page words htype hkept hgood hpage hbad => ?read, fun b hserves => ?busy⟩
  case programmed => exact congrArg Host.Outcome.next ((if_pos hlive).trans (finishProgram_of_issued hissued))
  case stays => exact (finishPage_of_issued hissued).trans (if_neg fun h => hother.elim (· h.1) (· h.2))
  case durable => exact (finishPage_of_issued hissued).trans (if_pos ⟨htype, hsession⟩)
  case failed => exact congrArg Host.Outcome.next (if_pos hlive)
  case system => exact congrArg Host.Outcome.next (if_pos hlive)
  case erase => exact congrArg Host.Outcome.next (if_pos hlive)
  case read => exact congrArg Host.Outcome.next ((if_pos hlive).trans (uncorrectable_of_pageBad htype hkept hgood hpage hbad))
  case busy =>
    have hgoes : ¬ (!s.laneServes x) = true := by rw [hserves]; decide
    exact ⟨congrArg Host.Outcome.next ((if_pos hlive).trans (if_neg hgoes)),
      congrArg Host.Outcome.next ((if_pos hlive).trans (if_neg hgoes)),
      congrArg Host.Outcome.next ((if_pos hlive).trans (if_neg hgoes))⟩

/-! ### The upkeep of a lane (R569 to R573) -/

/-- Settles O17: each row is its equation, under the guard that the row checks. -/
theorem laneUpkeepCompletes : Obligations.LaneUpkeepCompletes := by
  unfold Obligations.LaneUpkeepCompletes
  intro s x hlive hserves
  refine ⟨fun pages hruns hfree hgoes hdue => ?scrub, fun hquiet => ?wear, fun b hread => ?disturb,
    fun hfree hmoving => ?ends, fun hfree hidle => ?starts⟩
  case scrub => exact congrArg Host.Outcome.next (if_pos (by simpa [hruns, hserves, hfree, hgoes] using hdue))
  case wear => exact congrArg Host.Outcome.next (if_pos (by rw [hlive, hserves, hquiet]; rfl))
  case disturb => exact congrArg Host.Outcome.next (if_pos (by simpa [hlive, hserves] using hread))
  case ends => exact congrArg Host.Outcome.next ((if_pos (by rw [hlive, hfree]; rfl)).trans (if_pos hmoving))
  case starts =>
    exact congrArg Host.Outcome.next ((if_pos (by rw [hlive, hfree]; rfl)).trans (if_neg (by rw [hidle]; decide)))

end Sys2Proof.Machine
end

section
/-! PROOFS of the family 14_engines: the engine commands, and the events of the Umpire and the regulators. -/

namespace Sys2Proof.Machine

/-! ### Search and decode jobs (R594, R624, R625) -/

/-- A job over no input completes DONE at once; any other waits for an engine (R594, R624, R625). -/
def jobOver (s : State) (op : BitVec 16) (c : Cmd) (k : JobKind) (input : List (Nat × Nat × Item)) : State :=
  if input = [] then complete s c.stream op c.tag .done 0 else addJob s c.bench.toNat c.stream c.tag k input

section
variable {s : State} (op : BitVec 16) {c : Cmd} (k : JobKind) (r : Bool)

/-- A scan of the bobbin reads the selected skeins that it holds (R598, R624). -/
theorem startScan_of_bobbin (hsource : bitB (pw c 2) 0 = false) :
    startScan s op c k r =
      let t := accept s op c r
      jobOver t op c k (bobbinInput t c.bench.toNat (pw c 3).toNat (pw c 4).toNat) := by
  unfold startScan
  exact if_neg (by rw [hsource]; decide)

/-- A scan of stored skeins reads the selected entries back from the lanes, and is RETIRED where a lane with its data is retired (R598,
R624). -/
theorem startScan_of_stored (hsource : bitB (pw c 2) 0 = true) :
    let t := accept s op c r
    let es := t.selectedEntries c.bench.toNat (pf c 2 31 16) (pw c 3).toNat (pw c 4).toNat
    let q := storedInput t (es.map CatEntry.skein) [] (t.scanBefore c.bench.toNat es ++ es)
    (∀ code, es.findSome? t.entryRetired = some code → startScan s op c k r = complete t c.stream op c.tag .retired code) ∧
    (es.findSome? t.entryRetired = none → startScan s op c k r = jobOver q.2 op c k q.1) := by
  unfold startScan
  simp only [if_pos hsource]
  refine ⟨fun code hretired => ?_, fun hserves => ?_⟩
  · split
    next hcode => rw [Option.some_inj.mp (hcode.symm.trans hretired)]
    next hnone => cases hnone.symm.trans hretired
  · split
    next hcode => cases hcode.symm.trans hserves
    next => rfl

end

/-- JOB_CANCEL tells the job that it names to stop (R644). -/
theorem jobCancel_run_of_job {s : State} {c : Cmd} {j : Job} (h : cancelled s c = some j) :
    (meanJobCancel c).run s false = respond (tellStop s j Status.partial_.code 0) 0x0703 c .done 0 [] := by
  dsimp only [meanJobCancel]
  rw [h]
  rfl

/-- Settles O18: the rows are their mailbox commands, taken and run; a search or decode by where its selection lies.  How a job reads its
items, DONE for an empty selection (log 26), and the answer of JOB_CANCEL before the job ends (log 76) are the model's choices. -/
theorem engineCommandsComplete : Obligations.EngineCommandsComplete := by
  unfold Obligations.EngineCommandsComplete
  intro s c
  refine ⟨fun h hsource => ?searchBobbin, fun h hsource => ?searchStored, fun h hsource => ?decodeBobbin, fun h hsource => ?decodeStored,
    fun j h hjob => ?jobCancel, ?engQuery, ?plyConfig, ?regulatorSet⟩
  case searchBobbin => exact (exec_of_checksPass rfl h).trans (congrArg Host.Outcome.next (startScan_of_bobbin _ _ _ hsource))
  case searchStored =>
    obtain ⟨hretired, hserves⟩ := startScan_of_stored (s := takeCommand s 0x0701 c) 0x0701 (.search c.payload) false hsource
    have hexec : exec (.searchJob c) s = .next (startScan (takeCommand s 0x0701 c) 0x0701 c (.search c.payload) false) :=
      exec_of_checksPass rfl h
    exact ⟨fun code hcode => hexec.trans (congrArg Host.Outcome.next (hretired code hcode)),
      fun hnone => hexec.trans (congrArg Host.Outcome.next (hserves hnone))⟩
  case decodeBobbin => exact (exec_of_checksPass rfl h).trans (congrArg Host.Outcome.next (startScan_of_bobbin _ _ _ hsource))
  case decodeStored =>
    obtain ⟨hretired, hserves⟩ := startScan_of_stored (s := takeCommand s 0x0702 c) 0x0702 (.decode c.payload) false hsource
    have hexec : exec (.decodeJob c) s = .next (startScan (takeCommand s 0x0702 c) 0x0702 c (.decode c.payload) false) :=
      exec_of_checksPass rfl h
    exact ⟨fun code hcode => hexec.trans (congrArg Host.Outcome.next (hretired code hcode)),
      fun hnone => hexec.trans (congrArg Host.Outcome.next (hserves hnone))⟩
  case jobCancel => exact (exec_of_checksPass rfl h).trans (congrArg Host.Outcome.next (jobCancel_run_of_job hjob))
  case engQuery => exact exec_of_checksPass rfl
  case plyConfig => exact exec_of_checksPass rfl
  case regulatorSet => exact exec_of_checksPass rfl

/-! ### The Umpire and the regulators (R598, R602 to R604, R617) -/

section
variable {s : State} {e : Nat}

/-- At the prefetch point of a rally the choice is kept for the switch (R604, R605). -/
theorem umpireChooses_of_rally (hjob : (s.engine e).job.isSome = true) (hturns : s.interleaved e = false) (hne : e ≠ 8)
    (hopen : (s.engine e).chosen = none) :
    umpireChooses s e =
      let r := choose s e
      r.2.setEngine e { r.2.engine e with chosen := some r.1 } := by
  have hbusy : ¬ (s.engine e).job.isNone = true := by rw [Option.isNone_eq_false_iff.mpr hjob]; decide
  exact (if_neg hbusy).trans (if_neg (by simp [hturns, hne, hopen]))

/-- A rally ends with the choice made at its prefetch point (R602, R603). -/
theorem expireRally_of_chosen {k : Option Nat} (ok : Bool) (h : (s.engine e).chosen = some k) :
    expireRally s e ok = sweepOrphans (switchTo (rallyBoundary s e) e k ok) := by
  unfold expireRally
  rw [h]

/-- A rally that ends before its prefetch point chooses at its end (R602, R603). -/
theorem expireRally_of_open (ok : Bool) (h : (s.engine e).chosen = none) :
    expireRally s e ok =
      let r := choose s e
      sweepOrphans (switchTo (rallyBoundary r.2 e) e r.1 ok) := by
  unfold expireRally
  rw [h]

end

/-- Settles O19: each row is its equation, under the guard that the row checks. -/
theorem umpireEventsComplete : Obligations.UmpireEventsComplete := by
  unfold Obligations.UmpireEventsComplete
  intro s
  refine ⟨fun e hruns hidle => ?idle, fun e hruns hjob hturns hne hopen => ?prefetch, fun e ok k hrally hchosen => ?expiry,
    fun e ok hrally hopen => ?expiryOpen, fun e hrally hblocked => ?blocked, fun e hruns => ?stepEnd, fun hlive => ?refill⟩
  case idle => exact congrArg Host.Outcome.next ((if_pos hruns).trans (if_pos (by rw [hidle]; rfl)))
  case prefetch => exact congrArg Host.Outcome.next ((if_pos hruns).trans (umpireChooses_of_rally hjob hturns hne hopen))
  case expiry => exact congrArg Host.Outcome.next ((if_pos hrally).trans (expireRally_of_chosen ok hchosen))
  case expiryOpen => exact congrArg Host.Outcome.next ((if_pos hrally).trans (expireRally_of_open ok hopen))
  case blocked => exact congrArg Host.Outcome.next (if_pos (Bool.and_eq_true_iff.mpr ⟨hrally, hblocked⟩))
  case stepEnd => exact congrArg Host.Outcome.next (if_pos hruns)
  case refill => exact congrArg Host.Outcome.next (if_pos hlive)

end Sys2Proof.Machine
end

section
/-! PROOFS of the family 15_interval_unit: the IU_ commands, and the interval unit's own events. -/

namespace Sys2Proof.Machine

/-! ### The IU_ commands (R656, R659, R666, R674, R686) -/

/-- Settles O20: the rows are their mailbox commands, taken and run. -/
theorem intervalCommandsComplete : Obligations.IntervalCommandsComplete := by
  unfold Obligations.IntervalCommandsComplete
  intro s c
  refine ⟨?config, ?measure, ?calibrate, ?query, ?setAge⟩
  case config => exact exec_of_checksPass rfl
  case measure => exact exec_of_checksPass rfl
  case calibrate => exact exec_of_checksPass rfl
  case query => exact exec_of_checksPass rfl
  case setAge => exact exec_of_checksPass rfl

/-! ### The unit's own events (R651 to R653, R655, R660, R664, R665) -/

/-- A measurement is armed while it waits for START or collects STOPs. -/
theorem iuArmed_iff (s : State) : s.iuArmed = true ↔ s.iu.state = .waitStart ∨ s.iu.state = .collecting := by
  simp [State.iuArmed]

/-- While a measurement is armed, base time goes on with its coarse count (R651). -/
theorem iuClock_of_armed {s : State} (h : s.iu.state = .waitStart ∨ s.iu.state = .collecting) (coarse : Nat) :
    iuClock s coarse = { s with power := { s.power with baseTick := max s.power.baseTick (s.iu.armTick + 4 * coarse) } } :=
  if_pos ((iuArmed_iff s).mpr h)

section
variable {s : State} {src : Nat} {falling : Bool} {coarse code : Nat}

/-- The first wanted edge of the START source starts the measurement (R652, R653). -/
theorem iuStart_of_wanted (hstate : s.iu.state = .waitStart) (hsrc : src = s.iuStartSrc) (hedge : falling = bitB (s.eff .iuCfg) 3)
    (hcoarse : coarse ≤ s.iuTimeout) (hsees : s.iuSees src = true) :
    iuStart s src falling coarse code =
      { s with iu := { s.iu with state := .collecting, start := some ⟨src, falling, s.iu.nextInterp src, code, coarse⟩ } } :=
  if_pos ⟨hstate, hsrc, hedge, hcoarse, hsees⟩

/-- A wanted edge of a STOP source that is neither late nor too soon is recorded (R650, R652, R653). -/
theorem iuStop_of_wanted (hstate : s.iu.state = .collecting) (hsrc : (fld (s.eff .iuCfg) 8 4).testBit src = true)
    (hedge : s.iuStopSense falling = true) (hsees : s.iuSees src = true) (hcoarse : coarse ≤ s.iuTimeout)
    (hroom : s.iu.stops.length < s.iuWanted) (hsoon : s.iuTooSoon ⟨src, falling, s.iu.nextInterp src, code, coarse⟩ = false) :
    iuStop s src falling coarse code =
      { s with iu := { s.iu with stops := s.iu.stops ++ [⟨src, falling, s.iu.nextInterp src, code, coarse⟩] } } :=
  (if_pos ⟨hstate, hsrc, hedge, hsees⟩).trans <|
    (if_neg (Nat.not_lt.mpr hcoarse)).trans <| (if_neg (Nat.not_le.mpr hroom)).trans (if_neg (by rw [hsoon]; decide))

end

/-- The end of a measurement: where a STOP is missing, base time has reached TIMEOUT (R653). -/
def iuAtEnd (s : State) : State :=
  if s.iu.stops.length < s.iuWanted then
    { s with power := { s.power with baseTick := max s.power.baseTick (s.iu.armTick + 4 * s.iuTimeout) } }
  else s

/-- The unit idle again with the records of a measurement, which IU_MEAS counts (R655). -/
def iuReported (s u : State) (recs : List (List Word)) : State :=
  ({ u with iu := { s.iu with state := .idle, bench := none, start := none, stops := [], results := recs } } : State).bumpWrap
    .iuMeas 0 0 31 0 1

section
variable {s : State}

theorem iuAtEnd_cases (s : State) :
    ∃ tick, iuAtEnd s = { s with power := { s.power with baseTick := tick } } := by
  unfold iuAtEnd
  split
  · exact ⟨_, rfl⟩
  · exact ⟨s.power.baseTick, rfl⟩

variable (harmed : s.iu.state = .waitStart ∨ s.iu.state = .collecting)
include harmed

/-- A measurement of no job ends with a rally boundary of the unit (R655, R674). -/
theorem iuReport_of_no_job (hjob : s.jobOn 8 = none) :
    iuReport s = iuPump (sweepOrphans (applyIu (rallyBoundary (iuReported s (iuAtEnd s) (s.iuRecords 0)) 8))) := by
  obtain ⟨tick, hend⟩ := iuAtEnd_cases s
  rw [hend]
  unfold iuAtEnd at hend
  unfold iuReport
  simp only [if_pos harmed, iuClock_of_armed harmed, hjob, Option.map_none, hend]
  split
  next hnext => cases hnext.symm.trans hjob
  next => rfl

/-- A measurement of a job ends with the records of its number, and the job goes on or ends (R655, R670). -/
theorem iuReport_of_job {j : Job} {left made : Nat} (hjob : s.jobOn 8 = some j) (hkind : j.kind = .measure left made) :
    iuReport s =
      let held := ((iuAtEnd s).power.baseTick - s.iu.armTick) / 8
      let recs := s.iuRecords made
      iuPump (sweepOrphans (deliverRecords (chargeEngine (iuReported s (iuAtEnd s) recs) j.bench 8 held false) j left made recs)) := by
  obtain ⟨tick, hend⟩ := iuAtEnd_cases s
  rw [hend]
  unfold iuAtEnd at hend
  unfold iuReport
  simp only [if_pos harmed, iuClock_of_armed harmed, hjob, Option.map_some, hkind, hend]
  split
  next i hnext =>
    cases hnext.symm.trans hjob
    rw [hkind]
    rfl
  next hnext => cases hnext.symm.trans hjob

end

/-- Settles O21: each row is its equation, under the guard that the row checks; the end of a measurement by the job that it serves.  That
the rows move base time with the coarse count (log 80), and that edges bring their coarse count and code (log 52), are the model's
choices. -/
theorem intervalEventsComplete : Obligations.IntervalEventsComplete := by
  unfold Obligations.IntervalEventsComplete
  intro s
  refine ⟨fun p hlive => ?go, fun src falling coarse code hlive hstate hsrc hedge hcoarse hsees => ?start,
    fun src falling coarse code hlive hstate hsrc hedge hsees hcoarse hroom hsoon => ?stop,
    fun hlive harmed => ⟨fun hjob => ?noJob, fun j left made hjob hkind => ?job⟩, fun hits hlive hstate => ?calibration,
    fun temp hlive => ?temperature⟩
  case go =>
    exact ⟨congrArg Host.Outcome.next (accessWrite_of_pathLive hlive _ _),
      congrArg Host.Outcome.next (accessWrite_of_pathLive hlive _ _)⟩
  case start =>
    refine congrArg Host.Outcome.next ((if_pos hlive).trans ?_)
    rw [iuClock_of_armed (.inl hstate)]
    exact iuStart_of_wanted hstate hsrc hedge hcoarse hsees
  case stop =>
    refine congrArg Host.Outcome.next ((if_pos hlive).trans ?_)
    rw [iuClock_of_armed (.inr hstate)]
    exact iuStop_of_wanted hstate hsrc hedge hsees hcoarse hroom hsoon
  case noJob => exact congrArg Host.Outcome.next ((if_pos hlive).trans (iuReport_of_no_job harmed hjob))
  case job => exact congrArg Host.Outcome.next ((if_pos hlive).trans (iuReport_of_job harmed hjob hkind))
  case calibration => exact congrArg Host.Outcome.next (if_pos hlive)
  case temperature => exact congrArg Host.Outcome.next (if_pos hlive)

end Sys2Proof.Machine
end

section
/-! PROOFS of the family 16_two_wire: a full set of pending alerts, and the two-wire controller's events. -/

namespace Sys2Proof.Machine

/-! ### The alert state machine leaves the pending set and the counter of drops (R706, R709) -/

section
variable (s : State)

theorem setCState_side (c : CState) :
    Side (fun _ => False) (fun _ => True) { s with tw := { s.tw with cstate := c } } (setCState s c) := by
  unfold setCState
  dsimp only
  split
  · exact postAll_side _ _ _ (fun _ _ h => h) (Side.refl _)
  · exact Side.refl _

@[simp] theorem setCState_alerts (c : CState) : (setCState s c).tw.alerts = s.tw.alerts :=
  (setCState_side s c).read (z := { s with tw := { s.tw with cstate := c } }) (fun t => t.tw.alerts) fun _ => rfl

theorem setCState_rd_twAlertDrop (c : CState) : (setCState s c).rd .twAlertDrop = s.rd .twAlertDrop := by
  obtain ⟨-, hregs, -⟩ := setCState_side s c
  exact hregs ⟨.twAlertDrop, 0, 0⟩ (by decide) (by decide)

@[simp] theorem twKick_alerts : (twKick s).tw.alerts = s.tw.alerts := by
  unfold twKick
  dsimp only
  split
  · split <;> rfl
  · split <;> rfl
  · rfl

theorem twKick_rd_twAlertDrop : (twKick s).rd .twAlertDrop = s.rd .twAlertDrop := (SettledFrom.refl s).twKick.regWord _

end

/-! ### A full set of pending alerts (R706) -/

/-- The least urgent priority of a pending set. -/
def leastUrgent (as : List Alert) : Nat := as.foldl (fun m a => max m a.pri) 0

/-- The fold reaches the greatest of the priorities and its start, and where it rises above the start an alert has it. -/
theorem foldl_max_pri (as : List Alert) (m : Nat) :
    let worst := as.foldl (fun m a => max m a.pri) m
    m ≤ worst ∧ (∀ y ∈ as, y.pri ≤ worst) ∧ (m < worst → ∃ y ∈ as, y.pri = worst) := by
  induction as generalizing m with
  | nil => exact ⟨Nat.le_refl m, nofun, fun h => absurd h (Nat.lt_irrefl m)⟩
  | cons a as ih =>
    obtain ⟨hstart, hall, hsome⟩ := ih (max m a.pri)
    refine ⟨Nat.le_trans (Nat.le_max_left m a.pri) hstart, ?_, fun hlt => ?_⟩
    · rintro y (_ | ⟨_, hy⟩)
      · exact Nat.le_trans (Nat.le_max_right m a.pri) hstart
      · exact hall y hy
    · rcases Nat.lt_or_eq_of_le hstart with hlater | hfirst
      · obtain ⟨y, hy, hpri⟩ := hsome hlater
        exact ⟨y, List.mem_cons_of_mem a hy, hpri⟩
      · have hless : m < max m a.pri := Nat.lt_of_lt_of_eq hlt hfirst.symm
        have hmax : max m a.pri = a.pri := Nat.max_eq_right <| Nat.le_of_not_le fun hle =>
          Nat.lt_irrefl m (Nat.lt_of_lt_of_eq hless (Nat.max_eq_left hle))
        exact ⟨a, List.mem_cons_self, hmax.symm.trans hfirst⟩

theorem le_leastUrgent (as : List Alert) : ∀ y ∈ as, y.pri ≤ leastUrgent as := by
  obtain ⟨-, hall, -⟩ := foldl_max_pri as 0
  exact hall

theorem exists_leastUrgent {as : List Alert} {pri : Nat} (h : pri < leastUrgent as) : ∃ y ∈ as, y.pri = leastUrgent as := by
  obtain ⟨-, -, hsome⟩ := foldl_max_pri as 0
  exact hsome (Nat.zero_lt_of_lt h)

/-- What is dropped is the last of the least urgent alerts held. -/
theorem dropNewestLeast_spec {as : List Alert} (h : ∃ y ∈ as, y.pri = leastUrgent as) :
    ∃ (l r : List Alert) (x : Alert), as = l ++ x :: r ∧ x.pri = leastUrgent as ∧ (∀ y ∈ r, y.pri < x.pri) ∧
      dropNewestLeast as = l ++ r := by
  obtain ⟨y, hy, hpri⟩ := h
  obtain ⟨x, r, l, hafter, hx, hsplit, hdrop⟩ :=
    List.exists_of_eraseP (p := fun a => decide (a.pri = leastUrgent as)) (List.mem_reverse.mpr hy) (decide_eq_true hpri)
  have hx : x.pri = leastUrgent as := of_decide_eq_true hx
  have has : as = l.reverse ++ x :: r.reverse := by rw [← List.reverse_reverse as, hsplit]; simp
  refine ⟨l.reverse, r.reverse, x, has, hx, fun y hy => ?_, ?_⟩
  · have hne : y.pri ≠ leastUrgent as := by simpa using hafter y (List.mem_reverse.mp hy)
    have hle := le_leastUrgent as y (by rw [has]; exact List.mem_append_right _ (List.mem_cons_of_mem _ hy))
    omega
  · unfold dropNewestLeast
    dsimp only
    rw [leastUrgent] at hdrop
    rw [hdrop, List.reverse_append]

/-- Alert `a` joins the pending alerts `as`, and the alert state machine follows (R706, R709). -/
def takeAlert (s : State) (as : List Alert) (a : Alert) : State :=
  let t := { s with tw := { s.tw with alerts := as ++ [a], nextId := s.tw.nextId + 1 } }
  if t.tw.cstate = .parked ∧ a.pri = 0 then setCState t .backoff else twKick t

section
variable (s : State) (as : List Alert) (a : Alert)

theorem takeAlert_alerts : (takeAlert s as a).tw.alerts = as ++ [a] := by
  unfold takeAlert
  dsimp only
  split
  · rw [setCState_alerts]
  · rw [twKick_alerts]

theorem takeAlert_rd_twAlertDrop : (takeAlert s as a).rd .twAlertDrop = s.rd .twAlertDrop := by
  unfold takeAlert
  dsimp only
  split
  · rw [setCState_rd_twAlertDrop]
    rfl
  · rw [twKick_rd_twAlertDrop]
    rfl

end

section
variable {s : State} {pri : Nat} (hfull : 16 ≤ s.tw.alerts.length) (src bench code : Nat) (arg : BitVec 8)
include hfull

/-- An alert that is more urgent than the least urgent of a full set takes the place of one (R706). -/
theorem latchAlert_of_urgent (h : pri < leastUrgent s.tw.alerts) :
    latchAlert s pri src bench code arg =
      takeAlert (s.bumpSat .twAlertDrop 0 0 15 0 1) (dropNewestLeast s.tw.alerts) ⟨pri, src, bench, s.tw.nextId, code, arg⟩ :=
  (if_neg (Nat.not_lt.mpr hfull)).trans (if_pos h)

/-- An alert that is not is discarded itself (R706). -/
theorem latchAlert_of_not_urgent (h : ¬ pri < leastUrgent s.tw.alerts) :
    latchAlert s pri src bench code arg = s.bumpSat .twAlertDrop 0 0 15 0 1 :=
  (if_neg (Nat.not_lt.mpr hfull)).trans (if_neg h)

end

/-- Settles O52: the arriving alert against the least urgent priority held. -/
theorem fullAlertSet : Obligations.FullAlertSet := by
  unfold Obligations.FullAlertSet
  intro s pri src bench code arg hfull t drops
  have hcount : drops (s.bumpSat .twAlertDrop 0 0 15 0 1) = min 0xFFFF (drops s + 1) := fld_rd_bumpSat s .twAlertDrop 0 0 1 (by decide)
  by_cases hurgent : pri < leastUrgent s.tw.alerts
  case pos =>
    have ht : t = takeAlert _ _ _ := latchAlert_of_urgent hfull src bench code arg hurgent
    obtain ⟨l, r, x, has, hx, hafter, hdrop⟩ := dropNewestLeast_spec (exists_leastUrgent hurgent)
    have hdrops : drops t = drops (s.bumpSat .twAlertDrop 0 0 15 0 1) :=
      congrArg (fld · 15 0) (ht ▸ takeAlert_rd_twAlertDrop _ _ _)
    have halerts : t.tw.alerts = _ := ht ▸ takeAlert_alerts _ _ _
    refine ⟨hdrops.trans hcount, .inl ⟨l, r, x, has, hx ▸ le_leastUrgent s.tw.alerts, hafter, hx ▸ hurgent, ?_⟩⟩
    rw [halerts, hdrop]
  case neg =>
    have ht : t = _ := latchAlert_of_not_urgent hfull src bench code arg hurgent
    refine ⟨ht ▸ hcount, .inr ⟨fun y hy => ?_, ht ▸ rfl⟩⟩
    exact Nat.le_trans (le_leastUrgent s.tw.alerts y hy) (Nat.not_lt.mp hurgent)

/-! ### Reads of registers that are no queue's -/

/-- Survo firmware leaves alone no register but the read ports of queues (R280). -/
theorem leavesQueue_of_regAt (s : State) (p : Path) {a : Nat} {r : Reg} (hr : regAt (a % 0x10000) = some r) (hq : r.name ≠ .qRdLo)
    (haq : r.name ≠ .glbAqRdLo) : s.leavesQueue p a = false := by
  unfold State.leavesQueue
  split
  next r' _ hfor =>
    have hname : r' = r := by
      unfold State.regFor at hfor
      split at hfor
      · cases hfor
      · rw [hr] at hfor
        exact (Option.some_inj.mp (Option.filter_eq_some_iff.mp hfor).1).symm
    rw [hname, decide_eq_false hq, decide_eq_false haq]
    rfl
  next => rfl

/-- A read of such a register through a live path is made (R195). -/
theorem accessRead_of_register {s : State} {p : Path} (h : s.pathLive p = true) {a : Nat} {r : Reg} (hr : regAt (a % 0x10000) = some r)
    (hq : r.name ≠ .qRdLo) (haq : r.name ≠ .glbAqRdLo) :
    accessRead s p a =
      let e := busRead s p a
      e.2.2.setPath p { e.2.2.path p with data := [e.1], error := decide (e.2.1 ≠ 0) } :=
  (accessRead_of_pathLive h a).trans (if_neg (by rw [leavesQueue_of_regAt s p hr hq haq]; decide))

/-! ### The controller's events (R701, R704, R705, R708, R709, R711, R712, R716) -/

/-- The message of an alert that is being sent takes its outcome while the A9 may be controller (R708). -/
theorem sendNow_of_sending {s : State} {a : Alert} {last : Bool} (hsending : s.alertSending = some (a, last)) (hmay : s.mayControl = true)
    (hready : s.isReady = true) (out : XferOut) : sendNow s out = sendAlert s a last out := by
  unfold sendNow
  rw [hsending]
  exact if_pos (by rw [hmay, hready]; rfl)

/-- A loss of arbitration for an alert message lets the winner have the bus (R704, R705). -/
theorem exec_twArbitrationLoss_of_sending {s : State} {a : Alert} {last : Bool} (hsending : s.alertSending = some (a, last))
    (hmay : s.mayControl = true) (hready : s.isReady = true) (winner : BitVec 8) :
    exec (.twArbitrationLoss winner) s = .next (winnerTakes (sendAlert s a last .lost) winner s.twServes) := by
  rw [← sendNow_of_sending hsending hmay hready]
  dsimp only [exec, execTwArbitrationLoss]
  rw [hsending]
  exact congrArg Host.Outcome.next (if_pos (by rw [hmay, hready]; rfl))

/-- A loss of arbitration in pod discovery lets the winner have the bus (R160, R704). -/
theorem exec_twArbitrationLoss_of_pods {s : State} (hsending : s.alertSending = none) (hlive : s.live = true)
    (hphase : s.boot.phase = .pods) (hopen : s.boot.podsDone = false) (winner : BitVec 8) :
    exec (.twArbitrationLoss winner) s = .next (winnerTakes s winner s.twBootServes) := by
  dsimp only [exec, execTwArbitrationLoss]
  rw [hsending]
  exact congrArg Host.Outcome.next (if_pos ⟨hlive, hphase, by rw [hopen]; rfl⟩)

/-- Settles O24: each row is its equation, under the guard that the row checks; a loss of arbitration by whose message it meets.  That one
in pod discovery only lets the winner have the bus is the model's choice (log 71), which rests on R160. -/
theorem twoWireControllerCompletes : Obligations.TwoWireControllerCompletes := by
  unfold Obligations.TwoWireControllerCompletes
  intro s
  refine ⟨fun a last hsending hmay hready => ⟨fun out => ?sent, ?timeout, fun winner => ?lost⟩, fun hlive hserves => ?stuck,
    fun hlive hwait => ?wait, fun out hlive hbackoff => ?backoff, fun winner hsending hlive hphase hopen => ?podLost,
    fun p hlive => ?read⟩
  case sent => exact congrArg Host.Outcome.next (sendNow_of_sending hsending hmay hready out)
  case timeout => exact congrArg Host.Outcome.next (sendNow_of_sending hsending hmay hready .timeout)
  case lost => exact exec_twArbitrationLoss_of_sending hsending hmay hready winner
  case stuck => exact congrArg Host.Outcome.next (if_pos (by rw [hlive, hserves]; rfl))
  case wait => exact congrArg Host.Outcome.next (if_pos ⟨hlive, hwait⟩)
  case backoff => exact congrArg Host.Outcome.next (if_pos ⟨hlive, hbackoff⟩)
  case podLost => exact exec_twArbitrationLoss_of_pods hsending hlive hphase hopen winner
  case read =>
    exact congrArg Host.Outcome.next
      (accessRead_of_register hlive (r := ⟨.twAlertRdLo, 0, 0⟩) (by decide) (by decide) (by decide))

end Sys2Proof.Machine
end

section
/-! PROOFS of the family 17_usb: the bulk endpoints, and the register window on endpoint 0. -/

namespace Sys2Proof.Machine

section
variable {s : State} (hup : s.usbUp = true)
include hup

/-! ### Bulk OUT (R727 to R729) -/

/-- Words that arrive while none waits for the endpoint's queue are pushed frame by frame (R727). -/
theorem bulkOut_of_free {ep q : Nat} (ws : List Word) (hq : s.outQueue ep = some q)
    (hfree : (s.queue q).waiting.any (fun w => decide (w.1 = .bulkOut)) = false) :
    bulkOut s ep ws =
      let t := if ep < 9 then moveUsb s (ep - 1) (4 * ws.length) else s
      let all := (t.endpoint ep).partialOut ++ ws
      let r := pushFrames t q all (all.length / 16)
      r.2.setEndpoint ep { r.2.endpoint ep with partialOut := r.1 } := by
  unfold bulkOut
  rw [hq]
  exact if_neg (by rw [hup, hfree]; decide)

/-- A partial frame is discarded and counted (R728). -/
theorem partialFrame_of_queue {ep q : Nat} (hq : s.outQueue ep = some q) :
    partialFrame s ep = (s.setEndpoint ep { s.endpoint ep with partialOut := [] }).bumpSat .usbCnt 0 0 15 0 1 := by
  unfold partialFrame
  rw [hq]
  exact if_neg (by rw [hup]; decide)

/-! ### Bulk IN (R730 to R734, R750) -/

section
variable {ep q : Nat} (hq : s.outQueue ep = some q)
include hq

theorem endpoint_there : ¬ (!s.usbUp || (s.outQueue ep).isNone) = true := by
  rw [hup, hq, Option.isNone_some]
  decide

/-- What is left of a container cut short goes first (R750). -/
theorem nextIn_of_rest {c : Container} (hrest : (s.endpoint ep).rest = some c) : s.nextIn ep = some 4 := by
  unfold State.nextIn
  exact (if_neg (endpoint_there hup hq)).trans (if_pos (by rw [hrest]; rfl))

section
variable (hrest : (s.endpoint ep).rest = none)
include hrest

/-- A response or an event whose turn it is goes before DATA that does not continue a container (R733, R734). -/
theorem nextIn_of_words (hwhole : ∀ d ∈ (s.endpoint ep).data.head?, d.rest = false) :
    (s.nextKind ep = some 1 → s.rspReady ep = true → s.nextIn ep = some 1) ∧
    (s.nextKind ep = some 2 → s.evtReady ep = true → s.nextIn ep = some 2) := by
  have hno : ¬ ((s.endpoint ep).data.head?.map DataItem.rest).getD false = true := by
    cases hhead : (s.endpoint ep).data.head? with
    | none => decide
    | some d => simp [hwhole d (by rw [hhead]; rfl)]
  unfold State.nextIn
  dsimp only
  rw [if_neg (endpoint_there hup hq), if_neg (by rw [hrest]; decide), if_neg hno]
  refine ⟨fun hkind hready => ?_, fun hkind hready => ?_⟩
  · rw [hkind]
    exact if_pos hready
  · rw [hkind]
    exact if_pos hready

/-- DATA goes where it continues a container cut short or no word waits, once the regulator lets it start (R617, R734, R750). -/
theorem nextIn_of_data {d : DataItem} {rest : List DataItem} (hdata : (s.endpoint ep).data = d :: rest)
    (hturn : d.rest = true ∨ s.nextKind ep = none) (hstarts : s.mayStart (ep - 1) 2 = true) : s.nextIn ep = some 3 := by
  unfold State.nextIn
  dsimp only
  rw [if_neg (endpoint_there hup hq), if_neg (by rw [hrest]; decide), hdata, hstarts]
  rcases hturn with hcont | hnone
  · exact if_pos hcont
  · rw [hnone]
    exact ite_self _

end

end

end

section
variable {s : State} {ep : Nat}

theorem bulkIn_of_rsp (h : s.nextIn ep = some 1) : bulkIn s ep = sendRsp s ep := by
  unfold bulkIn
  rw [h]
  rfl

theorem bulkIn_of_evt (h : s.nextIn ep = some 2) : bulkIn s ep = sendEvt s ep := by
  unfold bulkIn
  rw [h]
  rfl

theorem bulkIn_of_data (h : s.nextIn ep = some 3) {d : DataItem} {rest : List DataItem} (hdata : (s.endpoint ep).data = d :: rest) :
    bulkIn s ep = sendItem s ep d rest := by
  unfold bulkIn
  rw [h, hdata]
  rfl

theorem bulkIn_of_rest (h : s.nextIn ep = some 4) :
    bulkIn s ep = s.setEndpoint ep { s.endpoint ep with sent := (s.endpoint ep).rest, rest := none } := by
  unfold bulkIn
  rw [h]
  rfl

end

/-! ### The endpoints and the register window (R726 to R739, R750) -/

/-- CLEAR_FEATURE discards the partial frame of an OUT endpoint (R735). -/
theorem clearHalt_of_out {s : State} {ep : BitVec 8} (gone : Option Nat) (hout : ep.toNat < 128) :
    clearHalt s ep gone = s.setEndpoint ep.toNat { s.endpoint ep.toNat with partialOut := [] } := if_pos hout

/-- CLEAR_FEATURE with no container under way leaves an IN endpoint (R735). -/
theorem clearHalt_of_in_idle {s : State} {ep : BitVec 8} (hin : 128 ≤ ep.toNat) : clearHalt s ep none = s :=
  if_neg (Nat.not_lt.mpr hin)

/-- CLEAR_FEATURE ends the container that an IN endpoint is sending (R750). -/
theorem clearHalt_of_in_sending {s : State} {ep : BitVec 8} (hin : 128 ≤ ep.toNat) (k : Nat) :
    clearHalt s ep (some k) = cutContainer s (ep.toNat - 128) k :=
  if_neg (Nat.not_lt.mpr hin)

/-- A window request is made where the link is up, the host's latest one is answered and the boot ROM does not stall it (R736, R739). -/
theorem window_goes {s : State} (hup : s.usbUp = true) (hphase : s.boot.phase ≠ .recovery) (hwaits : s.requestWaits = false) :
    ¬ ((!s.usbUp) = true ∨ s.requestWaits = true) ∧ ¬ (!s.windowThere) = true := by
  simp [State.windowThere, hup, hphase, hwaits]

/-- Settles O35: each row is its equation, under the guard that the row checks; an IN endpoint by what it sends next, a window request by
whether it is well formed.  What a partial frame is and how much of a container has gone come with the rows (logs 37 and 79). -/
theorem usbTransfersComplete : Obligations.UsbTransfersComplete := by
  unfold Obligations.UsbTransfersComplete
  intro s hup hphase
  have hthere : s.bulkThere = true := by simp [State.bulkThere, hup, hphase]
  refine ⟨fun ep q ws hq hfree => ?out, fun ep q hq => ?partialOut,
    fun ep q hin hq => ⟨fun c hrest => ?rest, fun hrest => ⟨fun hwhole => ⟨fun hkind hready => ?rsp, fun hkind hready => ?evt⟩,
      fun d rest hdata hturn hstarts => ?data⟩⟩,
    fun ep gone => ⟨fun hout => ?clearOut, fun hin => ⟨fun hgone => ?clearIn, fun k hgone => ?cut⟩⟩,
    fun wValue wIndex wLength hwaits => ⟨fun hok => ?made, fun hok => ?malformed⟩⟩
  case out => exact congrArg Host.Outcome.next ((if_pos hthere).trans (bulkOut_of_free hup ws hq hfree))
  case partialOut => exact congrArg Host.Outcome.next ((if_pos hthere).trans (partialFrame_of_queue hup hq))
  case rest =>
    refine congrArg Host.Outcome.next ((if_pos ⟨hthere, hin⟩).trans ?_)
    rw [bulkIn_of_rest (nextIn_of_rest hup hq hrest), hrest]
  case rsp =>
    obtain ⟨hrsp, -⟩ := nextIn_of_words hup hq hrest hwhole
    exact congrArg Host.Outcome.next ((if_pos ⟨hthere, hin⟩).trans (bulkIn_of_rsp (hrsp hkind hready)))
  case evt =>
    obtain ⟨-, hevt⟩ := nextIn_of_words hup hq hrest hwhole
    exact congrArg Host.Outcome.next ((if_pos ⟨hthere, hin⟩).trans (bulkIn_of_evt (hevt hkind hready)))
  case data =>
    exact congrArg Host.Outcome.next ((if_pos ⟨hthere, hin⟩).trans
      (bulkIn_of_data (nextIn_of_data hup hq hrest hdata hturn hstarts) hdata))
  case clearOut => exact congrArg Host.Outcome.next ((if_pos hthere).trans (clearHalt_of_out gone hout))
  case clearIn => exact congrArg Host.Outcome.next ((if_pos hthere).trans (hgone ▸ clearHalt_of_in_idle hin))
  case cut => exact congrArg Host.Outcome.next ((if_pos hthere).trans (hgone ▸ clearHalt_of_in_sending hin k))
  case made =>
    obtain ⟨hasked, hwindow⟩ := window_goes hup hphase hwaits
    have hgood : ¬ (!requestOk wIndex wLength) = true := by rw [hok]; decide
    exact ⟨congrArg Host.Outcome.next ((if_neg hasked).trans ((if_neg hwindow).trans (if_neg hgood))),
      fun data => congrArg Host.Outcome.next ((if_neg hasked).trans ((if_neg hwindow).trans (if_neg hgood)))⟩
  case malformed =>
    obtain ⟨hasked, hwindow⟩ := window_goes hup hphase hwaits
    have hbad : (!requestOk wIndex wLength) = true := by rw [hok]; rfl
    exact ⟨congrArg Host.Outcome.next ((if_neg hasked).trans ((if_neg hwindow).trans (if_pos hbad))),
      fun data => congrArg Host.Outcome.next ((if_neg hasked).trans ((if_neg hwindow).trans (if_pos hbad)))⟩

end Sys2Proof.Machine
end

section
/-! PROOFS of the family 18_faults: errors on resources under test or retired, the booking of verdicts, and the fault commands. -/

namespace Sys2Proof.Machine

/-! ### Errors that join a test (R778, R780) -/

/-- Settles O50: an error joins the test that waits or runs, and one on a retired resource is dropped. -/
theorem errorsJoinTests : Obligations.ErrorsJoinTests := by
  unfold Obligations.ErrorsJoinTests
  intro s res code h
  have hdropped : (s.isRetired res || s.underTest res || s.onProbation res) = true := by
    rcases h with htest | hretired
    · rw [htest, Bool.or_true, Bool.true_or]
    · rw [hretired, Bool.true_or, Bool.true_or]
  exact if_pos hdropped

/-! ### The Referee's books (R755 to R759, R768, R774) -/

/-- The Referee's books: its state, the retained set of retired resources, and the time that lets are counted in. -/
def State.books (s : State) : Referee × List (Word × Nat) × Nat := (s.ref, s.fw.retained, s.power.baseTick)

theorem Side.books {P Q : Nat → Prop} {s t : State} (h : Side P Q s t) : t.books = s.books := h.read State.books fun _ => rfl

section
variable (s : State)

@[simp] theorem bumpSat_books (n : RegName) (i j hi lo k : Nat) : (s.bumpSat n i j hi lo k).books = s.books := rfl

@[simp] theorem setCState_books (c : CState) : (setCState s c).books = s.books := (setCState_side s c).books

@[simp] theorem twKick_books : (twKick s).books = s.books := by
  unfold twKick
  dsimp only
  split
  · split
    · exact setCState_books s .sending
    · rfl
  · split
    · rfl
    · exact setCState_books s .idle
  · rfl

theorem takeAlert_books (as : List Alert) (a : Alert) : (takeAlert s as a).books = s.books := by
  unfold takeAlert
  dsimp only
  split
  · exact setCState_books _ _
  · exact twKick_books _

/-- An alert does not touch the books. -/
@[simp] theorem latchAlert_books (pri src bench code : Nat) (arg : BitVec 8) : (latchAlert s pri src bench code arg).books = s.books := by
  obtain hroom | hfull := Nat.lt_or_ge s.tw.alerts.length 16
  · have hlatched : latchAlert s pri src bench code arg = takeAlert s s.tw.alerts ⟨pri, src, bench, s.tw.nextId, code, arg⟩ :=
      if_pos hroom
    rw [hlatched, takeAlert_books]
  · by_cases hurgent : pri < leastUrgent s.tw.alerts
    · rw [latchAlert_of_urgent hfull src bench code arg hurgent, takeAlert_books, bumpSat_books]
    · rw [latchAlert_of_not_urgent hfull src bench code arg hurgent, bumpSat_books]

@[simp] theorem verdictAlert_books (res : Word) (code : Nat) (v : Verdict) (three : Bool) :
    (verdictAlert s res code v three).books = s.books := by
  unfold verdictAlert
  cases v with
  | retire => exact latchAlert_books ..
  | let_ =>
    dsimp only
    split
    · exact latchAlert_books ..
    · rfl
  | rejoined => rfl

/-- Events to open benches do not touch the books. -/
theorem postEvents_books {l : List Nat} (hl : ∀ n ∈ l, n ∈ s.openBenches) (code : BitVec 16) (arg : Nat) :
    (s.each l fun s n => postEvent s n code arg).books = s.books :=
  (foldl_side (P := fun _ => False) (Q := fun _ => False) l _ s
    (fun t n hn => sendEvent_side t n code 0 0 arg (mem_openBenches (hl n hn)) fun h => h) (Side.refl s)).books

theorem State.mem_openBenches_of_mem_usersOf {res : Word} {n : Nat} (h : n ∈ s.usersOf res) : n ∈ s.openBenches := by
  unfold State.usersOf at h
  split at h
  · exact (List.mem_filter.mp h).1
  · exact (List.mem_filter.mp h).1
  · exact h

@[simp] theorem postFault_books (res : Word) (code : Nat) (v : Verdict) (three : Bool) :
    (postFault s res code v three).books = s.books := by
  unfold postFault
  dsimp only
  split
  · exact postEvents_books s (fun n hn => (List.mem_filter.mp hn).1) 0x8B01 _
  · exact postEvents_books s (fun n hn => s.mem_openBenches_of_mem_usersOf hn) 0x8B01 _

@[simp] theorem diverge_books (kind tick source word : Nat) : (diverge s kind tick source word).books = s.books :=
  (diverge_side (P := fun _ => False) (Q := fun _ => False) s kind tick source word (Side.refl s)).books

/-- The entry of a verdict in the Referee's log (R774). -/
def State.verdictEntry (res : Word) (code : Nat) (v : Verdict) (three requested : Bool) : List Word :=
  [W (code + v.code * 2 ^ 16 + bN three * 2 ^ 18 + bN requested * 2 ^ 19 + (s.resOwner res).getD 15 * 2 ^ 20 +
    s.ref.written % 256 * 2 ^ 24), res] ++ lohi (s.power.baseTick % 2 ^ 56)

/-- The Referee with an entry more in its log (R774). -/
def Referee.entered (r : Referee) (entry : List Word) : Referee :=
  { r with log := r.log.put (fun _ => []) (r.written % 256) entry, written := r.written + 1 }

theorem writeVerdict_books (res : Word) (code : Nat) (v : Verdict) (three requested : Bool) :
    (writeVerdict s res code v three requested).books =
      (s.ref.entered (s.verdictEntry res code v three requested), s.fw.retained, s.power.baseTick) :=
  (logPart_side (P := fun _ => False) (Q := fun _ => False) _ _ _ (Side.refl _)).books

/-- A let is noted before the others of the last 10 s (R757, R758). -/
theorem noteLet_books (res : Word) :
    ∃ others, (noteLet s res).books =
      ({ s.ref with lets := (res, s.power.baseTick :: s.recentLets res) :: others }, s.fw.retained, s.power.baseTick) :=
  ⟨_, rfl⟩

theorem books_eq_iff (t : State) (r : Referee) (l : List (Word × Nat)) (now : Nat) :
    t.books = (r, l, now) ↔ t.ref = r ∧ t.fw.retained = l ∧ t.power.baseTick = now := by
  simp [State.books]

/-- The lets of a resource are read from the books. -/
theorem recentLets_of_books {t : State} (hlets : t.ref.lets = s.ref.lets) (hnow : t.power.baseTick = s.power.baseTick) (res : Word) :
    t.recentLets res = s.recentLets res := by
  simp only [State.recentLets, hlets, hnow]

/-! ### What a reported verdict leaves in the books -/

section
variable (res : Word) (code : Nat) (three : Bool)

/-- A retire is entered (R774). -/
theorem reportVerdict_retire_books (requested : Bool) :
    (reportVerdict s res code .retire three requested).books =
      (s.ref.entered (s.verdictEntry res code .retire three requested), s.fw.retained, s.power.baseTick) := by
  rw [← writeVerdict_books]
  dsimp only [reportVerdict]
  split
  · rw [diverge_books, verdictAlert_books, postFault_books, bumpSat_books]
  · rw [verdictAlert_books, postFault_books, bumpSat_books]

/-- A let of a test that a command requested is entered and counted nowhere (R759). -/
theorem reportVerdict_requestedLet_books :
    (reportVerdict s res code .let_ three true).books =
      (s.ref.entered (s.verdictEntry res code .let_ three true), s.fw.retained, s.power.baseTick) :=
  writeVerdict_books s res code .let_ three true

/-- Any other let is entered and noted with its time (R757, R774). -/
theorem reportVerdict_let_books :
    ∃ others, (reportVerdict s res code .let_ three false).books =
      ({ s.ref.entered (s.verdictEntry res code .let_ three false) with
        lets := (res, s.power.baseTick :: s.recentLets res) :: others }, s.fw.retained, s.power.baseTick) := by
  have hwritten := writeVerdict_books s res code .let_ three false
  dsimp only [reportVerdict]
  generalize writeVerdict s res code .let_ three false = w at hwritten
  obtain ⟨href, hretained, hnow⟩ := (books_eq_iff _ _ _ _).mp hwritten
  obtain ⟨others, hnoted⟩ := noteLet_books (w.bumpSat .refCnt 0 0 15 0 1) res
  have hrecent : (w.bumpSat .refCnt 0 0 15 0 1).recentLets res = s.recentLets res :=
    recentLets_of_books s (t := w.bumpSat .refCnt 0 0 15 0 1) (show w.ref.lets = s.ref.lets from href ▸ rfl) hnow res
  refine ⟨others, ?_⟩
  rw [if_neg Bool.false_ne_true, verdictAlert_books, postFault_books, hnoted, hrecent]
  show ({ w.ref with lets := (res, w.power.baseTick :: s.recentLets res) :: others }, w.fw.retained, w.power.baseTick) = _
  rw [href, hretained, hnow]

/-- The lets noted after a let, by whether a command requested the test. -/
theorem reportVerdict_let_cases (requested : Bool) :
    ∃ lets : List (Word × List Nat),
      (reportVerdict s res code .let_ false requested).books =
        ({ s.ref.entered (s.verdictEntry res code .let_ false requested) with lets := lets }, s.fw.retained, s.power.baseTick) ∧
      lets.head? = if requested then s.ref.lets.head? else some (res, s.power.baseTick :: s.recentLets res) := by
  cases requested with
  | true => exact ⟨s.ref.lets, reportVerdict_requestedLet_books s res code false, rfl⟩
  | false =>
    obtain ⟨others, hbooks⟩ := reportVerdict_let_books s res code false
    exact ⟨_, hbooks, rfl⟩

end

end

/-! ### Verdicts (R755 to R759, R768, R774) -/

/-- The fault code that a verdict is booked with: the resource's own for a test that a command requested (R752, R759). -/
def RefTest.bookedCode (x : RefTest) : Nat := if x.requested then resType x.res * 256 else x.code

section
variable {s : State} {x : RefTest} {pass : Bool}

/-- The verdict retires where the test failed or its let would be the third within 10 s (R756, R757). -/
theorem judge_eq (s : State) (x : RefTest) (pass : Bool) :
    judge s x pass =
      let three := pass && !x.requested && decide (2 ≤ (s.recentLets x.res).length)
      (!pass || three, three) := rfl

theorem bookVerdict_of_retire {three : Bool} (h : judge s x pass = (true, three)) :
    bookVerdict s x pass =
      (true, bookRetire (reportVerdict s x.res x.bookedCode .retire three x.requested) x.res x.bookedCode) := by
  unfold bookVerdict
  rw [h]
  rfl

theorem bookVerdict_of_let {three : Bool} (h : judge s x pass = (false, three)) :
    bookVerdict s x pass = (false, reportVerdict s x.res x.bookedCode .let_ false x.requested) := by
  unfold bookVerdict
  rw [h]
  rfl

/-- A retired resource stands in the retired set, which is kept in the retention image as it changes (R768, R772). -/
theorem bookRetire_retired (s : State) {res : Word} (code : Nat) (htype : resType res ≠ 5) :
    (∃ k, (res, k) ∈ (bookRetire s res code).ref.retired) ∧
    (bookRetire s res code).fw.retained =
      (if s.ref.retired.any (fun p => decide (p.1 = res)) then s.fw.retained else (bookRetire s res code).ref.retired) := by
  by_cases hin : s.ref.retired.any (fun p => decide (p.1 = res)) = true
  case pos =>
    have hbook : bookRetire s res code = s := if_pos (.inr hin)
    rw [hbook, if_pos hin]
    obtain ⟨⟨r, k⟩, hmem, hres⟩ := List.any_eq_true.mp hin
    exact ⟨⟨k, of_decide_eq_true hres ▸ hmem⟩, rfl⟩
  case neg =>
    have hbook : bookRetire s res code = retainRetired { s with ref := { s.ref with retired := s.ref.retired ++ [(res, code)] } } :=
      if_neg fun h => h.elim htype hin
    rw [hbook, if_neg hin]
    exact ⟨⟨code, List.mem_append_right _ List.mem_cons_self⟩, rfl⟩

/-- Booking a retire leaves the Referee's log. -/
theorem bookRetire_log (s : State) (res : Word) (code : Nat) : (bookRetire s res code).ref.log = s.ref.log := by
  unfold bookRetire
  split <;> rfl

theorem bookRetire_written (s : State) (res : Word) (code : Nat) : (bookRetire s res code).ref.written = s.ref.written := by
  unfold bookRetire
  split <;> rfl

/-- An entry stands in its place of the ring (R774). -/
theorem Referee.entered_log (r : Referee) (entry : List Word) :
    (r.entered entry).log.get (fun _ => []) (r.written % 256) = entry := Store.get_put_same _ _ _ _

end

/-- Settles O51: the verdict by whether it retires, a let by whether a command requested the test.  Verdicts on NAND blocks, resources of
type 5, are left out. -/
theorem verdictsBooked : Obligations.VerdictsBooked := by
  unfold Obligations.VerdictsBooked
  intro s x pass htype t retire third three code
  have hjudge : judge s x pass = (!pass || three, three) := judge_eq s x pass
  cases hretires : (!pass || three)
  case true =>
    rw [hretires] at hjudge
    have hbook := bookVerdict_of_retire hjudge
    obtain ⟨href, hretained, -⟩ := (books_eq_iff _ _ _ _).mp (reportVerdict_retire_books s x.res x.bookedCode three x.requested)
    generalize reportVerdict s x.res x.bookedCode .retire three x.requested = r at hbook href hretained
    have ht : t = bookRetire r x.res x.bookedCode := congrArg Prod.snd hbook
    have hretire : retire = true := congrArg Prod.fst hbook
    have hset := bookRetire_retired r x.bookedCode htype
    rw [hretained, href, ← ht] at hset
    have hlog : t.ref.log = (s.ref.entered (s.verdictEntry x.res x.bookedCode .retire three x.requested)).log :=
      ht ▸ (bookRetire_log r x.res x.bookedCode).trans (congrArg Referee.log href)
    have hwritten : t.ref.written = s.ref.written + 1 :=
      ht ▸ (bookRetire_written r x.res x.bookedCode).trans (congrArg Referee.written href)
    refine ⟨hretire, fun _ => hset, fun h => absurd (h.symm.trans hretire) Bool.false_ne_true, hwritten, ?_⟩
    rw [hlog, Referee.entered_log, hretire]
    rfl
  case false =>
    rw [hretires] at hjudge
    have hbook := bookVerdict_of_let hjudge
    have ht : t = reportVerdict s x.res x.bookedCode .let_ false x.requested := congrArg Prod.snd hbook
    have hretire : retire = false := congrArg Prod.fst hbook
    have hthree : three = false := (Bool.or_eq_false_iff.mp hretires).2
    obtain ⟨lets, hbooks, hlets⟩ := reportVerdict_let_cases s x.res x.bookedCode x.requested
    obtain ⟨href, -, -⟩ := (books_eq_iff _ _ _ _).mp (ht ▸ hbooks)
    refine ⟨hretire, fun h => absurd (hretire.symm.trans h) Bool.false_ne_true, fun _ => ⟨href ▸ rfl, ?_⟩, href ▸ rfl, ?_⟩
    · rw [href]
      exact hlets
    · rw [href, hretire, hthree]
      exact s.ref.entered_log (s.verdictEntry x.res x.bookedCode .let_ false x.requested)

/-! ### The fault commands (R759, R771, R786 to R789) -/

/-- Settles O26: the rows are their mailbox commands, taken and run; GO of REF_TEST_CTL is a write through a path. -/
theorem faultCommandsComplete : Obligations.FaultCommandsComplete := by
  unfold Obligations.FaultCommandsComplete
  intro s c
  refine ⟨?list, ?inService, ?test, ?return_, fun p hlive => ?go⟩
  case list => exact exec_of_checksPass rfl
  case inService => exact exec_of_checksPass rfl
  case test => exact exec_of_checksPass rfl
  case return_ => exact exec_of_checksPass rfl
  case go => exact congrArg Host.Outcome.next (accessWrite_of_pathLive hlive _ _)

end Sys2Proof.Machine
end

section
/-! PROOFS of the family 19_calendar: the calendar's count with every carry, its commits, its commands, and what resets leave of it. -/

namespace Sys2Proof.Machine

/-! ### Every step keeps the calendar in range -/

/-- Settles O43: the ranges are one of the things that every command and every idle tick keeps. -/
theorem stepKeepsCalendarInRange : Obligations.StepKeepsCalendarInRange := by
  unfold Obligations.StepKeepsCalendarInRange
  intro s t hs h
  obtain ⟨-, -, hcal⟩ := step_keeps s t h
  exact hcal hs

/-! ### Days, months and years (R792, R796) -/

theorem monthDays_pos (y m : Nat) : 1 ≤ monthDays y m := by
  unfold monthDays
  split
  · split <;> omega
  · split <;> omega

theorem daysBeforeMonth_succ (y : Nat) {m : Nat} (hm : 1 ≤ m) : daysBeforeMonth y (m + 1) = daysBeforeMonth y m + monthDays y m := by
  obtain ⟨k, rfl⟩ := Nat.exists_eq_add_of_le' hm
  rfl

/-- The twelve months make the year. -/
theorem daysBeforeMonth_thirteen (y : Nat) : daysBeforeMonth y 13 = yearDays y := by
  simp only [daysBeforeMonth, monthDays, yearDays]
  cases leapYear y <;> rfl

/-- A later month has no fewer days before it. -/
theorem daysBeforeMonth_le (y : Nat) {m n : Nat} (hm : 1 ≤ m) (h : m ≤ n) : daysBeforeMonth y m ≤ daysBeforeMonth y n := by
  induction h with
  | refl => exact Nat.le_refl _
  | @step n h ih =>
    rw [Nat.succ_eq_add_one, daysBeforeMonth_succ y (Nat.le_trans hm h)]
    exact Nat.le_trans ih (Nat.le_add_right _ _)

/-- A later year has no fewer days before it. -/
theorem daysBeforeYear_le {y z : Nat} (h : y ≤ z) : daysBeforeYear y ≤ daysBeforeYear z := by
  induction h with
  | refl => exact Nat.le_refl _
  | step _ ih => exact Nat.le_trans ih (Nat.le_add_right _ _)

/-- To the end of 2199 the years divisible by 4 are leap years, 2100 apart (R792). -/
theorem leapYear_iff {y : Nat} (hy : y ≤ 199) : leapYear y = true ↔ y % 4 = 0 ∧ y ≠ 100 := by
  simp only [leapYear, Bool.and_eq_true, Bool.or_eq_true, beq_iff_eq, bne_iff_ne]
  omega

theorem daysBeforeYear_eq {y : Nat} (hy : y ≤ 200) :
    (y ≤ 100 → daysBeforeYear y = 365 * y + (y + 3) / 4) ∧ (100 < y → daysBeforeYear y + 1 = 365 * y + (y + 3) / 4) := by
  induction y with
  | zero => exact ⟨fun _ => rfl, nofun⟩
  | succ y ih =>
    have hbefore := ih (by omega)
    simp only [daysBeforeYear, yearDays, leapYear_iff (show y ≤ 199 by omega)]
    split <;> omega

/-- 2000 to 2199 have 73,049 days. -/
theorem daysBeforeYear_end : daysBeforeYear 200 = 73049 := by
  obtain ⟨-, hlate⟩ := daysBeforeYear_eq (Nat.le_refl 200)
  have hend := hlate (by decide)
  omega

theorem dayNumber_next_day (y m : Nat) {d : Nat} (hd : 1 ≤ d) : dayNumber y m (d + 1) = dayNumber y m d + 1 := by
  unfold dayNumber
  omega

theorem dayNumber_next_month (y : Nat) {m : Nat} (hm : 1 ≤ m) : dayNumber y (m + 1) 1 = dayNumber y m (monthDays y m) + 1 := by
  have hdays := monthDays_pos y m
  unfold dayNumber
  rw [daysBeforeMonth_succ y hm]
  omega

theorem dayNumber_next_year (y : Nat) : dayNumber (y + 1) 1 1 = dayNumber y 12 31 + 1 := by
  have hyear : daysBeforeMonth y 12 + 31 = yearDays y := (daysBeforeMonth_succ y (by decide)).symm.trans (daysBeforeMonth_thirteen y)
  have hjanuary : daysBeforeMonth (y + 1) 1 = 0 := rfl
  rw [dayNumber, dayNumber, daysBeforeYear, hjanuary]
  omega

theorem dayNumber_first (y : Nat) : dayNumber y 1 1 = daysBeforeYear y := rfl

/-- 2199-12-31 is the last of the 73,049 days. -/
theorem dayNumber_end : dayNumber 199 12 31 = 73048 := by
  have hnext := dayNumber_first 200
  rw [dayNumber_next_year, daysBeforeYear_end] at hnext
  omega

namespace Calendar

variable {c : Calendar}

/-- A date of the calendar lies before 2200-01-01. -/
theorem InRange.today_lt (h : c.InRange) : c.today < 73049 := by
  obtain ⟨hyear, hmonth, hmonth', hday, hday', -⟩ := h
  have hofMonth := daysBeforeMonth_succ c.year hmonth
  have hofYear : daysBeforeMonth c.year (c.month + 1) ≤ yearDays c.year :=
    daysBeforeMonth_thirteen c.year ▸ daysBeforeMonth_le c.year (Nat.le_add_left 1 c.month) (show c.month + 1 ≤ 13 by omega)
  have hofAll := daysBeforeYear_le (show c.year + 1 ≤ 200 by omega)
  rw [daysBeforeYear_end, daysBeforeYear] at hofAll
  unfold today dayNumber
  omega

theorem InRange.linear_lt (h : c.InRange) : c.linear < 73049 * 86400 * 2 ^ 15 := by
  have htoday := h.today_lt
  obtain ⟨-, -, -, -, -, hhour, hminute, hsecond, hsub⟩ := h
  unfold linear seconds
  omega

/-- The last sub-second of 2199. -/
def AtEnd (c : Calendar) : Prop :=
  c.year = 199 ∧ c.month = 12 ∧ c.day = 31 ∧ c.hour = 23 ∧ c.minute = 59 ∧ c.second = 59 ∧ c.sub = 32767

theorem AtEnd.linear (h : c.AtEnd) : c.linear + 1 = 73049 * 86400 * 2 ^ 15 := by
  obtain ⟨hyear, hmonth, hday, hhour, hminute, hsecond, hsub⟩ := h
  have htoday : c.today = 73048 := by
    rw [today, hyear, hmonth, hday, dayNumber_end]
  unfold Calendar.linear seconds
  omega

/-- After the last sub-second of 2199 the calendar starts anew and sets WRAP (R794). -/
theorem AtEnd.advance (h : c.AtEnd) :
    c.advance =
      { c with sub := 0, second := 0, minute := 0, hour := 0, day := 1, month := 1, year := 0, wrap := true } := by
  obtain ⟨hyear, hmonth, hday, hhour, hminute, hsecond, hsub⟩ := h
  simp [Calendar.advance, hyear, hmonth, hday, hhour, hminute, hsecond, hsub, monthDays]

/-- Every other sub-second is followed by the next one, whichever fields it carries into (R791, R793). -/
theorem InRange.advance_of_not_atEnd (h : c.InRange) (hend : ¬ c.AtEnd) :
    c.advance.linear = c.linear + 1 ∧ c.advance.wrap = c.wrap := by
  obtain ⟨hyear, hmonth, hmonth', hday, hday', hhour, hminute, hsecond, hsub⟩ := h
  have hdecember (hm : c.month = 12) : monthDays c.year c.month = 31 := hm ▸ rfl
  have hnextDay := dayNumber_next_day c.year c.month hday
  have hnextMonth (hlast : c.day = monthDays c.year c.month) :
      dayNumber c.year (c.month + 1) 1 = dayNumber c.year c.month c.day + 1 := by
    rw [dayNumber_next_month c.year hmonth, ← hlast]
  have hnextYear (hm : c.month = 12) (hlast : c.day = monthDays c.year c.month) :
      dayNumber (c.year + 1) 1 1 = dayNumber c.year c.month c.day + 1 := by
    rw [dayNumber_next_year, hlast, hdecember hm, hm]
  unfold Calendar.advance
  iterate 5
    split
    · exact ⟨by simp only [linear, seconds, today]; omega, rfl⟩
  split
  · have hnext := hnextMonth (by omega)
    exact ⟨by simp only [linear, seconds, today]; omega, rfl⟩
  have hm : c.month = 12 := by omega
  have hlast := hdecember hm
  split
  · have hnext := hnextYear hm (by omega)
    exact ⟨by simp only [linear, seconds, today]; omega, rfl⟩
  · exact absurd ⟨by omega, hm, by omega, by omega, by omega, by omega, by omega⟩ hend

/-- Away from the end the linear value is not the last one. -/
theorem InRange.linear_ne_of_not_atEnd (h : c.InRange) (hend : ¬ c.AtEnd) : c.linear + 1 ≠ 73049 * 86400 * 2 ^ 15 := by
  obtain ⟨hlinear, -⟩ := h.advance_of_not_atEnd hend
  exact hlinear ▸ Nat.ne_of_lt h.advance.linear_lt

end Calendar

/-- Settles O57: only the last sub-second of 2199 wraps; from every other one the carries add up to one sub-second. -/
theorem calendarCountsOn : Obligations.CalendarCountsOn := by
  unfold Obligations.CalendarCountsOn
  intro c h
  refine ⟨fun hlt => ?counts, fun heq => ?wraps, h.linear_lt, h.advance⟩
  case counts => exact h.advance_of_not_atEnd fun hend => Nat.ne_of_lt hlt hend.linear
  case wraps =>
    have hend : c.AtEnd := Classical.byContradiction fun hend => h.linear_ne_of_not_atEnd hend heq
    rw [hend.advance]
    refine ⟨?linear, ?date, ?time, rfl, rfl⟩
    case linear => simp [Calendar.linear, Calendar.seconds, Calendar.today, dayNumber_first, daysBeforeYear]
    case date => exact show pack [(0, 0), (1, 8), (1, 16)] = 0x00010100 by decide
    case time => exact show pack [(0, 0), (0, 8), (0, 16)] = 0 by decide

/-! ### A commit (R797 to R800) -/

theorem monthDays_eq {y : Nat} (hy : y ≤ 199) (m : Nat) :
    monthDays y m =
      if m = 2 then (if y % 4 = 0 ∧ y ≠ 100 then 29 else 28) else if m ∈ [4, 6, 9, 11] then 30 else 31 := by
  simp only [monthDays, leapYear_iff hy, List.mem_cons, List.not_mem_nil, or_false]

theorem validCal_iff (date time : Word) :
    validCal date time = true ↔
      fld date 7 0 ≤ 199 ∧ 1 ≤ fld date 11 8 ∧ fld date 11 8 ≤ 12 ∧ 1 ≤ fld date 20 16 ∧
      fld date 20 16 ≤ monthDays (fld date 7 0) (fld date 11 8) ∧
      fld time 20 16 ≤ 23 ∧ fld time 13 8 ≤ 59 ∧ fld time 5 0 ≤ 59 := by
  simp only [validCal, validDate, validTime, Bool.and_eq_true, decide_eq_true_eq, and_assoc]

/-- The calendar as its registers show it, without what a commit or a change of date still asks for. -/
def Calendar.shown (c : Calendar) : Calendar :=
  { c with commit := false, staged := none, commitHeld := false, dateChanged := false, answer := none }

/-- The calendar after the AON tick of a commit: the staged values, or one more sub-second and BADDATE (R798 to R800). -/
def Calendar.committed (c : Calendar) (staged : Word × Word × Word) : Calendar :=
  if validCal staged.1 staged.2.1 then c.take staged.1 staged.2.1 staged.2.2 else { c.advance with badDate := true }

theorem respond_cal (s : State) (op : BitVec 16) (c : Cmd) (status : Status) (detail : Nat) (payload : List Word) (replayed : Bool) :
    (respond s op c status detail payload replayed).cal = s.cal :=
  (respond_side (P := fun _ => False) (Q := fun _ => False) s op c status detail payload replayed (fun _ _ h => h) (fun _ h => h)
    (Side.refl s)).read State.cal fun _ => rfl

/-- The answer of CAL_SET leaves the calendar's count (R811). -/
theorem answerCalSet_shown (s : State) : (answerCalSet s).cal.shown = s.cal.shown := by
  unfold answerCalSet
  split
  · rfl
  · rw [respond_cal]
    rfl

theorem calendarTick_shown_of_commit {s : State} (h : s.cal.commit = true) :
    (calendarTick s).cal.shown = (s.cal.committed (s.cal.staged.getD s.calStaged)).shown := by
  unfold calendarTick Calendar.committed
  dsimp only
  rw [if_pos h, if_pos h]
  split
  · rw [answerCalSet_shown]
    split <;> rfl
  · split <;> rfl

/-- Settles O56: the tick takes valid values, and counts on from invalid ones. -/
theorem calendarCommit : Obligations.CalendarCommit := by
  unfold Obligations.CalendarCommit
  intro s hcommit hrange v date time y mo d valid c
  have hshown : c.shown = (s.cal.committed v).shown := calendarTick_shown_of_commit hcommit
  have read {α : Type} (f : Calendar → α) (hf : ∀ x, f x.shown = f x) : f c = f (s.cal.committed v) :=
    (hf c).symm.trans ((congrArg f hshown).trans (hf _))
  have hvalid : validCal date time = true ↔ valid := by
    rw [validCal_iff]
    exact and_congr_right fun hy => by rw [monthDays_eq hy]
  refine ⟨fun htaken => ?taken, fun hrefused => ?refused⟩
  case taken =>
    have hnew : s.cal.committed v = s.cal.take date time v.2.2 := if_pos (hvalid.mpr htaken)
    rw [hnew] at read
    exact ⟨read Calendar.year fun _ => rfl, read Calendar.month fun _ => rfl, read Calendar.day fun _ => rfl,
      read Calendar.hour fun _ => rfl, read Calendar.minute fun _ => rfl, read Calendar.second fun _ => rfl,
      read Calendar.sub fun _ => rfl, read Calendar.set fun _ => rfl, read Calendar.badDate fun _ => rfl,
      read Calendar.wrap fun _ => rfl⟩
  case refused =>
    have hnew : s.cal.committed v = { s.cal.advance with badDate := true } := if_neg fun h => hrefused (hvalid.mp h)
    rw [hnew] at read
    have hlinear : c.linear = s.cal.advance.linear := read Calendar.linear fun _ => rfl
    have hwrap : c.wrap = s.cal.advance.wrap := read Calendar.wrap fun _ => rfl
    have hset : s.cal.advance.set = s.cal.set := by
      unfold Calendar.advance
      simp only [apply_ite Calendar.set, ite_self]
    refine ⟨read Calendar.badDate fun _ => rfl, (read Calendar.set fun _ => rfl).trans hset, ?_⟩
    obtain ⟨hcounts, hwraps, hlt, -⟩ := calendarCountsOn s.cal hrange
    rw [hlinear, hwrap]
    by_cases hlast : s.cal.linear + 1 = 73049 * 86400 * 2 ^ 15
    · obtain ⟨hzero, -, -, -, hset⟩ := hwraps hlast
      exact .inr ⟨hzero, hset, hlast⟩
    · exact .inl (hcounts (Nat.lt_of_le_of_ne hlt hlast)).1

/-! ### The calendar's commands (R797, R802, R809, R811 to R814) -/

/-- Settles O25: the commands are their mailbox commands, taken and run; the registers are accesses of a live path. -/
theorem calendarCommandsComplete : Obligations.CalendarCommandsComplete := by
  unfold Obligations.CalendarCommandsComplete
  intro s c
  refine ⟨?set, ?get, fun p d hlive => ?commit, fun p lin hlive => ?latch, fun hruns hchanged => ?dateChange⟩
  case set => exact exec_of_checksPass rfl
  case get => exact exec_of_checksPass rfl
  case commit => exact congrArg Host.Outcome.next (accessWrite_of_pathLive hlive _ _)
  case latch =>
    cases lin with
    | true =>
      exact congrArg Host.Outcome.next (accessRead_of_register hlive (r := ⟨.calLinLo, 0, 0⟩) (by decide) (by decide) (by decide))
    | false =>
      exact congrArg Host.Outcome.next (accessRead_of_register hlive (r := ⟨.calDate, 0, 0⟩) (by decide) (by decide) (by decide))
  case dateChange => exact congrArg Host.Outcome.next (if_pos ⟨hruns, hchanged⟩)

/-! ### The calendar across resets (R795) -/

/-- A reset of the fast domain, held or not, keeps the calendar but for its base tick and the answer of CAL_SET (R795, R803). -/
theorem resetHeld_cal (s : State) (cause : BitVec 8) :
    (resetHeld s cause).cal = { s.cal with bt := 0, btFrac := 0, answer := none } := by
  unfold resetHeld
  dsimp only
  split <;> rfl

/-- Settles O46: a cold reset leaves the calendar as it is made; a reset of the fast domain keeps what its registers show. -/
theorem calendarAcrossResets : Obligations.CalendarAcrossResets := by
  unfold Obligations.CalendarAcrossResets
  intro s
  refine ⟨fun t h => ?cold, fun t h => ?fast⟩
  case cold =>
    have hcal : t.cal = {} := by
      rcases h with h | ⟨hoff, h⟩
      · cases h
        rfl
      · have hrise := (congrArg Host.Outcome.next (if_pos hoff)).symm.trans h
        cases hrise
        rfl
    rw [hcal]
    decide
  case fast =>
    obtain ⟨bt, frac, answer, hcal⟩ : ∃ bt frac answer, t.cal = { s.cal with bt := bt, btFrac := frac, answer := answer } := by
      rcases h with ⟨rail, h⟩ | h | h | h | ⟨cause, rfl⟩
      · cases h
        exact ⟨0, 0, none, rfl⟩
      · cases h
        exact ⟨0, 0, none, resetHeld_cal s 3⟩
      · cases h
        exact ⟨0, 0, none, resetHeld_cal s 4⟩
      · cases h
        split
        · exact ⟨0, 0, none, rfl⟩
        · exact ⟨s.cal.bt, s.cal.btFrac, s.cal.answer, rfl⟩
      · exact ⟨0, 0, none, rfl⟩
    rw [hcal]
    exact ⟨rfl, rfl, rfl, rfl⟩

end Sys2Proof.Machine
end

section
/-! PROOFS of the family 20_replay: the RPL_ commands, and the events of recording and replay. -/

namespace Sys2Proof.Machine

/-! ### The RPL_ commands (R819, R826, R842, R846 to R849) -/

section
variable (s : State) {c : Cmd}

/-- RPL_RECORD starts the recording; its answer is no item of it (R819, R846). -/
theorem rplRecord_run_of_start (h : bitB (pw c 2) 31 = false) :
    (meanRplRecord c).run s false =
      respondUnseen (startRecording s (recConfig s c) (pf c 2 7 0) s.rpl.nextLog) 0x0C01 c .done 0 [W s.rpl.nextLog] :=
  if_neg (by rw [recDelete, h]; decide)

/-- RPL_RECORD with DELETE deletes a stored log (R846, R847). -/
theorem rplRecord_run_of_delete (h : bitB (pw c 2) 31 = true) :
    (meanRplRecord c).run s false = respond (deleteLog s (pf c 3 15 0)) 0x0C01 c .done 0 [W (pf c 3 15 0)] :=
  if_pos h

/-- RPL_RUN is accepted and starts the replay of its log (R826, R848). -/
theorem rplRun_run (c : Cmd) :
    (meanRplRun c).run s false =
      startReplay (accept s 0x0C02 c false) c.stream c.tag (pf c 2 15 0) (s.logBenches (pf c 2 15 0)) (runUntil c) (runConfig s c) := by
  dsimp only [meanRplRun, runLog]

end

/-- Settles O28: the rows are their mailbox commands, taken and run; RPL_RECORD by DELETE.  That the answer to RPL_RECORD stands outside the
recording is the model's choice (log 53). -/
theorem replayCommandsComplete : Obligations.ReplayCommandsComplete := by
  unfold Obligations.ReplayCommandsComplete
  intro s c
  refine ⟨fun h => ⟨fun hstart => ?start, fun hdelete => ?delete⟩, fun h => ?run, ?status, ?stop⟩
  case start => exact (exec_of_checksPass rfl h).trans (congrArg Host.Outcome.next (rplRecord_run_of_start _ hstart))
  case delete => exact (exec_of_checksPass rfl h).trans (congrArg Host.Outcome.next (rplRecord_run_of_delete _ hdelete))
  case run =>
    rw [exec_of_checksPass rfl h, rplRun_run]
    dsimp only [infoRplRun]
  case status => exact exec_of_checksPass rfl
  case stop => exact exec_of_checksPass rfl

/-! ### The events of recording and replay (R822, R823, R836, R838, R839) -/

section
variable {s : State}

/-- While a recording runs on a lane that serves, the lane writer merges, stages and programs (R822). -/
theorem programStep_of_lanes (hstate : s.rpl.state = .recording) (hlive : s.live = true) (hlanes : s.logLanes ≠ []) :
    programStep s =
      let t := refillQueues (stageEntries s s.stageRoom) 256
      programAll t false (t.rpl.staged.length + 1) :=
  (if_neg (by simp [hstate, hlive])).trans (if_neg hlanes)

/-- With no lane left the recording ends (R841). -/
theorem programStep_of_no_lane (hstate : s.rpl.state = .recording) (hlive : s.live = true) (hlanes : s.logLanes = []) :
    programStep s = stopRecording s :=
  (if_neg (by simp [hstate, hlive])).trans (if_pos hlanes)

/-- The first unmatched CHK entry of a source is given up once replay time has passed it by SLACK or the log has ended (R836). -/
theorem missOne_of_late {source : Nat} {e : LogEntry} (hstate : s.rpl.state = .replaying)
    (hfirst : (s.rpl.checks.find? fun e => e.source == source) = some e)
    (hlate : s.rpl.ended = true ∨ e.tick + s.slackTicks < s.rpl.tick) : missOne s source = missCheck s e := by
  unfold missOne
  rw [hfirst]
  exact if_pos ⟨hstate, hlate⟩

theorem endReplay_of_ended (hstate : s.rpl.state = .replaying) (hended : s.rpl.ended = true) :
    endReplay s = finishReplay (s.each s.rpl.checks missCheck) :=
  (if_neg (by rw [hstate]; decide)).trans (if_pos ⟨hstate, hended⟩)

theorem endReplay_of_stopping (hstate : s.rpl.state = .stopping) : endReplay s = finishReplay s := if_pos hstate

end

/-- Settles O29: each row is its equation, under the guard that the row checks.  That every unmatched CHK entry is missing at END, and that
each row injects one log tick, are the model's choices (log 54); a recording with no lane left ends by R841. -/
theorem replayEventsComplete : Obligations.ReplayEventsComplete := by
  unfold Obligations.ReplayEventsComplete
  intro s
  refine ⟨fun hstate hlive hlanes => ?programs, fun hstate hlive hlanes => ?noLane, fun hlive hroom => ?gap, fun hstate hruns => ?inject,
    fun src e hstate hfirst hlate => ?missing, fun hruns hstate hended => ?ended, fun hruns hstate => ?stopped⟩
  case programs => exact congrArg Host.Outcome.next (programStep_of_lanes hstate hlive hlanes)
  case noLane => exact congrArg Host.Outcome.next (programStep_of_no_lane hstate hlive hlanes)
  case gap => exact congrArg Host.Outcome.next (if_pos ⟨hlive, hroom⟩)
  case inject => exact congrArg Host.Outcome.next (if_pos ⟨hstate, hruns⟩)
  case missing => exact congrArg Host.Outcome.next (missOne_of_late hstate hfirst hlate)
  case ended => exact congrArg Host.Outcome.next ((if_pos hruns).trans (endReplay_of_ended hstate hended))
  case stopped => exact congrArg Host.Outcome.next ((if_pos hruns).trans (endReplay_of_stopping hstate))

end Sys2Proof.Machine
end

section
/-! PROOFS of the family 21_address_map: the registers over cold resets and resets of the fast domain. -/

namespace Sys2Proof.Machine

/-- A store read after all keys but those of `p` have been taken out. -/
theorem Store.get_keep {α : Type} (d : Nat → α) (p : Nat → Bool) (m : Store α) (k : Nat) :
    (m.keep p).get d k = if p k then m.get d k else d k := by
  induction m with
  | nil => exact (ite_self _).symm
  | cons e m ih =>
    unfold Store.keep at ih ⊢
    rw [List.filter_cons]
    by_cases hkey : e.1 = k
    · by_cases hp : p k = true
      · simp [Store.get, hkey, hp]
      · rw [if_neg (by rw [hkey]; exact hp), ih, if_neg hp, if_neg hp]
    · by_cases hp : p e.1 = true
      · rw [if_pos hp]
        simp only [Store.get, if_neg hkey, ih]
      · rw [if_neg hp, ih]
        simp only [Store.get, if_neg hkey]

/-- The registers of the AON domain, which a reset of the fast domain leaves (R853). -/
def inAon (a : Nat) : Bool := decide (0x1000 ≤ a ∧ a < 0x2000)

section
variable (s : State) (cause : BitVec 8) (a : Nat)

theorem fastReset_regWord : (fastReset s cause).regWord a = if inAon a then s.regWord a else regDefault a :=
  Store.get_keep regDefault inAon s.regs a

theorem fastReset_actWord : (fastReset s cause).actWord a = if inAon a then s.actWord a else regDefault a :=
  Store.get_keep regDefault inAon s.act a

end

/-- What a reset of the fast domain leaves: the part, Distaff, the AON tick, and of the registers those of the AON domain (R853). -/
def FastKept (s t : State) : Prop :=
  t.part = s.part ∧ t.distaff = s.distaff ∧ t.power.atick = s.power.atick ∧
    ∀ a, t.regWord a = (if inAon a then s.regWord a else regDefault a) ∧ t.actWord a = (if inAon a then s.actWord a else regDefault a)

theorem fastReset_fastKept (s : State) (cause : BitVec 8) : FastKept s (fastReset s cause) :=
  ⟨rfl, rfl, rfl, fun a => ⟨fastReset_regWord s cause a, fastReset_actWord s cause a⟩⟩

theorem resetHeld_fastKept (s : State) (cause : BitVec 8) : FastKept s (resetHeld s cause) := by
  unfold resetHeld
  dsimp only
  split <;> exact fastReset_fastKept s cause

/-- Settles O47: a cold reset leaves no register written; a reset of the fast domain keeps of them those of the AON domain.  The
statement has no clause on the pages of the NAND lanes. -/
theorem registersAcrossResets : Obligations.RegistersAcrossResets := by
  unfold Obligations.RegistersAcrossResets
  intro s
  refine ⟨fun t h => ?cold, fun rail t h => ?fast⟩
  case cold =>
    cases h
    exact ⟨rfl, fun a => ⟨Store.get_nil regDefault a, Store.get_nil regDefault a⟩⟩
  case fast =>
    have hkept : FastKept s t := by
      rcases h with h | h | h
      · cases h
        exact fastReset_fastKept s 2
      · cases h
        exact resetHeld_fastKept s 3
      · cases h
        exact resetHeld_fastKept s 4
    obtain ⟨hpart, hdistaff, hatick, hregs⟩ := hkept
    refine ⟨hpart, hdistaff, hatick, fun a => ⟨fun hout => ?_, fun hlow hhigh => ?_⟩⟩
    · have hfast : ¬ inAon a = true := by simp only [inAon, decide_eq_true_eq]; omega
      simpa only [if_neg hfast] using hregs a
    · have haon : inAon a = true := decide_eq_true ⟨hlow, hhigh⟩
      simpa only [if_pos haon] using hregs a

end Sys2Proof.Machine
end
